-- ==== Sys2Proof/Word.lean ====
section
/-!
DEFINITION. The word types of the register and memory layouts (R6): registers are 32 or 64 bits, memory is bytes.
-/
namespace Sys2Proof

/-- A 64-bit register, counter slot or command word. A 32-bit register keeps its value in bits [31:0]. -/
abbrev Word := BitVec 64

/-- One byte of memory, of a frame payload or of a message. -/
abbrev Byte := BitVec 8

/-- A 32-bit lane of the vector engine, or one FP32 value. -/
abbrev Lane := BitVec 32

end Sys2Proof
end

