-- ==== Sys2Proof/Syntax.lean ====
section
/-!
DEFINITION. The commands of spec/opcode_table.json and the data their senders supply. One constructor of Instr per row.
-/
namespace Sys2Proof

/-- Who sends a register access (R41, R42, R53): the sideband, the fabric manager through the FM-owned logical device of
a CXL port, logical device `n` of a CXL port, or a Yumer agent, with the tenant of its frame. -/
inductive Requester
  | sideband
  | fm (port : Nat)
  | ld (port n : Nat)
  | agent (module unit tenant : Nat)
  deriving DecidableEq, Repr

/-- R246, R247: a Yumer frame, its header fields and trailer. HCRC and FCRC are made and checked by each link (R248);
`crcOk` says whether both hold on arrival. -/
structure Frame where
  dstModule : Nat := 0
  dstUnit : Nat := 0
  srcModule : Nat := 0
  srcUnit : Nat := 0
  opcode : Nat := 0
  tc : Nat := 0
  cm : Bool := false
  load : Nat := 0
  plevel : Nat := 1
  poison : Bool := false
  posted : Bool := false
  turned : Bool := false
  tenant : Nat := 0
  asid : Nat := 0xFFFF
  seq : Nat := 0
  tag : Nat := 0
  addr : Nat := 0
  len : Nat := 0
  status : Nat := 0
  detail : Nat := 0
  aux : Nat := 0
  operand0 : Nat := 0
  operand1 : Nat := 0
  issueTime : Nat := 0
  hops : Nat := 0
  payload : List Byte := []
  scarry : Nat := 0
  crcOk : Bool := true
  stomped : Bool := false
  deriving DecidableEq, Repr

/-- The two ring paths (R74). -/
inductive PathId | a | b
  deriving DecidableEq, Repr

/-- The sensors of R60 and the power monitor of R18; a number names the site, stack, port die or DIMM slot. -/
inductive Sensor
  | hub (site : Nat)
  | portDie (n : Nat)
  | hbm (stack : Nat)
  | optics (port : Nat)
  | dimm (channel slot : Nat)
  | power
  deriving DecidableEq, Repr

/-- What a test or training of the cold path found on one DDR5 channel (R66, R67, R102). -/
structure DdrReport where
  channel : Nat
  mrdimm : Bool
  dimms : Nat
  dimmGb : Nat
  rate : Nat
  rulesOk : Bool
  trained : Bool
  deriving DecidableEq, Repr

/-- What the tests of Testing found (R96, R102): stacks that failed, each populated channel, failing ways and rows as
defect map entries' kinds and locations, a fatal switch buffer bank, and the slots and granules that rows in the defect map
without a spare take from T1 and T2 space (R167), by the device's mapping, which the spec does not give. -/
structure TestReport where
  hbmFailed : List Nat
  ddr : List DdrReport
  waysFailed : List (Nat × Nat)
  rowsFailed : List (Nat × Nat)
  bankFailed : Bool
  slotsLost : Nat
  granulesLost : List Nat
  deriving DecidableEq, Repr

/-- Where a read, a scrub, a residue check or a selvedge check found an error (R542, R543, R550). Locations are in the format of R104;
what the device's undocumented mapping decides comes with the event (R563). -/
inductive ErrSite
  /-- a store cache line, by module offset, and its way -/
  | t0 (addr way : Nat)
  /-- a T1 half line, by module offset, and its row -/
  | t1 (addr loc : Nat)
  /-- a block of a T2 image, its row and the failing device -/
  | t2 (tile block loc device : Nat)
  /-- a 128-byte scratchpad unit of a logical core -/
  | scratch (core unit : Nat)
  /-- a pattern memory word -/
  | pattern (core word : Nat)
  /-- a failed residue check of a command that writes `count` 128-byte units -/
  | residue (core unit count : Nat)
  /-- a tile directory entry or slot record -/
  | directory
  /-- a tile header in T1 space, and its row -/
  | tileHeader (tile loc : Nat)
  /-- the granule free map, and its row -/
  | freeMap (loc : Nat)
  /-- a snoop filter entry -/
  | filter
  /-- a switch buffer bank, its history location, and the queued frame hit, with whether in its header cell -/
  | bufferBank (bank loc : Nat) (frame : Option (Nat × Bool))
  /-- the switch buffer's free list or queue structures -/
  | bufferLists
  /-- a mesh interface's copy of the defect map -/
  | meshMap
  /-- register storage parity, on a page (R36) -/
  | parity (page : Nat)
  /-- the end of a patrol pass over the array of an HBMC, DDRC or SCACHE page -/
  | patrolPass (page : Nat)
  deriving DecidableEq, Repr

/-- What lies in a DRAM row or store cache way that RAS retires, by the device's mapping, which the spec does not give
(R563): tiles whose T1 slot has bytes in it, further slots not in use, T2 granules, whether a structure at a fixed offset
does (R557), and the lines a way holds. -/
structure UnitUse where
  tiles : List Nat
  slots : Nat
  granules : List Nat
  fixed : Bool
  lines : List Nat
  deriving DecidableEq, Repr

/-- R70: the fields of a Nipieb message before its payload; `lenOk`: LEN fits the command (R72). -/
structure NipHdr where
  vendor : Nat := 0xE37D
  nver : Nat := 1
  inst : Nat := 0
  lenOk : Bool := true
  deriving DecidableEq, Repr

/-- How a word, command or advance comes to its unit (R215, R506, R517): by a write of a register, or by a frame. -/
inductive Via
  | reg (by_ : Requester) (index size value : Nat)
  | frame (port : Fin 28) (f : Frame)
  deriving DecidableEq, Repr

/-- The registers of the SHAPE page whose write reconfigures a shaper (R537). -/
inductive ShaperReg
  | cfg | rate | burst
  | portMap (p : Fin 28)
  deriving DecidableEq, Repr

/-- The engines' queues of a core (R328). -/
inductive EngineId | matrix | vector | dma0 | dma1
  deriving DecidableEq, Repr


/-- The commands (spec/opcode_table.json), one constructor per row: those without operands last, as Lean's
runtime makes no object with operands of a constructor past number 244. `by_` is the requester of a register write. -/
inductive Instr
  /-- R28 -/
  | registerWrite (by_ : Requester) (page off size value : Nat)
  /-- R44 -/
  | ownerWrite (by_ : Requester) (page value : Nat)
  /-- R39; ARM is bit 8 -/
  | errInjectArm (by_ : Requester) (page value : Nat)
  /-- R34; CNT_CLEAR is bit 2 of CTRL -/
  | cntClear (by_ : Requester) (page value : Nat)
  /-- R47; ERR_STATUS, or the page's event register -/
  | errStatusClear (by_ : Requester) (page : Nat) (event : Bool) (bits : Nat)
  /-- R49 -/
  | counterSlotWrite (by_ : Requester) (page : Nat) (slot : Fin 256) (size value : Nat)
  /-- R18 -/
  | powerCeilingThrottle (watts : Nat)
  /-- R93; `perst`: by PERST_N going low, else a hot reset or link down -/
  | hostPortReset (port : Fin 2) (perst : Bool)
  /-- R61 -/
  | thermalThrottle (sensor : Sensor) (value : Nat)
  /-- R61 -/
  | thermalTrip (sensor : Sensor) (value : Nat)
  /-- R68; channel, slot, °C -/
  | spdTempRead (readings : List (Nat × Nat × Nat))
  /-- R69 -/
  | entdaa (addr : Nat)
  /-- R71 -/
  | getInfo (hdr : NipHdr)
  /-- R71 -/
  | getStatus (hdr : NipHdr)
  /-- R71 -/
  | nipiebRegRead (hdr : NipHdr) (page off size : Nat)
  /-- R71 -/
  | nipiebRegWrite (hdr : NipHdr) (page off size value : Nat)
  /-- R71 -/
  | setModuleId (hdr : NipHdr) (id : Nat)
  /-- R71 -/
  | getModuleId (hdr : NipHdr)
  /-- R73 -/
  | bundleBegin (hdr : NipHdr) (len : Nat)
  /-- R71 -/
  | bundleData (hdr : NipHdr) (off : Nat) (data : List Byte)
  /-- R576 -/
  | bundleCommit (hdr : NipHdr)
  /-- R560 -/
  | nipiebFence (hdr : NipHdr)
  /-- R560 -/
  | nipiebUnfence (hdr : NipHdr)
  /-- R569 -/
  | armoireRead (hdr : NipHdr) (region off n : Nat)
  /-- R236 -/
  | calendarSet (hdr : NipHdr) (seconds : Nat)
  /-- R71 -/
  | calendarGet (hdr : NipHdr)
  /-- R84 -/
  | joinEn (by_ : Requester) (value : Nat)
  /-- R84; CLOSE_CMD is bit 3 of RING_CTRL -/
  | closeCmd (by_ : Requester) (value : Nat)
  /-- R76 -/
  | pathStartLoopback (path : PathId)
  /-- R76 -/
  | loopbackQualPass (path : PathId)
  /-- R76 -/
  | loopbackQualFail (path : PathId)
  /-- R77 -/
  | pathOpenDrive (path : PathId)
  /-- R76 -/
  | switchSensedOpen (path : PathId)
  /-- R76 -/
  | openingTimeout (path : PathId)
  /-- R76 -/
  | joinPass (path : PathId)
  /-- R76 -/
  | joiningTimeout (path : PathId)
  /-- R77 -/
  | closingCondition (path : PathId)
  /-- R76 -/
  | switchSensedClosed (path : PathId)
  /-- R90 -/
  | closingTimeout (path : PathId)
  /-- R87 -/
  | ringRxpwrUpdate (powers : List Nat)
  /-- R117; COLD is bit 1 of BRINGUP_CTRL -/
  | cold (by_ : Requester) (value : Nat)
  /-- R93; WARM is bit 0 of BRINGUP_CTRL -/
  | warm (by_ : Requester)
  /-- R95 -/
  | ledgerDone (unreadable copyBad stagedOk : Bool)
  /-- R105 -/
  | coreSelfTestDone (failed : List Nat)
  /-- R95 -/
  | testingDone (report : TestReport)
  /-- R108 -/
  | restoringDone (lostHbm lostDdr : Bool)
  /-- R98 -/
  | cxlLinkUp (port : Fin 2) (x4 : Bool) (rate : Nat)
  /-- R98 -/
  | cxlConfigRequest (port : Fin 2) (ld : Nat) (write : Bool)
  /-- R99 -/
  | portDetectStart (port : Fin 28)
  /-- R99 -/
  | partnerDetected (port : Fin 28) (txLanes rxLanes : Nat)
  /-- R99 -/
  | equaliseDone (port : Fin 28) (txFail rxFail : List Nat)
  /-- R114 -/
  | lanemapDone (port : Fin 28) (vkm : Bool) (level module role : Nat) (ownPort : Option Nat)
  /-- R100 -/
  | qualifySoakEnd (port : Fin 28) (txFail rxFail : List Nat)
  /-- R99 -/
  | linkLoss (port : Fin 28)
  /-- R99 -/
  | retryTimerExpiry (port : Fin 28)
  /-- R287 -/
  | nearLoopWrite (by_ : Requester) (port : Fin 28) (value : Nat)
  /-- R126 -/
  | defectAdd (by_ : Requester)
  /-- R126 -/
  | defectRemove (by_ : Requester)
  /-- R144 -/
  | translationWalkDone (tenant asid vpn : Nat)
  /-- R149 -/
  | invalidateAll (by_ : Requester) (tenant asid count : Nat)
  /-- R149 -/
  | invalidateTenant (by_ : Requester) (tenant asid count : Nat)
  /-- R149 -/
  | invalidateAsid (by_ : Requester) (tenant asid count : Nat)
  /-- R149 -/
  | invalidateRange (by_ : Requester) (tenant asid count : Nat)
  /-- R161 -/
  | prewalkCmd (by_ : Requester) (tenant asid count : Nat)
  /-- R157 -/
  | stuFaultPop (by_ : Requester)
  /-- R155 -/
  | stuTenantBaseWrite (by_ : Requester) (value : Nat)
  /-- R176 -/
  | lineReadFill (line : Nat)
  /-- R304 -/
  | homeTransactionStart (line : Nat)
  /-- R179 -/
  | promotionDone (tile : Nat)
  /-- R180 -/
  | demotionDone (tile : Nat)
  /-- R183 -/
  | freeingDone (tile : Nat)
  /-- R190 -/
  | ageEviction (tile : Nat)
  /-- R193 -/
  | alloc (by_ : Requester) (tenant cls : Nat)
  /-- R183 -/
  | free (by_ : Requester) (tenant cls : Nat)
  /-- R186 -/
  | pin (by_ : Requester) (tenant cls : Nat)
  /-- R186 -/
  | unpin (by_ : Requester) (tenant cls : Nat)
  /-- R193 -/
  | promote (by_ : Requester) (tenant cls : Nat)
  /-- R193 -/
  | demote (by_ : Requester) (tenant cls : Nat)
  /-- R183 -/
  | evict (by_ : Requester) (tenant cls : Nat)
  /-- R193 -/
  | setclass (by_ : Requester) (tenant cls : Nat)
  /-- R171 -/
  | sealTiles (by_ : Requester) (tenant cls : Nat)
  /-- R193 -/
  | hdrRead (by_ : Requester) (tenant cls : Nat)
  /-- R200 -/
  | tierCfgWrite (by_ : Requester) (value : Nat)
  /-- R185 -/
  | classLimitWrite (by_ : Requester) (cls : Fin 8) (value : Nat)
  /-- R238 -/
  | cursorDefine (by_ : Requester)
  /-- R214 -/
  | cursorRelease (by_ : Requester)
  /-- R239; CURSOR_BIND or CURSOR_DEF -/
  | cursorDefWrite (by_ : Requester) (bind : Bool) (value : Nat)
  /-- R216 -/
  | cursorAdvance (via : Via)
  /-- R225 -/
  | drawerWorkDone (drawer : Fin 4096)
  /-- R214 -/
  | cursorIdleExpiry (cursor : Fin 64)
  /-- R221 -/
  | drawerWrite (by_ : Requester) (index : Fin 4096)
  /-- R241 -/
  | drawerRead (by_ : Requester) (index : Fin 4096)
  /-- R231 -/
  | drawerDelete (by_ : Requester) (index : Fin 4096)
  /-- R242 -/
  | reportPop (by_ : Requester)
  /-- R263 -/
  | timeSync (port : Fin 28) (tx echoTx echoRx hops : Nat)
  /-- R256 -/
  | read (port : Fin 28) (f : Frame)
  /-- R256 -/
  | write (port : Fin 28) (f : Frame)
  /-- R256 -/
  | writePosted (port : Fin 28) (f : Frame)
  /-- R259 -/
  | atomicAdd (port : Fin 28) (f : Frame)
  /-- R259 -/
  | atomicAnd (port : Fin 28) (f : Frame)
  /-- R259 -/
  | atomicOr (port : Fin 28) (f : Frame)
  /-- R259 -/
  | atomicXor (port : Fin 28) (f : Frame)
  /-- R259 -/
  | atomicSwap (port : Fin 28) (f : Frame)
  /-- R259 -/
  | atomicCas (port : Fin 28) (f : Frame)
  /-- R259 -/
  | atomicSmin (port : Fin 28) (f : Frame)
  /-- R259 -/
  | atomicSmax (port : Fin 28) (f : Frame)
  /-- R259 -/
  | atomicUmin (port : Fin 28) (f : Frame)
  /-- R259 -/
  | atomicUmax (port : Fin 28) (f : Frame)
  /-- R259 -/
  | atomicFadd32 (port : Fin 28) (f : Frame)
  /-- R257 -/
  | flush (port : Fin 28) (f : Frame)
  /-- R260 -/
  | tileWrite (port : Fin 28) (f : Frame)
  /-- R614 -/
  | regRead (port : Fin 28) (f : Frame)
  /-- R614 -/
  | regWrite (port : Fin 28) (f : Frame)
  /-- R255 -/
  | completion (port : Fin 28) (f : Frame)
  /-- R251 -/
  | linkCtrl (port : Fin 28) (ack : Nat) (replayFrom : Option Nat) (credits : List Nat)
  /-- R251 -/
  | linkCtrlSendTimer (port : Fin 28)
  /-- R251 -/
  | replayTimeout (port : Fin 28)
  /-- R275 -/
  | frameForward (port : Fin 28) (f : Frame)
  /-- R264 -/
  | deadTargetExpiry (tag : Nat)
  /-- R282 -/
  | featureFloorWrite (by_ : Requester) (value : Nat)
  /-- R305 -/
  | cohRdShared (port : Fin 28) (f : Frame)
  /-- R305 -/
  | cohRdOwn (port : Fin 28) (f : Frame)
  /-- R305 -/
  | cohUpgrade (port : Fin 28) (f : Frame)
  /-- R306 -/
  | cohWb (port : Fin 28) (f : Frame)
  /-- R301 -/
  | cohEvict (port : Fin 28) (f : Frame)
  /-- R307 -/
  | cohHeartbeat (port : Fin 28) (f : Frame)
  /-- R308 -/
  | cohFwdData (port : Fin 28) (f : Frame)
  /-- R305 -/
  | snoopResponse (port : Fin 28) (f : Frame)
  /-- R311 -/
  | cohAgentWrite (by_ : Requester) (agent : Fin 32) (value : Nat)
  /-- R312 -/
  | agentHeartbeatTimeout (agent : Fin 32)
  /-- R316 -/
  | leaseDefine (by_ : Requester) (index : Fin 4096) (term : Nat)
  /-- R316 -/
  | leaseUndefine (by_ : Requester) (index : Fin 4096) (term : Nat)
  /-- R319 -/
  | leaseRevoke (by_ : Requester) (index : Fin 4096) (term : Nat)
  /-- R317 -/
  | leaseTake (by_ : Requester) (index : Fin 4096) (epoch : Nat)
  /-- R317 -/
  | leaseRenew (by_ : Requester) (index : Fin 4096) (epoch : Nat)
  /-- R317 -/
  | leaseGive (by_ : Requester) (index : Fin 4096) (epoch : Nat)
  /-- R319 -/
  | leaseExpiry (index : Fin 4096)
  /-- R355 -/
  | work (port : Fin 28) (f : Frame)
  /-- R392 -/
  | attend (port : Fin 28) (f : Frame)
  /-- R393 -/
  | attendWaitExpiry (n : Nat)
  /-- R420 -/
  | push (port : Fin 28) (f : Frame)
  /-- R424 -/
  | append (port : Fin 28) (f : Frame)
  /-- R425 -/
  | spill (port : Fin 28) (f : Frame)
  /-- R425 -/
  | fetch (port : Fin 28) (f : Frame)
  /-- R426 -/
  | offer (port : Fin 28) (f : Frame)
  /-- R427 -/
  | accept (port : Fin 28) (f : Frame)
  /-- R427 -/
  | decline (port : Fin 28) (f : Frame)
  /-- R427 -/
  | withdraw (port : Fin 28) (f : Frame)
  /-- R427 -/
  | offerTimeout (mirror : Bool) (index : Nat)
  /-- R428 -/
  | whoOwns (port : Fin 28) (f : Frame)
  /-- R429 -/
  | ticketRelease (port : Fin 28) (f : Frame)
  /-- R419 -/
  | create (port : Fin 28) (f : Frame)
  /-- R430 -/
  | mirrorCreate (port : Fin 28) (f : Frame)
  /-- R431 -/
  | mirrorUpdate (port : Fin 28) (f : Frame)
  /-- R432 -/
  | probe (port : Fin 28) (f : Frame)
  /-- R431 -/
  | mirrorDrop (port : Fin 28) (f : Frame)
  /-- R432 -/
  | mirrorRequest (port : Fin 28) (f : Frame)
  /-- R436 -/
  | forceRelease (by_ : Requester)
  /-- R436 -/
  | setOwner (by_ : Requester)
  /-- R436 -/
  | dropMirror (by_ : Requester)
  /-- R456 -/
  | emuApplyDone (table : Fin 256)
  /-- R441 -/
  | tableLoad (by_ : Requester) (table : Fin 256)
  /-- R463 -/
  | tableUnload (by_ : Requester) (table : Fin 256)
  /-- R460 -/
  | migStart (by_ : Requester)
  /-- R466 -/
  | indexLoad (by_ : Requester) (index : Fin 64)
  /-- R490 -/
  | indexUnload (by_ : Requester) (index : Fin 64)
  /-- R487 -/
  | tombScanDone (index : Fin 64)
  /-- R484 -/
  | mergeStart (by_ : Requester) (index : Fin 64) (slots width : Nat)
  /-- R486 -/
  | mergeAbort (by_ : Requester) (index : Fin 64)
  /-- R496 -/
  | memrd (port : Fin 2) (ld : Fin 16) (hpa tag : Nat)
  /-- R496 -/
  | memrddata (port : Fin 2) (ld : Fin 16) (hpa tag : Nat)
  /-- R496; accepted and ignored -/
  | memspecrd (port : Fin 2) (ld : Fin 16) (hpa tag : Nat)
  /-- R496 -/
  | memwr (port : Fin 2) (ld : Fin 16) (hpa tag : Nat) (data : List Byte) (poison : Bool)
  /-- R496 -/
  | memwrptl (port : Fin 2) (ld : Fin 16) (hpa tag : Nat) (data : List Byte) (enables : List Bool) (poison : Bool)
  /-- R495 -/
  | identifyMemoryDevice (port : Fin 2) (ld : Fin 16)
  /-- R495 -/
  | getEventRecords (port : Fin 2) (ld : Fin 17)
  /-- R495 -/
  | clearEventRecords (port : Fin 2) (ld : Fin 17) (handles : List Nat)
  /-- R495 -/
  | getDynamicCapacityConfiguration (port : Fin 2) (ld : Fin 16)
  /-- R495 -/
  | getDynamicCapacityExtentList (port : Fin 2) (ld : Fin 16)
  /-- R498 -/
  | addDynamicCapacityResponse (port : Fin 2) (ld : Fin 16) (ranges : List (Nat × Nat))
  /-- R498 -/
  | releaseDynamicCapacity (port : Fin 2) (ld : Fin 16) (ranges : List (Nat × Nat))
  /-- R495 -/
  | getLdInfo (port : Fin 2)
  /-- R495 -/
  | getQosControl (port : Fin 2)
  /-- R503 -/
  | setQosControl (port : Fin 2) (control moderate severe interval basis collection : Nat)
  /-- R503 -/
  | getQosStatus (port : Fin 2) (ld : Fin 16)
  /-- R538 -/
  | getQosAllocatedBw (port : Fin 2) (ld : Fin 16) (count : Nat)
  /-- R538 -/
  | setQosAllocatedBw (port : Fin 2) (ld : Fin 16) (fractions : List Nat)
  /-- R538 -/
  | getQosBwLimit (port : Fin 2) (ld : Fin 16) (count : Nat)
  /-- R538 -/
  | setQosBwLimit (port : Fin 2) (ld : Fin 16) (fractions : List Nat)
  /-- R495 -/
  | getDcdInfo (port : Fin 2)
  /-- R495 -/
  | getHostDcRegionConfiguration (port : Fin 2) (host : Nat)
  /-- R495 -/
  | setDcRegionConfiguration (port : Fin 2) (host region blockSize : Nat)
  /-- R495 -/
  | getDcRegionExtentLists (port : Fin 2) (host : Nat)
  /-- R497 -/
  | initiateDynamicCapacityAdd (port : Fin 2) (ld : Fin 16) (extents : List (Nat × Nat × Word))
  /-- R498 -/
  | initiateDynamicCapacityRelease (port : Fin 2) (ld : Fin 16) (forced : Bool) (ranges : List (Nat × Nat))
  /-- R499 -/
  | drainTimeout (port : Fin 2) (extent : Fin 4096)
  /-- R495 -/
  | hdmDecoderCommit (port : Fin 2) (ld : Fin 16) (decoder : Fin 2) (base size dpa ways : Nat)
  /-- R523 -/
  | cxlpLdWrite (by_ : Requester) (port : Fin 2) (value : Nat)
  /-- R505 -/
  | openModeWrite (by_ : Requester) (port : Fin 2) (value : Nat)
  /-- R506 -/
  | poolSubmit (via : Via)
  /-- R510 -/
  | poolAbort (via : Via)
  /-- R508 -/
  | poolPieceDone (engine : Fin 4)
  /-- R526 -/
  | meterClear (by_ : Requester)
  /-- R515 -/
  | meterSnapshot (by_ : Requester)
  /-- R517; `second`: the queue a register names; a frame names its own -/
  | pigeonSend (via : Via) (second : Bool)
  /-- R520 -/
  | pigeonPop (by_ : Requester) (hole : Fin 64) (value : Nat)
  /-- R521 -/
  | pigeonFlush (via : Via)
  /-- R527 -/
  | pigeonClear (by_ : Requester) (hole : Fin 64) (queues : Nat)
  /-- R537 -/
  | shaperReconfigure (by_ : Requester) (which : ShaperReg) (value : Nat)
  /-- R550 -/
  | scrubPatrol (site : ErrSite) (uncorrectable scrub : Bool) (use : UnitUse)
  /-- R556 -/
  | retireCopy (tile : Nat)
  /-- R559 -/
  | laneBerLimit (port : Fin 28) (rx : Bool) (lane : Nat) (uncorrectable : Bool)
  /-- R563 -/
  | injectT0Line (by_ : Requester) (ue : Bool)
  /-- R563 -/
  | injectT1Line (by_ : Requester) (ue : Bool)
  /-- R563 -/
  | injectT2Block (by_ : Requester) (ue : Bool)
  /-- R563 -/
  | injectScratchpad (by_ : Requester) (ue : Bool)
  /-- R565 -/
  | injectYumerLane (by_ : Requester) (ue : Bool)
  /-- R565 -/
  | injectSwitchFrame (by_ : Requester) (ue : Bool)
  /-- R565 -/
  | injectPoison (by_ : Requester) (ue : Bool)
  /-- R582 -/
  | monitorReading (readings : List (Nat × Nat × Nat × Nat))
  /-- R593 -/
  | run (by_ : Requester)
  /-- R584 -/
  | monitorsDone (curve : List Nat)
  /-- R584 -/
  | linksDone (low : Nat)
  /-- R584 -/
  | memoryDone (offsets : List Nat)
  /-- R584 -/
  | fittingCommit (forecast : Nat)
  /-- R98 -/
  | cxlPerstNRelease (port : Fin 2)
  /-- R61 -/
  | throttleEnd (sensor : Sensor) (value : Nat)
  /-- R34 -/
  | ctrlEnableWrite (by_ : Requester) (page value : Nat)
  /-- R47; ERR_MASK, or the page's event mask -/
  | errMaskWrite (by_ : Requester) (page : Nat) (event : Bool) (value : Nat)
  /-- R251; an uncorrectable codeword, a failing HCRC, a failing FCRC, or a stomped frame -/
  | frameCrcFail (port : Fin 28) (f : Frame) (kind : Fin 4)
  /-- R250 -/
  | reservedOpcode (port : Fin 28) (f : Frame)
  /-- R72 -/
  | nipiebUnsupported (hdr : NipHdr) (cmd : Nat)
  /-- R351 -/
  | coreCtxBindWrite (by_ : Requester) (core : Fin 64) (value : Nat)
  /-- R355 -/
  | start (by_ : Requester) (core : Fin 64)
  /-- R353 -/
  | stop (by_ : Requester) (core : Fin 64)
  /-- R351 -/
  | reset (by_ : Requester) (core : Fin 64)
  /-- R354 -/
  | patternLoad (by_ : Requester) (core : Fin 64) (offset count : Nat)
  /-- R354 -/
  | patternLoadDone (core : Fin 64)
  /-- R358; FENCE is bit 0 of CORE_CFG -/
  | commandFence (by_ : Requester) (core : Fin 64) (value : Nat)
  /-- R358 -/
  | commandUnfence (by_ : Requester) (core : Fin 64) (value : Nat)
  /-- R358; SUBSTITUTE is bit 2 of CORE_CFG, of a core kept fenced -/
  | substitute (by_ : Requester) (core : Fin 64) (value : Nat)
  /-- R358 -/
  | coreDrainDone (core : Fin 64)
  /-- R359 -/
  | substitutionDone (core : Fin 64) (pass : Bool)
  /-- R366 -/
  | benchTest (by_ : Requester) (slot : Fin 8)
  /-- R366 -/
  | benchTestDone (slot : Fin 8) (pass : Bool)
  /-- R363 -/
  | coreFaultPop (by_ : Requester) (core : Fin 64)
  /-- R374 -/
  | coreSemWrite (by_ : Requester) (core sem : Fin 64) (value : Nat)
  /-- R356 -/
  | watchdog (core : Fin 64) (ctx : Fin 8)
  /-- R347 -/
  | nop (core : Fin 64) (ctx : Fin 8)
  /-- R347 -/
  | addi (core : Fin 64) (ctx : Fin 8)
  /-- R347 -/
  | add (core : Fin 64) (ctx : Fin 8)
  /-- R347 -/
  | sub (core : Fin 64) (ctx : Fin 8)
  /-- R347 -/
  | mul (core : Fin 64) (ctx : Fin 8)
  /-- R347 -/
  | and (core : Fin 64) (ctx : Fin 8)
  /-- R347 -/
  | or (core : Fin 64) (ctx : Fin 8)
  /-- R347 -/
  | xor (core : Fin 64) (ctx : Fin 8)
  /-- R347 -/
  | shl (core : Fin 64) (ctx : Fin 8)
  /-- R347 -/
  | shr (core : Fin 64) (ctx : Fin 8)
  /-- R347 -/
  | movhi (core : Fin 64) (ctx : Fin 8)
  /-- R369 -/
  | ld (core : Fin 64) (ctx : Fin 8)
  /-- R369 -/
  | st (core : Fin 64) (ctx : Fin 8)
  /-- R347 -/
  | csr (core : Fin 64) (ctx : Fin 8)
  /-- R347 -/
  | beq (core : Fin 64) (ctx : Fin 8)
  /-- R347 -/
  | bne (core : Fin 64) (ctx : Fin 8)
  /-- R347 -/
  | blt (core : Fin 64) (ctx : Fin 8)
  /-- R347 -/
  | bltu (core : Fin 64) (ctx : Fin 8)
  /-- R347 -/
  | jmp (core : Fin 64) (ctx : Fin 8)
  /-- R347 -/
  | loop (core : Fin 64) (ctx : Fin 8)
  /-- R335 -/
  | mma (core : Fin 64) (ctx : Fin 8)
  /-- R340 -/
  | vopAdd (core : Fin 64) (ctx : Fin 8)
  /-- R340 -/
  | vopSub (core : Fin 64) (ctx : Fin 8)
  /-- R340 -/
  | vopMul (core : Fin 64) (ctx : Fin 8)
  /-- R340 -/
  | vopFma (core : Fin 64) (ctx : Fin 8)
  /-- R340 -/
  | vopMax (core : Fin 64) (ctx : Fin 8)
  /-- R340 -/
  | vopMin (core : Fin 64) (ctx : Fin 8)
  /-- R340 -/
  | vopExp (core : Fin 64) (ctx : Fin 8)
  /-- R340 -/
  | vopLog (core : Fin 64) (ctx : Fin 8)
  /-- R340 -/
  | vopRecip (core : Fin 64) (ctx : Fin 8)
  /-- R340 -/
  | vopRsqrt (core : Fin 64) (ctx : Fin 8)
  /-- R340 -/
  | vopAdds (core : Fin 64) (ctx : Fin 8)
  /-- R340 -/
  | vopMuls (core : Fin 64) (ctx : Fin 8)
  /-- R342 -/
  | vopCvt (core : Fin 64) (ctx : Fin 8)
  /-- R344 -/
  | vopQuantMx (core : Fin 64) (ctx : Fin 8)
  /-- R341 -/
  | vopRsum (core : Fin 64) (ctx : Fin 8)
  /-- R341 -/
  | vopRmax (core : Fin 64) (ctx : Fin 8)
  /-- R348 -/
  | dma (core : Fin 64) (ctx : Fin 8)
  /-- R349 -/
  | dmaIn (core : Fin 64) (queue : Fin 2)
  /-- R349 -/
  | dmaOut (core : Fin 64) (queue : Fin 2)
  /-- R348 -/
  | dmaAtomic (core : Fin 64) (queue : Fin 2)
  /-- R348 -/
  | dmaAdvance (core : Fin 64) (queue : Fin 2)
  /-- R348 -/
  | dmaPigeon (core : Fin 64) (queue : Fin 2)
  /-- R367 -/
  | engineCommandFinish (core : Fin 64) (engine : EngineId)
  /-- R372 -/
  | lineBufferExpiry (core : Fin 64) (queue : Fin 2)
  /-- R374 -/
  | wait (core : Fin 64) (ctx : Fin 8)
  /-- R373 -/
  | signal (core : Fin 64) (ctx : Fin 8)
  /-- R373 -/
  | signalApply (core : Fin 64) (ctx : Fin 8)
  /-- R378 -/
  | acquire (core : Fin 64) (ctx : Fin 8)
  /-- R377 -/
  | release (core : Fin 64) (ctx : Fin 8)
  /-- R376 -/
  | fence (core : Fin 64) (ctx : Fin 8)
  /-- R353 -/
  | halt (core : Fin 64) (ctx : Fin 8)
  /-- R449 -/
  | gather (port : Fin 28) (f : Frame)
  /-- R450 -/
  | pool (port : Fin 28) (f : Frame)
  /-- R452 -/
  | scatter (port : Fin 28) (f : Frame)
  /-- R460 -/
  | cutover (port : Fin 28) (f : Frame)
  /-- R477 -/
  | query (port : Fin 28) (f : Frame)
  /-- R481 -/
  | insert (port : Fin 28) (f : Frame)
  /-- R482 -/
  | delete (port : Fin 28) (f : Frame)
  /-- R588 -/
  | getVersion (t : Fin 3)
  /-- R588 -/
  | getCapabilities (t : Fin 3)
  /-- R588 -/
  | negotiateAlgorithms (t : Fin 3)
  /-- R588 -/
  | getDigests (t : Fin 3)
  /-- R587 -/
  | getCertificate (t : Fin 3) (slot off len : Nat)
  /-- R588 -/
  | challenge (t : Fin 3) (slot : Nat) (nonce : List Byte)
  /-- R589 -/
  | getMeasurements (t : Fin 3) (index : Nat) (signed : Bool) (nonce : List Byte)
  /-- R588 -/
  | keyExchange (t : Fin 3) (slot : Nat) (nonce : List Byte)
  /-- R588 -/
  | finish (t : Fin 3) (id : Nat)
  /-- R588 -/
  | heartbeat (t : Fin 3) (id : Nat)
  /-- R588 -/
  | keyUpdate (t : Fin 3) (id : Nat)
  /-- R588 -/
  | endSession (t : Fin 3) (id : Nat)
  /-- R588 -/
  | vendorDefinedRequest (t : Fin 3) (id : Nat) (ide : Bool) (port : Fin 2)
  /-- R599 -/
  | twinHello (port : Fin 28) (fields : List Nat) (serial : Nat) (regs : List (Nat × Nat × Nat × Nat)) (time : Nat)
  /-- R598 -/
  | twinHeartbeat (port : Fin 28) (phase fence twinState : Nat)
  /-- R606 -/
  | twinReg (port : Fin 28) (page off size value addr : Nat)
  /-- R602 -/
  | twinCtrl (port : Fin 28) (kind : Nat) (data : List Nat)
  /-- R58 -/
  | vaux3On
  /-- R236 -/
  | vaux3Loss
  /-- R58 -/
  | pwrEnRise
  /-- R92 -/
  | pgOutRise
  /-- R59 -/
  | pwrEnFall
  /-- R59 -/
  | railFault
  /-- R92 -/
  | modRstNAssert
  /-- R92 -/
  | modRstNRelease
  /-- R74 -/
  | bypassForceNLow
  /-- R69 -/
  | mctpControlMessage
  /-- R73 -/
  | bundleTransferTimeout
  /-- R236 -/
  | calendarHourlySave
  /-- R107 -/
  | quiesceDone
  /-- R107 -/
  | quiesceTimeout
  /-- R95 -/
  | clockingDone
  /-- R97 -/
  | t2InitDone
  /-- R150 -/
  | invalidationDone
  /-- R190 -/
  | backgroundEviction
  /-- R187 -/
  | stampPatrol
  /-- R193 -/
  | tierCmdDone
  /-- R234 -/
  | syncSendTimer
  /-- R235 -/
  | syncLossTimeout
  /-- R235 -/
  | masterTimeout
  /-- R260 -/
  | tileWriteIncomplete
  /-- R314 -/
  | walkDone
  /-- R394 -/
  | attendDispatch
  /-- R460 -/
  | migCopyDone
  /-- R460 -/
  | migFreezeDone
  /-- R486 -/
  | mergeCommit
  /-- R508 -/
  | fill
  /-- R508 -/
  | copy
  /-- R508 -/
  | compare
  /-- R508 -/
  | reduce
  /-- R515 -/
  | snapshotDone
  /-- R513 -/
  | meterSample
  /-- R533 -/
  | wheelSlotDue
  /-- R571 -/
  | faultHistoryFlush
  /-- R572 -/
  | counterSave
  /-- R583 -/
  | fittingDue
  /-- R598 -/
  | twinHeartbeatSend
  /-- R599 -/
  | twinLinkingTimeout
  /-- R599 -/
  | twinSyncingTimeout
  /-- R600 -/
  | twinHeartbeatTimeout
  /-- R74 -/
  | bypassForceNHigh
  /-- R557 -/
  | freeMapRebuildDone
  deriving DecidableEq, Repr

end Sys2Proof
end

