-- ==== Sys2Proof/Config.lean ====
section
/-!
DEFINITION. What the spec leaves open: constants with no body, so that no proof can rest on a value of one.
Each is named in a row of notes/assumptions.
-/
namespace Sys2Proof.Config

/-- A value the spec does not state: a CCLK cycle counter, an undefined result, data of a line an outside agent owns.
The machine applies it to a counter of State, so that every use is a fresh value (log entry 3). -/
opaque freeValue : Nat → Word

/-- R12: the hash that selects the store cache slice of a line; the spec gives its purpose, not its bits. -/
opaque sliceHash : Nat → Nat

/-- R194: coded length, in units of 64 bytes, of one block the codec codes; a function of the block's bytes and its format. -/
opaque codedUnits : List Byte → Nat → Nat

/-- R345: the vector functions, each within the error bound the spec states, are not stated bit for bit. -/
opaque vecExp : Lane → Lane
opaque vecLog : Lane → Lane
opaque vecRecip : Lane → Lane
opaque vecRsqrt : Lane → Lane

/-- R340: which NaN a vector command writes, and which zero MAX and MIN of +0 and −0 give, are not stated. -/
opaque vecNan : Lane → Lane → Lane
opaque vecZero : Lane → Lane → Bool

/-- FIPS 180-4 SHA-384, an outside standard: 48 bytes of a message. -/
opaque sha384 : List Byte → List Byte

/-- FIPS 186-5 ECDSA P-384 verification, an outside standard: key, message, signature. -/
opaque ecdsaVerify : List Byte → List Byte → List Byte → Bool

/-- The identity key's signature over a message (R588), an outside standard. -/
opaque ecdsaSign : List Byte → List Byte

end Sys2Proof.Config
end

