-- ==== Sys2Proof/Machine/Bits.lean ====
section
/-!
DEFINITION. Bit fields of words, little-endian bytes (R6), cyclic comparison (R51), and sparse tables keyed by number.
-/
namespace Sys2Proof

/-- A 64-bit word holding n modulo 2^64. -/
def w64 (n : Nat) : Word := BitVec.ofNat 64 n

/-- Bits [hi:lo] of a number. -/
def nbits (n hi lo : Nat) : Nat := (n >>> lo) % 2 ^ (hi + 1 - lo)

/-- Field [hi:lo] of a word. -/
def fld (w : Word) (hi lo : Nat) : Nat := nbits w.toNat hi lo

/-- Bit i of a word. -/
def bitOf (w : Word) (i : Nat) : Bool := w.toNat.testBit i

/-- A number as field [hi:lo] of a word, other bits zero. -/
def mkFld (hi lo v : Nat) : Nat := (v % 2 ^ (hi + 1 - lo)) <<< lo

/-- The mask of bits [hi:lo]. -/
def maskOf (hi lo : Nat) : Nat := (2 ^ (hi + 1 - lo) - 1) <<< lo

/-- One bit as a number. -/
def bit01 (b : Bool) : Nat := if b then 1 else 0

/-- The word with field [hi:lo] replaced. -/
def putFld (w : Word) (hi lo v : Nat) : Word :=
  (w &&& ~~~ (w64 (maskOf hi lo))) ||| w64 (mkFld hi lo v)

/-- The word with bit i set or cleared. -/
def putBit (w : Word) (i : Nat) (b : Bool) : Word := putFld w i i (bit01 b)

/-- The k low bytes of a number, least significant first (R6). -/
def bytesLE (k n : Nat) : List Byte :=
  match k with
  | 0 => []
  | j + 1 => BitVec.ofNat 8 n :: bytesLE j (n / 256)

/-- The number that bytes spell, least significant first (R6). -/
def ofBytesLE : List Byte → Nat
  | [] => 0
  | b :: bs => b.toNat + 256 * ofBytesLE bs

/-- k bytes starting at byte off of a list, zero past its end. -/
def sliceBytes (bs : List Byte) (off k : Nat) : List Byte :=
  ((bs.drop off).take k) ++ List.replicate (k - ((bs.drop off).take k).length) 0#8

/-- Field of k bytes at byte off of a record. -/
def leAt (bs : List Byte) (off k : Nat) : Nat := ofBytesLE (sliceBytes bs off k)

/-- The outcome of R51. -/
inductive SerialOrder | equal | after | before | unordered
  deriving DecidableEq, Repr

/-- R51: b compared with a, both class 3 values of n bits. -/
def serialCmp (a b n : Nat) : SerialOrder :=
  let d := (b % 2 ^ n + 2 ^ n - a % 2 ^ n) % 2 ^ n
  if d = 0 then .equal
  else if d = 2 ^ (n - 1) then .unordered
  else if d < 2 ^ (n - 1) then .after else .before

/-- Two's complement reading of an n-bit value. -/
def sextNat (n v : Nat) : Int :=
  let u := v % 2 ^ n
  if u < 2 ^ (n - 1) then (u : Int) else (u : Int) - (2 ^ n : Nat)

/-- An integer as an n-bit two's complement value. -/
def wrapInt (n : Nat) (i : Int) : Nat := (i % ((2 ^ n : Nat) : Int)).toNat

/-- Ceiling division. -/
def ceilDiv (a b : Nat) : Nat := (a + b - 1) / b

/-- A sparse table of things numbered 0, 1, 2 …, sorted by number, no number twice. -/
abbrev Tab (α : Type) := List (Nat × α)

def Tab.get? {α : Type} : Tab α → Nat → Option α
  | [], _ => none
  | (i, a) :: t, k => if i = k then some a else Tab.get? t k

def Tab.getD {α : Type} (t : Tab α) (k : Nat) (d : α) : α := (Tab.get? t k).getD d

def Tab.set {α : Type} : Tab α → Nat → α → Tab α
  | [], k, a => [(k, a)]
  | (i, b) :: t, k, a =>
    if i = k then (k, a) :: t
    else if k < i then (k, a) :: (i, b) :: t
    else (i, b) :: Tab.set t k a

def Tab.erase {α : Type} : Tab α → Nat → Tab α
  | [], _ => []
  | (i, b) :: t, k => if i = k then Tab.erase t k else (i, b) :: Tab.erase t k

/-- Change entry k, reading d where the table lists none. -/
def Tab.modify {α : Type} (t : Tab α) (k : Nat) (d : α) (f : α → α) : Tab α := Tab.set t k (f (Tab.getD t k d))

/-- The list with element i replaced; unchanged where i is past its end. -/
def listSet {α : Type} : List α → Nat → α → List α
  | [], _, _ => []
  | _ :: t, 0, a => a :: t
  | x :: t, i + 1, a => x :: listSet t i a

/-- Element i, or d past the end. -/
def nth {α : Type} (l : List α) (i : Nat) (d : α) : α := l.getD i d

/-- The first element satisfying p, taken out of the list. -/
def takeFirst {α : Type} (p : α → Bool) : List α → Option (α × List α)
  | [] => none
  | x :: t => if p x then some (x, t) else (takeFirst p t).map (fun r => (r.1, x :: r.2))

/-- The numbers lo, lo+1, … n of them. -/
def natRange (lo n : Nat) : List Nat := (List.range n).map (· + lo)

/-- Remove repeats, keeping the first of each. -/
def dedup {α : Type} [DecidableEq α] : List α → List α
  | [] => []
  | x :: t => x :: (dedup t).filter (fun y => decide (y ≠ x))

end Sys2Proof
end

