-- ==== Sys2Proof/Machine/Float.lean ====
section
/-!
DEFINITION. Floating-point values as exact dyadic numbers, and rounding of an exact value to a format (R259, R336 to R345).
-/
namespace Sys2Proof

/-- What the largest exponent code of a format stands for. -/
inductive FloatKind
  /-- infinities and NaNs, as IEEE 754 -/
  | ieee
  /-- one NaN per sign, all exponent and mantissa bits 1; no infinity (E4M3) -/
  | nanOnly
  /-- only numbers (E2M1, E3M2, E2M3) -/
  | finite
  deriving DecidableEq, Repr

structure FloatFmt where
  exp : Nat
  man : Nat
  bias : Nat
  kind : FloatKind
  deriving DecidableEq, Repr

def fp32 : FloatFmt := ⟨8, 23, 127, .ieee⟩
def bf16 : FloatFmt := ⟨8, 7, 127, .ieee⟩
def fp16 : FloatFmt := ⟨5, 10, 15, .ieee⟩
def fp8e4m3 : FloatFmt := ⟨4, 3, 7, .nanOnly⟩
def fp8e5m2 : FloatFmt := ⟨5, 2, 15, .ieee⟩
def fp6e3m2 : FloatFmt := ⟨3, 2, 3, .finite⟩
def fp6e2m3 : FloatFmt := ⟨2, 3, 1, .finite⟩
def fp4e2m1 : FloatFmt := ⟨2, 1, 1, .finite⟩

/-- A value: NaN, an infinity, or ±m·2^e exactly. -/
inductive FVal
  | nan
  | inf (neg : Bool)
  | fin (neg : Bool) (m : Nat) (e : Int)
  deriving DecidableEq, Repr

def FVal.isNan : FVal → Bool
  | .nan => true
  | _ => false

/-- The sign as a number's sign bit; a NaN counts as positive. -/
def FVal.neg : FVal → Bool
  | .nan => false
  | .inf n => n
  | .fin n _ _ => n

/-- The value that bits of a format encode. -/
def FloatFmt.decode (f : FloatFmt) (bits : Nat) : FVal :=
  let m := bits % 2 ^ f.man
  let x := (bits >>> f.man) % 2 ^ f.exp
  let s := bits.testBit (f.man + f.exp)
  let top := decide (x = 2 ^ f.exp - 1)
  let q : Int := (if x = 0 then 1 else (x : Int)) - f.bias - f.man
  let n := if x = 0 then m else m + 2 ^ f.man
  match f.kind with
  | .ieee => if top then (if m = 0 then .inf s else .nan) else .fin s n q
  | .nanOnly => if top && m == 2 ^ f.man - 1 then .nan else .fin s n q
  | .finite => .fin s n q

/-- Rounding of an exact quotient n + r/2^s, to nearest even or down by magnitude. -/
inductive RoundMode | nearestEven | towardZero
  deriving DecidableEq, Repr

def roundShift (mode : RoundMode) (m s : Nat) : Nat :=
  let n := m >>> s
  let r := m % 2 ^ s
  match mode with
  | .towardZero => n
  | .nearestEven =>
    if s = 0 then n
    else if 2 ^ (s - 1) < r then n + 1
    else if r = 2 ^ (s - 1) ∧ n % 2 = 1 then n + 1 else n

/-- m·2^e, m > 0, as a significand and the exponent of its unit in a format with unbounded range above. -/
def roundSig (f : FloatFmt) (mode : RoundMode) (m : Nat) (e : Int) : Nat × Int :=
  let emin : Int := 1 - (f.bias : Int)
  let top : Int := (Nat.log2 m : Int) + e
  let q : Int := (if top < emin then emin else top) - f.man
  let n := if q ≤ e then m <<< (e - q).toNat else roundShift mode m (q - e).toNat
  if n = 2 ^ (f.man + 1) then (2 ^ f.man, q + 1) else (n, q)

/-- The largest finite encoding's exponent and significand fields, without the sign. -/
def FloatFmt.maxFinite (f : FloatFmt) : Nat :=
  match f.kind with
  | .ieee => ((2 ^ f.exp - 1) <<< f.man) - 1
  | .nanOnly => (2 ^ (f.exp + f.man)) - 2
  | .finite => (2 ^ (f.exp + f.man)) - 1

/-- The bits of ±m·2^e without the sign, and whether it lies above the largest finite value after rounding. -/
def FloatFmt.encodeMag (f : FloatFmt) (mode : RoundMode) (m : Nat) (e : Int) : Nat × Bool :=
  if m = 0 then (0, false)
  else
    let r := roundSig f mode m e
    let bits := if r.1 < 2 ^ f.man then r.1
      else (((r.2 + f.man + f.bias).toNat) <<< f.man) + (r.1 - 2 ^ f.man)
    (bits, decide (f.maxFinite < bits))

def FloatFmt.signBit (f : FloatFmt) (neg : Bool) : Nat := bit01 neg <<< (f.exp + f.man)

/-- The infinity of an IEEE format. -/
def FloatFmt.infBits (f : FloatFmt) : Nat := (2 ^ f.exp - 1) <<< f.man

/-- A NaN: the quiet NaN of an IEEE format, all ones below the sign for E4M3. -/
def FloatFmt.nanBits (f : FloatFmt) : Nat :=
  match f.kind with
  | .ieee => ((2 ^ f.exp - 1) <<< f.man) + 2 ^ (f.man - 1)
  | .nanOnly => 2 ^ (f.exp + f.man) - 1
  | .finite => f.maxFinite

/-- Encode with overflow to infinity (IEEE formats), any NaN as the quiet NaN. -/
def FloatFmt.encodeInf (f : FloatFmt) (mode : RoundMode) : FVal → Nat
  | .nan => f.nanBits
  | .inf n => f.signBit n + f.infBits
  | .fin n m e =>
    let r := f.encodeMag mode m e
    f.signBit n + (if r.2 then (if mode = .towardZero then f.maxFinite else f.infBits) else r.1)

/-- An exact signed dyadic number. -/
def signedOf (neg : Bool) (m : Nat) : Int := if neg then -(m : Int) else m

/-- The exact sum; a zero sum is +0 unless both terms are −0 (round to nearest even). -/
def FVal.add : FVal → FVal → FVal
  | .nan, _ => .nan
  | _, .nan => .nan
  | .inf a, .inf b => if a = b then .inf a else .nan
  | .inf a, .fin _ _ _ => .inf a
  | .fin _ _ _, .inf b => .inf b
  | .fin na ma ea, .fin nb mb eb =>
    let e := min ea eb
    let s := signedOf na (ma <<< (ea - e).toNat) + signedOf nb (mb <<< (eb - e).toNat)
    if s = 0 then .fin (na && nb) 0 e else .fin (decide (s < 0)) s.natAbs e

def FVal.flip : FVal → FVal
  | .nan => .nan
  | .inf n => .inf !n
  | .fin n m e => .fin (!n) m e

/-- The exact product. -/
def FVal.mul : FVal → FVal → FVal
  | .nan, _ => .nan
  | _, .nan => .nan
  | .inf a, .inf b => .inf (a != b)
  | .inf a, .fin n m _ => if m = 0 then .nan else .inf (a != n)
  | .fin n m _, .inf b => if m = 0 then .nan else .inf (n != b)
  | .fin na ma ea, .fin nb mb eb => .fin (na != nb) (ma * mb) (ea + eb)

/-- Order of two values that are not NaN: is a < b? Zeros are equal. -/
def FVal.lt : FVal → FVal → Bool
  | .nan, _ => false
  | _, .nan => false
  | .inf a, .inf b => a && !b
  | .inf a, .fin _ _ _ => a
  | .fin _ _ _, .inf b => !b
  | .fin na ma ea, .fin nb mb eb =>
    let e := min ea eb
    decide (signedOf na (ma <<< (ea - e).toNat) < signedOf nb (mb <<< (eb - e).toNat))

/-- R259: FADD32: FP32 sum, round to nearest even, denormals kept, any NaN 0x7FC00000. -/
def fadd32 (a b : Nat) : Nat := fp32.encodeInf .nearestEven ((fp32.decode a).add (fp32.decode b))

end Sys2Proof
end

