-- ==== Sys2Proof/Machine/Formats.lean ====
section
/-!
DEFINITION. Element formats and their packing (R332 to R334), and conversions with the rounding of R342 to R344.
-/
namespace Sys2Proof

/-- R332: bits of an element of a format code; 0 for a code that names no format. -/
def fmtBits (f : Nat) : Nat :=
  if f = 1 then 4 else if f = 2 ∨ f = 3 then 6 else if f = 4 ∨ f = 5 ∨ f = 8 then 8 else if f = 6 ∨ f = 7 then 16
  else if f = 9 then 32 else 0

def fmtOf (f : Nat) : FloatFmt :=
  if f = 1 then fp4e2m1 else if f = 2 then fp6e3m2 else if f = 3 then fp6e2m3 else if f = 4 then fp8e4m3
  else if f = 5 then fp8e5m2 else if f = 6 then bf16 else if f = 7 then fp16 else fp32

/-- R332: MX emax of a format, where it has one. -/
def mxEmax (f : Nat) : Option Nat :=
  if f = 1 then some 2 else if f = 2 then some 4 else if f = 3 then some 2 else if f = 4 then some 8 else if f = 5 then some 15
  else if f = 8 then some 0 else none

/-- R333: bytes of n elements of a format. -/
def fmtBytes (f n : Nat) : Nat := ceilDiv (fmtBits f * n) 8

/-- R333: the bits of element i of a row. -/
def elemBits (f : Nat) (row : List Byte) (i : Nat) : Nat :=
  if f = 1 then nbits (leAt row (i / 2) 1) (4 * (i % 2) + 3) (4 * (i % 2))
  else if f = 2 ∨ f = 3 then nbits (leAt row (3 * (i / 4)) 3) (6 * (i % 4) + 5) (6 * (i % 4))
  else leAt row (i * (fmtBits f / 8)) (fmtBits f / 8)

/-- The value of element bits; INT8 is an integer times 2^scale. -/
def elemVal (f : Nat) (intExp : Int) (bits : Nat) : FVal :=
  if f = 8 then
    let v := sextNat 8 bits
    .fin (decide (v < 0)) v.natAbs intExp
  else (fmtOf f).decode bits

/-- R333: packed bytes of a row of elements. -/
def packElems (f : Nat) (es : List Nat) : List Byte :=
  let w := fmtBits f
  let n := (es.foldr (fun e acc => (e % 2 ^ w) + acc <<< w) 0)
  bytesLE (fmtBytes f es.length) n

/-- R343. -/
def mixRandom (seed ctr : Word) : Word :=
  let z := seed + (ctr + 1) * 0x9E3779B97F4A7C15#64
  let z := (z ^^^ (z >>> 30)) * 0xBF58476D1CE4E5B9#64
  let z := (z ^^^ (z >>> 27)) * 0x94D049BB133111EB#64
  z ^^^ (z >>> 31)

/-- The rounding of R342: to nearest even, toward zero, or stochastic with a drawn value. -/
inductive Rounding | nearest | zero | random (z : Word)
  deriving DecidableEq, Repr

/-- m / 2^s rounded; the first 16 discarded bits decide a stochastic rounding (R343). -/
def shiftRound (r : Rounding) (m s : Nat) : Nat :=
  match r with
  | .nearest => roundShift .nearestEven m s
  | .zero => m >>> s
  | .random z =>
    let d := m % 2 ^ s
    let first := if 16 ≤ s then d >>> (s - 16) else d <<< (16 - s)
    if fld z 63 48 < first then (m >>> s) + 1 else m >>> s

/-- The magnitude bits of m·2^e in a float format under a rounding, saturated at the largest finite value (R342). -/
def satMag (f : FloatFmt) (r : Rounding) (m : Nat) (e : Int) : Nat :=
  if m = 0 then 0
  else
    let emin : Int := 1 - (f.bias : Int)
    let top : Int := (Nat.log2 m : Int) + e
    let q : Int := (if top < emin then emin else top) - f.man
    let n := if q ≤ e then m <<< (e - q).toNat else shiftRound r m (q - e).toNat
    let p : Nat × Int := if n = 2 ^ (f.man + 1) then (2 ^ f.man, q + 1) else (n, q)
    let bits := if p.1 < 2 ^ f.man then p.1 else (((p.2 + f.man + f.bias).toNat) <<< f.man) + (p.1 - 2 ^ f.man)
    min f.maxFinite bits

/-- R342: convert a value to a format code: bits, and whether a NaN was lost. `intExp`: the weight of an INT8 unit. -/
def convert (f : Nat) (intExp : Int) (r : Rounding) (v : FVal) : Nat × Bool :=
  if f = 8 then
    let mag (m : Nat) (e : Int) : Nat :=
      if intExp ≤ e then min 127 (m <<< (e - intExp).toNat) else min 127 (shiftRound r m (intExp - e).toNat)
    match v with
    | .nan => (0, true)
    | .inf n => (wrapInt 8 (if n then -127 else 127), false)
    | .fin n m e => (wrapInt 8 (signedOf n (mag m e)), false)
  else
    let g := fmtOf f
    match v with
    | .nan => if g.kind = .finite then (0, true) else (g.nanBits, false)
    | .inf n => (g.signBit n + g.maxFinite, false)
    | .fin n m e => (g.signBit n + satMag g r m e, false)

/-- R343: does converting between formats round? A conversion from a narrower format is exact. -/
def roundsTo (sf df : Nat) : Bool := decide (fmtBits df < fmtBits sf ∨ (fmtBits df = fmtBits sf ∧ sf ≠ df))

end Sys2Proof
end

