-- ==== Sys2Proof/Machine/Lanes.lean ====
section
/-!
DEFINITION. FP32 lanes: the elementwise functions of R340 and the reduction of R341.
-/
namespace Sys2Proof.Machine

/-- FP32 element i of scratchpad bytes. -/
def laneAt (bs : List Byte) (i : Nat) : Lane := BitVec.ofNat 32 (leAt bs (4 * i) 4)

def laneVal (x : Lane) : FVal := fp32.decode x.toNat

/-- An FP32 result, round to nearest even; a NaN is one whose bits are not stated (log entry 15). -/
def laneOf (a b : Lane) (v : FVal) : Lane :=
  if v.isNan then 0x7F800001#32 ||| (Config.vecNan a b &&& 0x807FFFFF#32)
  else BitVec.ofNat 32 (fp32.encodeInf .nearestEven v)

/-- MAX or MIN: a NaN operand gives the other operand. -/
def laneMax (larger : Bool) (a b : Lane) : Lane :=
  let x := laneVal a
  let y := laneVal b
  if x.isNan && y.isNan then laneOf a b .nan
  else if x.isNan then b
  else if y.isNan then a
  else if x.lt y then (if larger then b else a)
  else if y.lt x then (if larger then a else b)
  else if a = b then a
  else if Config.vecZero a b then a else b

/-- R340: the elementwise functions: VFUNC, a, b, d, x. -/
def laneFn (fn : Nat) (a b d x : Lane) : Lane :=
  if fn = 0 then laneOf a b ((laneVal a).add (laneVal b))
  else if fn = 1 then laneOf a b ((laneVal a).add (laneVal b).flip)
  else if fn = 2 then laneOf a b ((laneVal a).mul (laneVal b))
  else if fn = 3 then laneOf a b (((laneVal a).mul (laneVal b)).add (laneVal d))
  else if fn = 4 then laneMax true a b
  else if fn = 5 then laneMax false a b
  else if fn = 6 then Config.vecExp a
  else if fn = 7 then Config.vecLog a
  else if fn = 8 then Config.vecRecip a
  else if fn = 9 then Config.vecRsqrt a
  else if fn = 0x0A then laneOf a x ((laneVal a).add (laneVal x))
  else laneOf a x ((laneVal a).mul (laneVal x))

/-- R341: combine lane results pairwise. -/
def pairUp (f : Lane → Lane → Lane) : List (Option Lane) → List (Option Lane)
  | a :: b :: t =>
    (match a, b with
     | some x, some y => some (f x y)
     | some x, none => some x
     | none, y => y) :: pairUp f t
  | l => l

/-- R341: the reduction of L elements over 64 lanes. -/
def reduceLanes (f : Lane → Lane → Lane) (empty : Option Lane) (xs : List Lane) : Lane :=
  let lane (l : Nat) : Option Lane :=
    ((List.range xs.length).filter (fun i => i % 64 == l)).foldl (fun acc i =>
      match acc with
      | none => some (nth xs i 0)
      | some v => some (f v (nth xs i 0))) none
  let lanes := (List.range 64).map (fun l => match lane l with | none => empty | some v => some v)
  let step := pairUp f
  (nth (step (step (step (step (step (step lanes)))))) 0 none).getD 0

def laneAdd (a b : Lane) : Lane := laneOf a b ((laneVal a).add (laneVal b))
def laneSub (a b : Lane) : Lane := laneOf a b ((laneVal a).add (laneVal b).flip)
def laneMul (a b : Lane) : Lane := laneOf a b ((laneVal a).mul (laneVal b))

end Sys2Proof.Machine
end

