-- ==== Sys2Proof/Machine/RegMap.lean ====
section
/-!
DEFINITION. BAR0: the page map (R24) and the registers of every page, with their writable fields and reset values,
written from the register tables of the spec's chapters. A reset the spec gives as "per bundle", "per profile",
"per layout", "per Armoire" or "per bring-up" stands as 0 here until bring-up loads it (log entry 2).
-/
namespace Sys2Proof

/-- The blocks of the page map, R24. -/
inductive Blk
  | dev | time | port | cxlp | switch | mirror | scache | coh | hbmc | ddrc | tier | codec | stu | cursor | cloak
  | emb | search | pool | shape | meter | pigeonCtl | pigeonhole | core | bench | ras | armoire | fitting | sec
  | bringup | defect | twin | ring
  deriving DecidableEq, Repr

/-- One row of the page map: first page, instances, pages per instance, ID.TYPE. -/
structure PageRow where
  blk : Blk
  first : Nat
  instances : Nat
  per : Nat
  typ : Nat
  deriving DecidableEq, Repr

/-- R24. -/
def pageMap : List PageRow :=
  [⟨.dev, 0x0000, 1, 1, 0x01⟩, ⟨.time, 0x0001, 1, 1, 0x02⟩, ⟨.port, 0x0010, 28, 1, 0x03⟩, ⟨.cxlp, 0x0030, 2, 1, 0x04⟩,
   ⟨.switch, 0x0040, 1, 8, 0x05⟩, ⟨.mirror, 0x0048, 1, 1, 0x06⟩, ⟨.scache, 0x0050, 16, 1, 0x07⟩,
   ⟨.coh, 0x0060, 1, 1, 0x08⟩, ⟨.hbmc, 0x0070, 8, 1, 0x09⟩, ⟨.ddrc, 0x0078, 16, 1, 0x0A⟩,
   ⟨.tier, 0x0090, 1, 1, 0x0B⟩, ⟨.codec, 0x0098, 1, 1, 0x0C⟩, ⟨.stu, 0x00A0, 1, 4, 0x0D⟩,
   ⟨.cursor, 0x00B0, 1, 1, 0x0E⟩, ⟨.cloak, 0x00B8, 1, 1, 0x0F⟩, ⟨.emb, 0x00C0, 1, 1, 0x10⟩,
   ⟨.search, 0x00C8, 1, 1, 0x11⟩, ⟨.pool, 0x00D0, 1, 1, 0x12⟩, ⟨.shape, 0x00D8, 1, 1, 0x13⟩,
   ⟨.meter, 0x00E0, 1, 1, 0x14⟩, ⟨.pigeonCtl, 0x00F0, 1, 1, 0x15⟩, ⟨.pigeonhole, 0x0100, 64, 1, 0x16⟩,
   ⟨.core, 0x0200, 64, 1, 0x17⟩, ⟨.bench, 0x0240, 8, 1, 0x18⟩, ⟨.ras, 0x0300, 1, 1, 0x19⟩,
   ⟨.armoire, 0x0310, 1, 1, 0x1A⟩, ⟨.fitting, 0x0318, 1, 1, 0x1B⟩, ⟨.sec, 0x0320, 1, 1, 0x1C⟩,
   ⟨.bringup, 0x0330, 1, 1, 0x1D⟩, ⟨.defect, 0x0338, 1, 1, 0x1E⟩, ⟨.twin, 0x0340, 1, 1, 0x1F⟩,
   ⟨.ring, 0x0348, 1, 1, 0x20⟩]

/-- What the page map says of one page: its block, instance, subpage and type code. -/
structure PageInfo where
  blk : Blk
  inst : Nat
  sub : Nat
  typ : Nat
  deriving DecidableEq, Repr

/-- R24, R25: the block a page belongs to; none for a page the map does not list. -/
def pageInfo (page : Nat) : Option PageInfo :=
  (pageMap.find? (fun r => decide (r.first ≤ page ∧ page < r.first + r.instances * r.per))).map
    (fun r => ⟨r.blk, (page - r.first) / r.per, (page - r.first) % r.per, r.typ⟩)

/-- The page of instance i, subpage s of a block (R24). -/
def pageOf (b : Blk) (i : Nat) (s : Nat) : Nat :=
  match pageMap.find? (fun r => decide (r.blk = b)) with
  | some r => r.first + i * r.per + s
  | none => 0

/-- A register of a block's page, or an array of n of them, `stride` bytes apart. -/
structure RegDef where
  name : String
  blk : Blk
  sub : Nat
  off : Nat
  n : Nat
  stride : Nat
  /-- bytes: 4 or 8 -/
  width : Nat
  /-- fields that read back what was written -/
  rw : List (Nat × Nat)
  /-- fields cleared by writing 1 -/
  w1c : List (Nat × Nat)
  reset : Nat
  /-- named open by its chapter: R43 -/
  isOpen : Bool
  deriving DecidableEq, Repr

def masks (l : List (Nat × Nat)) : Nat := l.foldl (fun m f => m ||| maskOf f.1 f.2) 0

/-- A single register. -/
def rg (name : String) (b : Blk) (off width : Nat) (rw : List (Nat × Nat)) (reset : Nat := 0)
    (w1c : List (Nat × Nat) := []) (sub : Nat := 0) (isOpen : Bool := false) : RegDef :=
  ⟨name, b, sub, off, 1, 8, width, rw, w1c, reset, isOpen⟩

/-- An array of registers. -/
def ra (name : String) (b : Blk) (off n stride width : Nat) (rw : List (Nat × Nat)) (reset : Nat := 0) : RegDef :=
  ⟨name, b, 0, off, n, stride, width, rw, [], reset, false⟩

/-- R30: the header, the same on every page; the block and subpage given here are not looked at. -/
def headerRegs : List RegDef :=
  [rg "ID" .dev 0x000 4 [], rg "VERSION" .dev 0x004 4 [], rg "CAPS" .dev 0x008 8 [],
   rg "CTRL" .dev 0x010 4 [(31, 16), (1, 0)], rg "STATUS" .dev 0x014 4 [],
   rg "ERR_STATUS" .dev 0x018 4 [] 0 [(31, 16), (4, 0)], rg "ERR_MASK" .dev 0x01C 4 [(31, 16), (4, 0)],
   rg "ERR_FIRST" .dev 0x020 8 [] 0 [(63, 62)], rg "ERR_INJECT" .dev 0x028 8 [(63, 32), (4, 0)],
   rg "IRQ_ROUTE" .dev 0x030 8 [(49, 32), (14, 8), (5, 0)], rg "OWNER" .dev 0x038 8 [(25, 4), (2, 0)]]

/-- Chapters 02 to 04: DEV, RING (bypass part), BRINGUP, DEFECT. -/
def regsA : List RegDef :=
  [rg "DEV_PART" .dev 0x040 8 [] 0x31424138344D4B56, rg "DEV_SERIAL" .dev 0x048 8 [], rg "DEV_MODULE_ID" .dev 0x050 4 [],
   rg "DEV_LAST_DENY" .dev 0x058 8 [],
   rg "RING_CTRL" .ring 0x040 4 [(3, 3), (1, 0)], rg "RING_PATH" .ring 0x048 4 [], rg "RING_NEIGHBOUR" .ring 0x050 8 [],
   rg "RING_RXPWR" .ring 0x058 4 [] 0x80808080, rg "RING_RXPWR_MIN" .ring 0x05C 4 [(7, 0)] 0xD8,
   rg "BRINGUP_CTRL" .bringup 0x040 4 [], rg "BRINGUP_STATUS" .bringup 0x044 4 [], rg "BRINGUP_UNITS" .bringup 0x048 8 [],
   rg "BRINGUP_PROFILE" .bringup 0x050 4 [(5, 0)], rg "BRINGUP_PROFILE_ACTIVE" .bringup 0x054 4 [],
   rg "BRINGUP_T2_INIT" .bringup 0x058 8 [], rg "BRINGUP_ELAPSED" .bringup 0x060 4 [],
   rg "DEFECT_CTRL" .defect 0x040 4 [], rg "DEFECT_COUNT" .defect 0x044 4 [], rg "DEFECT_INDEX" .defect 0x048 4 [(9, 0)],
   rg "DEFECT_ENTRY" .defect 0x050 8 [], rg "DEFECT_STAGE" .defect 0x058 8 [(63, 0)],
   ra "DEFECT_CORE_MAP" .defect 0x080 8 8 8 [], rg "DEFECT_BENCH_MAP" .defect 0x0C0 8 []]

/-- Chapters 05 and 06: STU, TIER, CODEC, HBMC, DDRC. -/
def regsB : List RegDef :=
  [rg "STU_CFG" .stu 0x040 4 [(15, 4), (0, 0)] 0x0881, rg "STU_TENANT_BASE" .stu 0x048 8 [(45, 16)],
   rg "STU_FAULT_W0" .stu 0x050 8 [], rg "STU_FAULT_W1" .stu 0x058 8 [], rg "STU_FAULT_CTRL" .stu 0x060 4 [],
   rg "STU_INV_ADDR" .stu 0x040 8 [(56, 0)] 0 [] 1, rg "STU_INV_CMD" .stu 0x048 8 [] 0 [] 1,
   rg "STU_INV_STATUS" .stu 0x050 8 [] 0 [] 1, rg "STU_EVENT" .stu 0x058 4 [] 0 [(0, 0)] 1,
   rg "STU_EVENT_MASK" .stu 0x05C 4 [(0, 0)] 0 [] 1,
   rg "STU_PREWALK_ADDR" .stu 0x040 8 [(56, 0)] 0 [] 2, rg "STU_PREWALK_CMD" .stu 0x048 8 [] 0 [] 2,
   rg "TIER_CFG" .tier 0x040 4 [(31, 24), (17, 0)] 0x100303E8, rg "TIER_FREE_TARGET" .tier 0x044 4 [(23, 0)] 4096,
   rg "TIER_POOL" .tier 0x048 8 [], rg "TIER_T2_TOTAL" .tier 0x050 8 [], rg "TIER_T2_FREE" .tier 0x058 8 [],
   ra "TIER_CLASS_LIMIT" .tier 0x080 8 16 8 [(55, 32), (23, 0)], ra "TIER_CLASS_USED" .tier 0x088 8 16 8 [],
   ra "TIER_AGE_LIMIT" .tier 0x100 8 4 4 [(31, 0)], rg "TIER_CMD_TILE" .tier 0x140 8 [(63, 48), (28, 0)],
   rg "TIER_CMD" .tier 0x148 4 [], rg "TIER_CMD_STATUS" .tier 0x150 8 [], rg "TIER_EVENT" .tier 0x160 4 [] 0 [(2, 0)],
   rg "TIER_EVENT_MASK" .tier 0x164 4 [(2, 0)], ra "TIER_HDR" .tier 0x180 16 8 8 [],
   rg "CODEC_CFG" .codec 0x040 4 [(10, 0)] 0x0710,
   rg "HBMC_INFO" .hbmc 0x040 4 [] 0x501900, rg "HBMC_TEMP" .hbmc 0x044 4 [], rg "HBMC_ECC_LAST" .hbmc 0x080 8 [],
   rg "DDRC_INFO" .ddrc 0x040 8 [], rg "DDRC_TEMP" .ddrc 0x048 4 [], rg "DDRC_ECC_LAST" .ddrc 0x080 8 []]

/-- Chapter 07: CURSOR, TIME. -/
def regsC : List RegDef :=
  [rg "CURSOR_CFG" .cursor 0x040 4 [(31, 24), (16, 0)] 0x40000400, rg "CURSOR_SEL" .cursor 0x044 4 [(5, 0)],
   rg "CURSOR_DEF" .cursor 0x048 8 [(63, 48), (43, 0)], rg "CURSOR_BIND" .cursor 0x050 8 [(25, 4), (2, 0)],
   rg "CURSOR_POS" .cursor 0x058 8 [], rg "CURSOR_CMD" .cursor 0x060 4 [],
   rg "CURSOR_ADVANCE" .cursor 0x080 8 [] 0 [] 0 true, ra "CURSOR_DW" .cursor 0x0A0 4 8 8 [(63, 0)],
   rg "CURSOR_DRAWER_CMD" .cursor 0x0C0 4 [], rg "CURSOR_DRAWER_STATUS" .cursor 0x0C4 4 [],
   rg "CURSOR_REPORT_W0" .cursor 0x0D0 8 [], rg "CURSOR_REPORT_W1" .cursor 0x0D8 8 [],
   rg "CURSOR_REPORT_CTRL" .cursor 0x0E0 4 [], rg "CURSOR_EVENT" .cursor 0x0E8 4 [] 0 [(2, 0)],
   rg "CURSOR_EVENT_MASK" .cursor 0x0EC 4 [(2, 0)],
   rg "DEV_TIME" .time 0x040 8 [], rg "TIME_CFG" .time 0x048 4 [(1, 0)], rg "TIME_STATUS" .time 0x04C 4 [] 0x00FF0000,
   rg "TIME_OFFSET" .time 0x050 4 [], rg "TIME_CAL" .time 0x058 8 [], rg "TIME_POH" .time 0x060 8 []]

/-- Chapter 08: PORT, SWITCH, MIRROR, RING (forwarding part). -/
def regsD : List RegDef :=
  [rg "PORT_CFG" .port 0x040 4 [(1, 0)] 1, rg "PORT_LANE_MAP" .port 0x048 4 [], rg "PORT_PARTNER" .port 0x050 4 [],
   rg "PORT_BIND" .port 0x058 8 [(33, 16), (11, 0)] 0xC00000,
   rg "SWITCH_CFG" .switch 0x040 4 [(15, 8), (2, 0)] 0x2007, rg "SWITCH_DEAD_BOUND" .switch 0x044 4 [(16, 0)] 500,
   rg "SWITCH_SHARE" .switch 0x048 4 [(6, 0)] 16, rg "SWITCH_CM_THRESH" .switch 0x04C 4 [(19, 0)] 8192,
   rg "SWITCH_TC_WEIGHT" .switch 0x050 8 [(55, 0)] 0x01010101010101, rg "SWITCH_BUF" .switch 0x058 8 [] 1014784,
   ⟨"SWITCH_OCC", .switch, 1, 0x040, 32, 4, 4, [], [], 0, false⟩,
   rg "SWITCH_DEAD_W0" .switch 0x060 8 [], rg "SWITCH_DEAD_W1" .switch 0x068 8 [],
   rg "MIRROR_CFG" .mirror 0x040 4 [(15, 8), (1, 0)] 0x4000, rg "MIRROR_BASE" .mirror 0x048 8 [(45, 16)],
   rg "MIRROR_SIZE" .mirror 0x050 4 [(4, 0)], rg "MIRROR_WPTR" .mirror 0x058 8 [],
   ra "MIRROR_FILTER" .mirror 0x080 16 8 8 [(63, 0)], ra "MIRROR_POINT" .mirror 0x100 4 8 8 [(63, 0)],
   ra "MIRROR_SAMPLE" .mirror 0x120 4 4 4 [(31, 31), (4, 0)],
   rg "RING_FEATURE_FLOOR" .ring 0x100 4 [(3, 0)] 0x200, rg "RING_CFG" .ring 0x104 4 [(8, 8), (5, 0)] 0x130,
   rg "RING_ROUTE_SEL" .ring 0x108 4 [(9, 0)], rg "RING_ROUTE" .ring 0x10C 4 [(31, 31), (6, 0)]]

/-- Chapters 09 and 10: COH, SCACHE, CORE, bench. -/
def regsE : List RegDef :=
  [rg "COH_CFG" .coh 0x040 4 [(31, 16), (1, 0)] 0x00640003, rg "COH_LEASE_BASE" .coh 0x048 8 [(45, 16)],
   rg "COH_WALK" .coh 0x050 8 [], rg "COH_LOST_W0" .coh 0x058 8 [], rg "COH_LOST_W1" .coh 0x060 8 [],
   rg "COH_LEASE_RANGE" .coh 0x068 8 [(63, 48), (28, 0)], rg "COH_LEASE_DEF" .coh 0x070 4 [],
   rg "COH_LEASE_CMD" .coh 0x078 8 [] 0 [] 0 true, rg "COH_EVENT" .coh 0x0F0 4 [] 0 [(1, 0)],
   rg "COH_EVENT_MASK" .coh 0x0F4 4 [(1, 0)], ra "COH_AGENT" .coh 0x100 32 8 8 [(25, 8), (0, 0)],
   rg "SCACHE_INFO" .scache 0x040 4 [], rg "SCACHE_FILTER" .scache 0x048 4 [], rg "SCACHE_BUSY" .scache 0x04C 4 [],
   rg "SCACHE_ECC_LAST" .scache 0x080 8 [],
   rg "CORE_INFO" .core 0x040 4 [], rg "CORE_CFG" .core 0x044 4 [(31, 16), (1, 0)] 2, rg "CORE_CTX_SEL" .core 0x048 4 [(2, 0)],
   rg "CORE_CTX_BIND" .core 0x050 8 [(44, 16), (0, 0)], rg "CORE_CTX_ENTRY" .core 0x058 4 [(12, 0)],
   ra "CORE_CTX_ARG" .core 0x060 4 8 8 [(63, 0)], rg "CORE_CTX_SEED" .core 0x080 8 [(63, 0)],
   rg "CORE_CTX_SRC" .core 0x088 8 [(63, 0)], rg "CORE_CTX_CMD" .core 0x090 4 [], rg "CORE_CTX_STATUS" .core 0x098 8 [],
   rg "CORE_PAT_SRC" .core 0x0A0 8 [(56, 0)], rg "CORE_PAT_CMD" .core 0x0A8 4 [], rg "CORE_PAT_CRC" .core 0x0AC 4 [(31, 0)],
   rg "CORE_PAT_STATUS" .core 0x0B0 4 [], rg "CORE_FAULT_W0" .core 0x0C0 8 [], rg "CORE_FAULT_W1" .core 0x0C8 8 [],
   rg "CORE_FAULT_CTRL" .core 0x0D0 4 [], rg "CORE_EVENT" .core 0x0E0 4 [] 0 [(17, 0)],
   rg "CORE_EVENT_MASK" .core 0x0E4 4 [(17, 0)], ra "CORE_SREG" .core 0x108 31 8 8 [],
   ra "CORE_SEM" .core 0x400 64 4 4 [(31, 0)],
   rg "CORE_BENCH_INFO" .bench 0x040 4 [], rg "CORE_BENCH_CMD" .bench 0x044 4 []]

/-- Chapters 13 to 15: CLOAK, EMB, SEARCH. -/
def regsF : List RegDef :=
  [rg "CLOAK_CFG" .cloak 0x040 8 [(63, 32), (8, 0)] 0x0010000000000140, rg "CLOAK_HANDOVER_TIMEOUT" .cloak 0x048 4 [(23, 0)] 10000,
   rg "CLOAK_TABLE_BASE" .cloak 0x050 8 [(45, 16)], rg "CLOAK_MIRROR_BASE" .cloak 0x058 8 [(45, 16)],
   rg "CLOAK_ARENA" .cloak 0x060 8 [(60, 32), (28, 0)], rg "CLOAK_ARENA_FREE" .cloak 0x068 8 [], rg "CLOAK_USE" .cloak 0x070 8 [],
   rg "CLOAK_FM_TICKET" .cloak 0x080 8 [(63, 0)], rg "CLOAK_FM_AGENT" .cloak 0x088 4 [(17, 0)],
   rg "CLOAK_FM_CMD" .cloak 0x08C 4 [], rg "CLOAK_FM_STATUS" .cloak 0x090 4 [], rg "CLOAK_EVENT" .cloak 0x0F0 4 [] 0 [(2, 0)],
   rg "CLOAK_EVENT_MASK" .cloak 0x0F4 4 [(2, 0)], ra "CLOAK_SVC" .cloak 0x200 64 4 4 [(31, 31), (9, 0)],
   rg "EMB_TABLE_BASE" .emb 0x040 8 [(45, 15)], rg "EMB_TABLE_CMD" .emb 0x048 4 [], rg "EMB_TABLE_STATUS" .emb 0x04C 4 [],
   rg "EMB_MIG" .emb 0x050 8 [(33, 0)], rg "EMB_MIG_CMD" .emb 0x058 4 [], rg "EMB_MIG_STATUS" .emb 0x05C 4 [],
   rg "EMB_EVENT" .emb 0x060 4 [] 0 [(2, 0)], rg "EMB_EVENT_MASK" .emb 0x064 4 [(2, 0)],
   rg "SEARCH_INDEX_BASE" .search 0x040 8 [(45, 13)], rg "SEARCH_INDEX_CMD" .search 0x048 4 [],
   rg "SEARCH_INDEX_STATUS" .search 0x04C 4 [], rg "SEARCH_MERGE_CMD" .search 0x050 4 [],
   rg "SEARCH_MERGE_STATUS" .search 0x058 8 [], rg "SEARCH_EVENT" .search 0x060 4 [] 0 [(1, 0)],
   rg "SEARCH_EVENT_MASK" .search 0x064 4 [(1, 0)]]

/-- Chapters 16 and 17: CXLP, POOL, METER, PIGEON, SHAPE. -/
def regsG : List RegDef :=
  [rg "CXLP_LINK" .cxlp 0x040 4 [], rg "CXLP_CFG" .cxlp 0x044 4 [(0, 0)] 1,
   rg "CXLP_DEVLOAD" .cxlp 0x048 4 [(29, 0)] 0x10010010, rg "CXLP_LD_SEL" .cxlp 0x04C 4 [(3, 0)],
   rg "CXLP_LD" .cxlp 0x050 8 [(63, 63), (43, 32), (7, 0)], rg "CXLP_EXT_SEL" .cxlp 0x058 4 [(11, 0)],
   rg "CXLP_EXT_W0" .cxlp 0x060 8 [], rg "CXLP_EXT_W1" .cxlp 0x068 8 [], rg "CXLP_DRAIN_LAST" .cxlp 0x070 8 [],
   rg "CXLP_DROP_W0" .cxlp 0x078 8 [], rg "CXLP_DROP_W1" .cxlp 0x080 8 [], rg "CXLP_EVENT" .cxlp 0x0F0 4 [] 0 [(1, 0)],
   rg "CXLP_EVENT_MASK" .cxlp 0x0F4 4 [(1, 0)],
   rg "POOL_CFG" .pool 0x040 4 [(7, 0)] 32, rg "POOL_SUBMIT" .pool 0x048 8 [] 0 [] 0 true,
   rg "POOL_ABORT" .pool 0x050 8 [] 0 [] 0 true, rg "POOL_QUEUE" .pool 0x058 4 [], rg "POOL_DROP_W0" .pool 0x060 8 [],
   rg "POOL_DROP_W1" .pool 0x068 8 [],
   rg "METER_SEL" .meter 0x040 4 [(11, 0)], ra "METER_VAL" .meter 0x048 8 8 8 [], rg "METER_CMD" .meter 0x088 4 [],
   rg "METER_SNAP_BASE" .meter 0x090 8 [(45, 16)], rg "METER_SNAP_STATUS" .meter 0x098 8 [],
   rg "METER_EVENT" .meter 0x0A0 4 [] 0 [(0, 0)], rg "METER_EVENT_MASK" .meter 0x0A4 4 [(0, 0)],
   rg "PIGEON_NONEMPTY" .pigeonCtl 0x040 8 [], rg "PIGEON_CLEAR" .pigeonCtl 0x048 4 [],
   rg "PIGEON_CFG" .pigeonhole 0x040 4 [(31, 31), (27, 16), (0, 0)], rg "PIGEON_SEND0" .pigeonhole 0x048 8 [] 0 [] 0 true,
   rg "PIGEON_SEND1" .pigeonhole 0x050 8 [] 0 [] 0 true, rg "PIGEON_FLUSH" .pigeonhole 0x058 4 [] 0 [] 0 true,
   rg "PIGEON_DEPTH" .pigeonhole 0x060 4 [], rg "PIGEON_HEAD0_WORD" .pigeonhole 0x068 8 [],
   rg "PIGEON_HEAD0_STAMP" .pigeonhole 0x070 8 [], rg "PIGEON_HEAD1_WORD" .pigeonhole 0x078 8 [],
   rg "PIGEON_HEAD1_STAMP" .pigeonhole 0x080 8 [], rg "PIGEON_POP" .pigeonhole 0x088 4 [],
   rg "PIGEON_DROP_WORD" .pigeonhole 0x090 8 [], rg "PIGEON_DROP_STAMP" .pigeonhole 0x098 8 [],
   rg "PIGEON_EVENT" .pigeonhole 0x0A0 4 [] 0 [(1, 0)], rg "PIGEON_EVENT_MASK" .pigeonhole 0x0A4 4 [(1, 0)],
   rg "SHAPE_SEL" .shape 0x040 4 [(7, 0)], rg "SHAPE_CFG" .shape 0x044 4 [(31, 30), (15, 0)] 80,
   rg "SHAPE_RATE" .shape 0x048 8 [(47, 0)], rg "SHAPE_BURST" .shape 0x050 4 [(23, 0)] 65536,
   rg "SHAPE_STATE" .shape 0x058 8 [], rg "SHAPE_CSTATE" .shape 0x060 4 [],
   ra "SHAPE_PORT_MAP" .shape 0x100 28 4 4 [(31, 31), (7, 0)]]

/-- Chapters 18 to 20: RAS, ARMOIRE, FITTING, SEC, TWIN. -/
def regsH : List RegDef :=
  [rg "RAS_CFG" .ras 0x040 4 [(31, 16), (3, 0)] 0x1018000F, rg "RAS_SCRUB" .ras 0x044 4 [(31, 0)] 0x00180018,
   rg "RAS_FENCE" .ras 0x048 4 [], rg "RAS_HIST_COUNT" .ras 0x04C 4 [], rg "RAS_HIST_SEL" .ras 0x050 4 [(11, 0)],
   rg "RAS_HIST_W0" .ras 0x058 8 [], rg "RAS_HIST_W1" .ras 0x060 8 [], rg "RAS_LAST_UE" .ras 0x068 8 [],
   rg "RAS_INJECT_ADDR" .ras 0x070 8 [(55, 0)], rg "RAS_INJECT_CMD" .ras 0x078 4 [], rg "RAS_EVENT" .ras 0x0F0 4 [] 0 [(3, 0)],
   rg "RAS_EVENT_MASK" .ras 0x0F4 4 [(3, 0)],
   rg "ARMOIRE_INFO" .armoire 0x040 4 [], rg "ARMOIRE_BUNDLE" .armoire 0x048 8 [], rg "ARMOIRE_REGION_SEL" .armoire 0x050 4 [(3, 0)],
   rg "ARMOIRE_REGION" .armoire 0x058 8 [], rg "ARMOIRE_EVENT" .armoire 0x060 4 [] 0 [(0, 0)],
   rg "ARMOIRE_EVENT_MASK" .armoire 0x064 4 [(0, 0)],
   rg "FITTING_CFG" .fitting 0x040 4 [(31, 19), (15, 8), (0, 0)] 0x1E181401, rg "FITTING_CMD" .fitting 0x044 4 [],
   rg "FITTING_STATUS" .fitting 0x048 8 [], rg "FITTING_NEXT" .fitting 0x050 8 [], rg "FITTING_AGE" .fitting 0x058 4 [],
   rg "FITTING_MON_SEL" .fitting 0x060 4 [(7, 0)], rg "FITTING_MON" .fitting 0x068 8 [],
   rg "FITTING_EVENT" .fitting 0x070 4 [] 0 [(2, 0)], rg "FITTING_EVENT_MASK" .fitting 0x074 4 [(2, 0)],
   rg "SEC_STATUS" .sec 0x040 4 [], ra "SEC_OWNER_DIGEST" .sec 0x048 6 8 8 [], ra "SEC_BUNDLE_DIGEST" .sec 0x080 6 8 8 [],
   ra "SEC_CHAIN_DIGEST" .sec 0x0C0 6 8 8 [],
   rg "TWIN_CFG" .twin 0x040 4 [(31, 30), (27, 24), (15, 0)] 0x04000014, rg "TWIN_STATUS" .twin 0x044 4 [],
   rg "TWIN_PARTNER" .twin 0x048 8 [], rg "TWIN_EVENT" .twin 0x050 4 [] 0 [(1, 0)], rg "TWIN_EVENT_MASK" .twin 0x054 4 [(1, 0)]]

/-- The registers of a block's chapter. -/
def blockRegs (b : Blk) : List RegDef :=
  match b with
  | .dev | .ring | .bringup | .defect =>
    (regsA ++ regsD).filter (fun d => decide (d.blk = b))
  | .stu | .tier | .codec | .hbmc | .ddrc => regsB.filter (fun d => decide (d.blk = b))
  | .cursor | .time => regsC.filter (fun d => decide (d.blk = b))
  | .port | .switch | .mirror => regsD.filter (fun d => decide (d.blk = b))
  | .coh | .scache | .core | .bench => regsE.filter (fun d => decide (d.blk = b))
  | .cloak | .emb | .search => regsF.filter (fun d => decide (d.blk = b))
  | .cxlp | .pool | .meter | .pigeonCtl | .pigeonhole | .shape => regsG.filter (fun d => decide (d.blk = b))
  | .ras | .armoire | .fitting | .sec | .twin => regsH.filter (fun d => decide (d.blk = b))

/-- Does offset off fall in register d, and in which element, at which byte? -/
def RegDef.hit (d : RegDef) (off : Nat) : Option (Nat × Nat) :=
  if off < d.off then none
  else
    let k := (off - d.off) / d.stride
    let r := (off - d.off) % d.stride
    if k < d.n ∧ r < d.width then some (k, r) else none

/-- A register reached by an offset: its definition, element, and the byte within it. -/
structure RegHit where
  reg : RegDef
  k : Nat
  byte : Nat
  deriving DecidableEq, Repr

def findReg (off : Nat) : List RegDef → Option RegHit
  | [] => none
  | d :: ds =>
    match d.hit off with
    | some (k, r) => some ⟨d, k, r⟩
    | none => findReg off ds

/-- R25, R26: the register that a page's offset reaches, header or block control; none where neither defines it. -/
def regAt (p : PageInfo) (off : Nat) : Option RegHit :=
  if off < 0x40 then findReg off headerRegs
  else if off < 0x800 then findReg off ((blockRegs p.blk).filter (fun d => decide (d.sub = p.sub)))
  else none

/-- Counter classes of R48 by slot, from each chapter's counter table; 0 where the slot is not in use. -/
def counterClass (p : PageInfo) (slot : Nat) : Nat :=
  match p.blk with
  | .ring => if slot = 0 then 2 else if slot ≤ 2 then 1 else if 16 ≤ slot ∧ slot ≤ 19 then 1 else 0
  | .bringup => if slot ≤ 1 then 2 else if slot ≤ 3 then 1 else 0
  | .stu => if p.sub = 3 ∧ slot ≤ 8 then 1 else 0
  | .tier => if slot ≤ 8 then 1 else if slot = 9 then 2 else 0
  | .codec => if slot ≤ 5 then 1 else 0
  | .hbmc => if slot ≤ 2 then 1 else if 16 ≤ slot ∧ slot ≤ 18 then 1 else if slot = 19 then 2 else 0
  | .ddrc => if slot ≤ 2 then 1 else if 16 ≤ slot ∧ slot ≤ 18 then 1 else if slot = 19 then 2 else 0
  | .scache => if slot ≤ 10 then 1 else if 16 ≤ slot ∧ slot ≤ 18 then 1 else if slot = 19 then 2 else 0
  | .cursor => if slot ≤ 8 then 1 else 0
  | .port => if slot ≤ 10 then 1 else if slot = 11 then 2 else if 16 ≤ slot ∧ slot ≤ 23 then 1 else 0
  | .switch => if p.sub = 0 ∧ slot ≤ 6 then 1 else 0
  | .mirror => if slot ≤ 1 then 1 else 0
  | .coh => if slot ≤ 6 then 1 else 0
  | .core => if slot ≤ 11 then 1 else if slot = 12 then 2 else 0
  | .cloak => if slot ≤ 12 then 1 else if slot = 13 then 2 else 0
  | .emb => if slot ≤ 9 then 1 else if slot = 10 then 2 else 0
  | .search => if slot ≤ 8 then 1 else if slot = 9 then 2 else 0
  | .cxlp => if slot ≤ 6 then 1 else 0
  | .pool => if slot ≤ 6 then 1 else 0
  | .pigeonhole => if slot ≤ 4 then 1 else 0
  | .shape => if slot ≤ 5 then 1 else 0
  | .ras => if slot ≤ 4 then 1 else if slot = 5 then 2 else 0
  | .armoire => if slot ≤ 1 then 2 else if slot ≤ 3 then 1 else 0
  | .fitting => if slot = 0 then 2 else if slot ≤ 3 then 1 else 0
  | .sec => if slot ≤ 2 then 1 else if slot = 3 then 2 else 0
  | .twin => if slot ≤ 3 then 1 else if slot ≤ 5 then 2 else 0
  | .dev | .time | .meter | .pigeonCtl | .bench | .defect => 0

/-- CAPS.NCNT (R33): the slots in use, counted from slot 0 to the highest used one. -/
def counterSlots (p : PageInfo) : Nat :=
  (List.range 24).foldl (fun m k => if counterClass p k = 0 then m else k + 1) 0

/-- Counter slots that count CCLK cycles, or KiB at a memory controller; the model has neither CCLK nor controllers and
reads a free value there (log entry 4). -/
def isCycleCounter (p : PageInfo) (slot : Nat) : Bool :=
  match p.blk with
  | .stu => decide (p.sub = 3 ∧ slot = 5)
  | .tier => decide (slot = 5)
  | .switch => decide (p.sub = 0 ∧ slot = 6)
  | .scache => decide (slot = 10)
  | .hbmc => decide (slot ≤ 2)
  | .ddrc => decide (slot ≤ 2)
  | .core => decide (slot = 1 ∨ slot = 2 ∨ slot = 5)
  | .shape => decide (slot = 2)
  | .armoire => decide (slot = 0)
  | _ => false

/-- The bits [31:16] of ERR_STATUS that a block's chapter defines. -/
def errBits (p : PageInfo) : Nat :=
  match p.blk with
  | .ring => maskOf 23 16
  | .bringup => maskOf 27 16
  | .defect => maskOf 17 16
  | .stu => if p.sub = 0 then maskOf 19 16 else if p.sub = 1 then maskOf 16 16 else if p.sub = 2 then maskOf 16 16 else 0
  | .tier => maskOf 19 16
  | .codec => maskOf 16 16
  | .hbmc => maskOf 25 22
  | .ddrc => maskOf 25 22
  | .scache => maskOf 25 22
  | .cursor => maskOf 19 16
  | .time => maskOf 17 16
  | .port => maskOf 21 16
  | .switch => if p.sub = 0 then maskOf 19 16 else 0
  | .mirror => maskOf 16 16
  | .coh => maskOf 21 16
  | .core => maskOf 20 16
  | .cloak => maskOf 18 16
  | .emb => maskOf 19 16
  | .search => maskOf 18 16
  | .cxlp => maskOf 19 16
  | .pool => maskOf 17 16
  | .pigeonhole => maskOf 17 16
  | .ras => maskOf 19 16
  | .armoire => maskOf 19 16
  | .fitting => maskOf 17 16
  | .sec => maskOf 18 16
  | .twin => maskOf 18 16
  | .dev | .meter | .pigeonCtl | .bench | .shape => 0

/-- The event register and its mask, where a page has them (R47). -/
def eventRegs (p : PageInfo) : Option (Nat × Nat) :=
  match p.blk with
  | .stu => if p.sub = 1 then some (0x058, 0x05C) else none
  | .tier => some (0x160, 0x164)
  | .cursor => some (0x0E8, 0x0EC)
  | .coh => some (0x0F0, 0x0F4)
  | .core => some (0x0E0, 0x0E4)
  | .cloak => some (0x0F0, 0x0F4)
  | .emb => some (0x060, 0x064)
  | .search => some (0x060, 0x064)
  | .cxlp => some (0x0F0, 0x0F4)
  | .meter => some (0x0A0, 0x0A4)
  | .pigeonhole => some (0x0A0, 0x0A4)
  | .ras => some (0x0F0, 0x0F4)
  | .armoire => some (0x060, 0x064)
  | .fitting => some (0x070, 0x074)
  | .twin => some (0x050, 0x054)
  | .dev | .time | .port | .switch | .mirror | .scache | .hbmc | .ddrc | .codec | .pool | .shape | .pigeonCtl
  | .bench | .sec | .bringup | .defect | .ring => none

/-- R611: the reset value of CTRL. -/
def ctrlReset (p : PageInfo) : Nat := match p.blk with | .mirror => 0 | _ => 1

/-- The reset value of the register at the start offset roff of a page; counters reset to 0. -/
def resetOf (page roff : Nat) : Nat :=
  match pageInfo page with
  | none => 0
  | some p =>
    if roff = 0x10 then ctrlReset p
    else
      match regAt p roff with
      | some h => h.reg.reset
      | none => 0

end Sys2Proof
end

