-- ==== Sys2Proof/Machine/State.lean ====
section
/-!
DEFINITION. The state of the VKM48 block: every register, queue, table and mode the spec gives it, as plain data, the
queue of waiting commands, and the state after reset. Register storage is one table by BAR0 byte offset
(Machine/RegMap.lean gives each register's reset value); a register that shows typed state is a view of it.
-/
namespace Sys2Proof.Machine

/-- R95: the phases of the bring-up sequencer. -/
inductive Phase | held | ledger | clocking | testing | restoring | ready | quiescing | failed
  deriving DecidableEq, Repr

/-- R55, R57: the discrete signals and rails, true for high or in range. Inputs are pulled down but BYPASS_FORCE_N (R56). -/
structure Pins where
  vaux3 : Bool := false
  pwrEn : Bool := false
  modRstN : Bool := false
  perst0N : Bool := false
  perst1N : Bool := false
  bypassForceN : Bool := true
  pgOut : Bool := false
  alertN : Bool := true
  thermTripN : Bool := true
  deriving DecidableEq, Repr

/-- The bring-up sequencer (R92 to R124). -/
structure Boot where
  phase : Phase := .held
  /-- BRINGUP_STATUS.LAST_KIND, R118 -/
  lastKind : Nat := 0
  /-- the kind of the bring-up under way -/
  kind : Nat := 0
  /-- on the warm path -/
  warm : Bool := false
  /-- memory contents lost on the warm path, R108 -/
  lost : Bool := false
  degraded : Bool := false
  /-- clock at the start of the bring-up under way, or at entry to Quiescing (R122) -/
  startedAt : Nat := 0
  elapsedUs : Nat := 0
  /-- BRINGUP_PROFILE_ACTIVE, R120 -/
  pool : Nat := 0
  oppoint : Nat := 0
  /-- BRINGUP_T2_INIT, R121 -/
  watermark : Nat := 0
  t2Done : Bool := false
  /-- BRINGUP_UNITS, R119 -/
  hbmOk : Nat := 0
  ddrOk : Nat := 0
  /-- the DDR channels as trained: type, DIMMs, rate, capacity (R211) -/
  ddr : Tab DdrReport := []
  /-- in Clocking, while every page's ENABLE is held at 0 (R578) -/
  loading : Bool := false
  /-- core self-test of this bring-up ended (R96) -/
  coreTested : Bool := false
  /-- physical cores of logical cores 0-63 and bench slots 0-7, as the mesh uses them; 0xFF none (R105) -/
  coreMap : List Nat := []
  benchMap : List Nat := []
  deriving DecidableEq, Repr

/-- R76: the states of a ring path. -/
inductive PathState | bypassed | loopback | qualified | opening | joining | joined | closing | refused
  deriving DecidableEq, Repr

/-- One ring path: its state, drive and sensed position, and the clock at the last change (R76, R85). -/
structure RingPath where
  st : PathState := .bypassed
  drive : Bool := false
  sense : Bool := false
  qual : Bool := false
  since : Nat := 0
  deriving DecidableEq, Repr

/-- R296: one RING_ROUTE entry. -/
structure Route where
  v : Bool := false
  port : Nat := 0
  kind : Nat := 0
  deriving DecidableEq, Repr

/-- R99: the training states of a Yumer port. -/
inductive PortState | disabled | detect | equalise | laneMap | qualify | ready | retry
  deriving DecidableEq, Repr

/-- A frame kept in a replay buffer until acknowledged (R251). -/
structure SentFrame where
  frame : Frame
  sentAt : Nat
  replays : Nat
  deriving DecidableEq, Repr

/-- One Yumer port: training, lanes, partner and link layer (R63, R99, R251, R252, R263, R287). -/
structure Port where
  st : PortState := .disabled
  since : Nat := 0
  txRetired : Option Nat := none
  rxRetired : Option Nat := none
  partnerV : Bool := false
  partnerVkm : Bool := false
  partnerLevel : Nat := 0
  partnerModule : Nat := 0
  /-- level in use on the link, STATUS.LEVEL -/
  level : Nat := 0
  /-- has been Ready since the last bring-up (R100) -/
  wasReady : Bool := false
  /-- entered Retry because a direction with a retired lane had a second lane fail (R99) -/
  secondFail : Bool := false
  /-- next SEQ to send, next SEQ expected -/
  txSeq : Nat := 0
  rxSeq : Nat := 0
  /-- discarding frames until the replay asked for arrives (R251) -/
  discarding : Bool := false
  replay : List SentFrame := []
  /-- credits held per class, in 64-byte cells (R252) -/
  credits : List Nat := [0, 0, 0, 0, 0, 0, 0, 0]
  /-- cells granted to the partner and not yet used, per class -/
  granted : List Nat := [0, 0, 0, 0, 0, 0, 0, 0]
  /-- deficit round robin: deficit per class, class 7's bytes in the current 10 us window, and the window's start (R269) -/
  deficit : List Nat := [0, 0, 0, 0, 0, 0, 0, 0]
  rrNext : Nat := 0
  tc7Bytes : Nat := 0
  tc7Window : Nat := 0
  /-- time sync: TX_TIME of the last sync frame received, our reception time of it, and its HOPS (R263) -/
  syncTx : Nat := 0
  syncRx : Nat := 0
  syncHops : Nat := 0xFF
  /-- the received optical power byte, ring ports only (R87) -/
  rxPower : Nat := 0x80
  /-- received time of the last bridge heartbeat, and what it reported (R598) -/
  hbAt : Nat := 0
  deriving DecidableEq, Repr

/-- A frame in the switch buffer, on the queue of an egress port (R267, R268). -/
structure QFrame where
  egress : Nat
  ingress : Nat
  cells : Nat
  reserve : Bool
  /-- it cuts through (R270) -/
  cut : Bool := false
  /-- it waits at its ingress for room in its egress queue (R268, R277); it holds no cells there -/
  waits : Bool := false
  frame : Frame
  deriving DecidableEq, Repr

/-- The mirror ring's position and rate (R285, R294). -/
structure MirrorState where
  next : Nat := 0
  wrapped : Bool := false
  full : Bool := false
  window : Nat := 0
  inWindow : Nat := 0
  /-- matches seen by each filter, for SAMPLE -/
  matched : List Nat := [0, 0, 0, 0]
  /-- records on their way to the ring: module offset and bytes -/
  buf : List (Nat × List Byte) := []
  deriving DecidableEq, Repr

/-- The time base and calendar (R233 to R236, R245). -/
structure TimeState where
  hops : Nat := 0xFF
  /-- TIME_STATUS.SYNC: 0 free-running, 1 locked, 2 holdover, 3 master -/
  sync : Nat := 0
  offset : Nat := 0
  locked : Bool := false
  /-- DEV_TIME when the last sync frame came -/
  lastSync : Nat := 0
  /-- port time is taken from -/
  source : Nat := 0
  /-- ns still to be slewed; two's complement is not needed: forward and backward amounts -/
  slewForward : Nat := 0
  slewBack : Nat := 0
  calSet : Bool := false
  calStale : Bool := false
  calSeconds : Nat := 0
  poh : Nat := 0
  /-- clock at the last whole second of the calendar and the last whole power-on hour -/
  calMark : Nat := 0
  pohMark : Nat := 0
  deriving DecidableEq, Repr

/-- R101: a port's stored training record. -/
structure TrainRecord where
  partnerModule : Nat
  txRetired : Option Nat
  rxRetired : Option Nat
  deriving DecidableEq, Repr

/-- R586: a Fitting record. -/
structure FittingRecord where
  cycle : Nat
  seconds : Nat
  poh : Nat
  result : Nat
  permit : Nat
  floors : List Nat
  worstSlack : Nat
  meanSlow : Nat
  worstSlow : Nat
  lanesLow : Nat
  offsets : List Nat
  deriving DecidableEq, Repr

/-- R551, R565: a fault history record. -/
structure HistRecord where
  kind : Nat
  perm : Bool
  ueSeen : Bool
  errors : Nat
  loc : Nat
  firstPoh : Nat
  lastPoh : Nat
  deriving DecidableEq, Repr

/-- R573: an event log record. -/
structure EventRecord where
  kind : Nat
  seconds : Nat
  poh : Nat
  detail : List Byte
  deriving DecidableEq, Repr

/-- A bundle as stored (R574), with the outcome of its CRC at the next Ledger. -/
structure StoredBundle where
  bytes : List Byte
  crcOk : Bool := true
  deriving DecidableEq, Repr

/-- The Armoire: what outlives power (R569 to R579, R586). -/
structure Armoire where
  serial : Nat := 0
  chain : List Byte := []
  chainValid : Bool := false
  moduleId : Option Nat := none
  active : Option StoredBundle := none
  staged : Option StoredBundle := none
  ownerKey : Option (List Byte) := none
  ownerSeq : Nat := 0
  defect : List Word := []
  /-- the fault history as the hub holds it, and as last written to the Armoire (R571) -/
  history : List HistRecord := []
  histSaved : List HistRecord := []
  training : Tab TrainRecord := []
  /-- memory training records exist (WARM_OK) -/
  memTrained : Bool := false
  timingOffsets : List Nat := []
  /-- R586: record 0, the factory record, whose floors R581 gives, then the ring of 256 -/
  fitting : List FittingRecord := [⟨0, 0, 0, 0, 15, [720, 680, 640, 590], 0, 0, 0, 0, []⟩]
  /-- persistent counters by BAR0 offset, calendar and power-on hours as last saved (R572, R236) -/
  counters : Tab Nat := []
  savedSeconds : Nat := 0
  savedSet : Bool := false
  savedPoh : Nat := 0
  log : List EventRecord := []
  /-- update count of each region (R591) -/
  updates : Tab Nat := []
  /-- spare lines left (R569, R571) -/
  spareFree : Nat := 65535
  /-- records written in the current second, for the limit of R571 -/
  logSecond : Nat := 0
  logInSecond : Nat := 0
  /-- fault counts gathered in the hub since the last flush (R571) -/
  histPending : Bool := false
  /-- the model's own: how many lines of the coming updates fail their verification, one count an update (log entry 152) -/
  lineFails : List Nat := []
  histFlushedAt : Nat := 0
  deriving DecidableEq, Repr

/-- An open bundle transfer (R73): stated length, bytes by offset, time of the last part. -/
structure BundleTransfer where
  len : Nat
  bytes : Tab Byte
  last : Nat
  deriving DecidableEq, Repr

/-- The sideband (R69 to R73): dynamic address, open transfer, alert pending. -/
structure Sideband where
  dynAddr : Option Nat := none
  bundle : Option BundleTransfer := none
  alert : Bool := false
  deriving DecidableEq, Repr

/-- R560: the states of RAS_FENCE. -/
inductive FenceState | serving | fenced | fatal
  deriving DecidableEq, Repr

/-- A pending error injection (R563). -/
structure Injection where
  target : Nat
  addr : Nat
  ue : Bool
  deriving DecidableEq, Repr

/-- R556: a copy that a retired row still waits for: of a tile's slot, or of its T2 image out of these granules. -/
structure RetireCopy where
  tile : Nat
  image : Bool
  granules : List Nat
  deriving DecidableEq, Repr

/-- RAS (R551 to R568) and the throttles of R18, R61, R582. -/
structure Ras where
  fence : FenceState := .serving
  cause : Nat := 0
  lastUe : Word := 0
  injection : Option Injection := none
  throttled : List Sensor := []
  throttleStart : List (Sensor × Nat) := []
  doubled : List Sensor := []
  halved : Bool := false
  /-- uncorrectable errors per switch buffer bank, with the power-on hour (R553) -/
  banks : Tab Nat := []
  /-- retirement copies still waiting for a free slot or run (R556) -/
  copies : List RetireCopy := []
  freeMapBad : Bool := false
  /-- permanent DDR5 rows with the device that failed in each (R555) -/
  devRows : List (Nat × Nat) := []
  /-- temperatures last read, by sensor -/
  temps : List (Sensor × Nat) := []
  deriving DecidableEq, Repr

/-- Fitting (R580 to R593): phase, result, plan and monitor sites. -/
structure Fitting where
  /-- FITTING_STATUS.PHASE -/
  phase : Nat := 0
  result : Nat := 0
  /-- the permitted points and planned floors that act: of the last record (R586), the factory's (R581) at first -/
  permit : Nat := 15
  floors : List Nat := [720, 680, 640, 590]
  vcore : Nat := 0
  /-- FITTING_NEXT's calendar instant -/
  next : Nat := 0
  forecast : Nat := 0xFFFF
  slowdown : Nat := 0
  /-- calendar and power-on hours of the last cycle that ended -/
  startSeconds : Nat := 0
  startPoh : Nat := 0
  /-- calendar and power-on hours at the start of the cycle under way -/
  atSeconds : Nat := 0
  atPoh : Nat := 0
  /-- floors, worst and mean slowdown, lanes under margin and offsets that the cycle under way has planned -/
  plan : List Nat := []
  worst : Nat := 0
  mean : Nat := 0
  lanesLow : Nat := 0
  offsets : List Nat := []
  /-- consecutive readings at or above the guard plus 10 ps, and the clock since which readings are at or above it (R582) -/
  good : Nat := 0
  goodSince : Nat := 0
  /-- slack was below the guard at the ceiling -/
  limited : Bool := false
  /-- the cycle due fell due while none could start (R583) -/
  late : Bool := false
  /-- site readings: ring oscillator ppm, delay ps, slack as 16-bit two's complement -/
  sites : Tab (Nat × Nat × Nat) := []
  deriving DecidableEq, Repr

/-- One SPDM session (R588): its transport and whether it is finished. -/
structure SpdmSession where
  id : Nat
  transport : Nat
  finished : Bool
  deriving DecidableEq, Repr

/-- SEC (R587 to R595). -/
structure Sec where
  sessions : List SpdmSession := []
  nextSession : Nat := 1
  versionDone : List Nat := []
  algsDone : List Nat := []
  deriving DecidableEq, Repr

/-- R599: the states of a Twinset member. -/
inductive TwinMode | single | linking | syncing | joined | broken | refused
  deriving DecidableEq, Repr

/-- Twinset (R596 to R610), seen from this member. -/
structure Twin where
  st : TwinMode := .single
  cause : Nat := 0
  since : Nat := 0
  partnerSerial : Nat := 0
  partnerPhase : Nat := 5
  partnerFence : Nat := 0
  partnerState : Nat := 0
  hbAt : Nat := 0
  /-- TWIN_CFG as it takes effect at the next cold reset (R610) -/
  en : Bool := false
  role : Nat := 0
  inPairWarm : Bool := false
  /-- Joined has been entered since the cold reset (R115) -/
  joinedOnce : Bool := false
  /-- TWIN_CFG as it acts, taken at the last cold reset (R610) -/
  cfg : Word := 0x04000014
  deriving DecidableEq, Repr

/-- What a completion from another module is for. -/
inductive Purpose
  /-- row j of descriptor `seq` of a core DMA queue (R348 to R352): core, context, queue, scratchpad address -/
  | dma (core ctx q seq sp bytes : Nat)
  /-- an atomic's old value to the scratchpad -/
  | dmaAtomic (core ctx q seq sp size : Nat)
  /-- an ADVANCE or PIGEON descriptor -/
  | dmaCtl (core ctx q seq sp : Nat)
  /-- a push's block read (R421): operation, tile position × 16 + block -/
  | push (push part : Nat)
  /-- a mirror operation or probe (R430 to R432) -/
  | mirror (index op kind : Nat)
  /-- a NOTIFY or completion record write that needs no more than its status (R417, R420) -/
  | notify
  /-- EMU: a read of a request (R444): request, kind (0 bags, 1 indices, 2 gradients, 3 weights), offset; a write of one -/
  | emuRead (n kind off : Nat)
  | emuWrite (n : Nat)
  /-- a migration's write and its cutover (R460) -/
  | migWrite (gen : Nat)
  | migCutover (gen : Nat)
  /-- SCU result write (R478): request -/
  | scuWrite (n : Nat)
  /-- a piece of an attention result (R395): request -/
  | attend (n : Nat)
  /-- a pull of an insert's vector (R481): request, offset -/
  | scuRead (n off : Nat)
  /-- a request performed at the other member of a Twinset pair (R604) -/
  | relay (n : Nat)
  deriving DecidableEq, Repr

/-- Where a request for this module's store or units came from, and so where its answer goes (R255, R151). -/
inductive ReqSrc
  /-- a Yumer frame that arrived at a switch port -/
  | frame (port : Nat)
  /-- a CXL.mem request of a logical device; `extent` is its extent's index (R499) -/
  | cxl (port ld tag extent : Nat)
  /-- the Tier Manager's recall of a line for a demotion or SEAL (discard = false), or for FREE (discard = true) -/
  | tileRecall (discard : Bool)
  /-- a back-snoop of R310, and what is left of a withdrawn request's transaction -/
  | backSnoop
  /-- a request of a pool operation (R503): its number, and the logical device and extent when addressed by DPA (port 2: a frame's) -/
  | pool (cmd port ld extent : Nat)
  deriving DecidableEq, Repr

/-- A request on its way: its frame (CXL.mem requests stand as READ or WRITE of 64 bytes), module offset once
translated, byte enables of a partial write, and the leaf it was translated with (R149). -/
structure Req where
  id : Nat
  src : ReqSrc
  frame : Frame
  off : Nat := 0
  enables : List Bool := []
  leaf : Option (Nat × Nat × Nat) := none
  inProfile : Bool := false
  /-- DEV_TIME when the last part of a tile write arrived (R178) -/
  stamp : Nat := 0
  deriving DecidableEq, Repr

/-- R143: a cached leaf: tenant, ASID, first TVA, page bytes, entry. `pf`: installed by a prefetch and not yet used. -/
structure LeafEntry where
  tenant : Nat
  asid : Nat
  base : Nat
  size : Nat
  entry : Nat
  pf : Bool
  deriving DecidableEq, Repr

/-- A cached non-leaf entry: the table that level `level` walks from, for a TVA prefix. -/
structure NonLeafEntry where
  tenant : Nat
  asid : Nat
  level : Nat
  tag : Nat
  table : Nat
  deriving DecidableEq, Repr

/-- A walk in progress, of a 2 MiB page number (R143 to R147). `again`: an invalidation covered it, so it installs nothing. -/
structure Walk where
  tenant : Nat
  asid : Nat
  vpn : Nat
  demand : Bool
  again : Bool
  deriving DecidableEq, Repr

/-- R146: a stream tracker. -/
structure Tracker where
  module : Nat
  unit : Nat
  tenant : Nat
  asid : Nat
  tile : Nat
  up : Bool
  run : Nat
  deriving DecidableEq, Repr

/-- R149: a queued invalidation. -/
structure InvCmd where
  seq : Nat
  scope : Nat
  tenant : Nat
  asid : Nat
  start : Nat
  count : Nat
  /-- its entries are removed and it waits for requests already translated -/
  removed : Bool
  waitFor : List Nat
  deriving DecidableEq, Repr

/-- R161: a queued prewalk. -/
structure Prewalk where
  tenant : Nat
  asid : Nat
  next : Nat
  left : Nat
  deriving DecidableEq, Repr

/-- R156: an STU fault record. -/
structure StuFault where
  w0 : Word
  w1 : Word
  deriving DecidableEq, Repr

/-- The STU (R128 to R163). Caches are kept least recently used first. -/
structure Stu where
  leaves : List LeafEntry := []
  nonLeaves : List NonLeafEntry := []
  /-- tenant entries by tenant: the two words -/
  tenants : List (Nat × Word × Word) := []
  /-- ASID entries by tenant and ASID -/
  asids : List (Nat × Nat × Word) := []
  walks : List Walk := []
  /-- requests waiting in the STU, in order of arrival -/
  waiting : List Req := []
  trackers : List Tracker := []
  invs : List InvCmd := []
  issuedSeq : Nat := 0
  doneSeq : Nat := 0
  prewalks : List Prewalk := []
  faults : List StuFault := []
  deriving DecidableEq, Repr

/-- R174: residency states of a tile. -/
inductive TileState | free | upper | clean | lower | promoting | demoting | freeing | void
  deriving DecidableEq, Repr

/-- What follows a demotion or promotion in progress (R179, R180, R183). -/
inductive TileNext | stay | evict
  deriving DecidableEq, Repr

/-- One tile: its directory entry, header (R169), slot record and image (R174, R186, R187). -/
structure Tile where
  st : TileState := .free
  format : Nat := 0
  scale : Nat := 0
  sealed : Nat := 0
  codec : Bool := false
  cls : Nat := 0
  owner : Nat := 0
  version : Nat := 0
  blockPoison : Nat := 0
  lens : List Nat := []
  bsel : List Nat := []
  tselData : Nat := 0
  tselHdr : Nat := 0
  sealTime : Nat := 0
  sealModule : Nat := 0
  sealUnit : Nat := 0
  /-- the stored header fails its HCRC (an error under R172, R557) -/
  hcrcBad : Bool := false
  pins : Nat := 0
  holds : Nat := 0
  stamp : Nat := 0
  /-- the T2 image: first granule and granules -/
  run : Option (Nat × Nat) := none
  /-- a background demotion (R190), and what follows the move under way -/
  background : Bool := false
  next : TileNext := .stay
  deriving DecidableEq, Repr

/-- R193: a tier command. -/
structure TierCmd where
  seq : Nat
  tile : Nat
  count : Nat
  op : Nat
  cls : Nat
  tenant : Nat
  /-- tiles completed; the current tile's work has been started and is waited for -/
  done : Nat := 0
  started : Bool := false
  /-- set when it has ended and waits for its report: the RESULT code of R204 -/
  result : Option Nat := none
  deriving DecidableEq, Repr

/-- The Tier Manager (R164 to R207). -/
structure Tier where
  tiles : Tab Tile := []
  /-- R198: HBM contents were lost, so every tile not listed is Void -/
  allVoid : Bool := false
  /-- tiles holding a slot, oldest use first (R188) -/
  ageQ : List Nat := []
  /-- S of R165 less excluded slots -/
  slots : Nat := 0
  /-- granules of R166: G, the first usable one, excluded granule numbers (R167) -/
  granules : Nat := 0
  firstUsable : Nat := 0
  excluded : List Nat := []
  cmds : List TierCmd := []
  issuedSeq : Nat := 0
  doneSeq : Nat := 0
  result : Nat := 0
  doneTiles : Nat := 0
  hdr : List Word := []
  deriving DecidableEq, Repr

/-- R300: T0 state of a line; a line with no entry is Invalid. -/
inductive T0State | clean | dirty
  deriving DecidableEq, Repr

/-- R300: a snoop filter entry with its last grant, for R310. -/
structure FilterEntry where
  /-- none: Shared; some k: Owned(k) -/
  owner : Option Nat
  granted : Nat
  deriving DecidableEq, Repr

/-- A snoop sent and not yet answered (R303, R305): tag, line, agent entry, kind, when, and whether the filter had the
line Owned by that agent. -/
structure Snoop where
  tag : Nat
  line : Nat
  agent : Nat
  kind : Nat
  sentAt : Nat
  owned : Bool
  deriving DecidableEq, Repr

/-- A transaction at its home (R304): the request, its lines, snoops outstanding, and what it waits for. -/
inductive TxWait | snoops | tile | fill | room
  deriving DecidableEq, Repr

structure HomeTx where
  req : Req
  lines : List Nat
  snoops : List Snoop
  wait : TxWait
  /-- the owner forwarded the data (R308) -/
  forwarded : Bool := false
  /-- lines whose data the transaction found lost (R312, R313) -/
  lost : Bool := false
  /-- an upgrade that found its own Shared copy (no data in the grant), or a shared read whose line another agent owned (grant S) -/
  noData : Bool := false
  deriving DecidableEq, Repr

/-- R311: the states of a coherence agent. -/
inductive AgentState | off | active | lost | walked
  deriving DecidableEq, Repr

/-- One COH_AGENT entry. -/
structure CohAgent where
  st : AgentState := .off
  en : Bool := false
  module : Nat := 0
  unit : Nat := 0
  lastHb : Nat := 0
  deriving DecidableEq, Repr

/-- A lease holder (R315, R317): none of the two for a lease that no one ever took. -/
inductive Holder | none | ld (member port n : Nat) | agent (module unit : Nat)
  deriving DecidableEq, Repr

inductive LeaseState | undefined | idle | held
  deriving DecidableEq, Repr

/-- R315: a lease. -/
structure Lease where
  st : LeaseState := .undefined
  tile : Nat := 0
  count : Nat := 0
  termMs : Nat := 0
  holder : Holder := .none
  epoch : Nat := 0
  /-- DEV_TIME of its TAKE or last RENEW -/
  started : Nat := 0
  deriving DecidableEq, Repr

/-- The coherence domain and the homes (R297 to R326). -/
structure Coh where
  t0 : Tab T0State := []
  filter : Tab FilterEntry := []
  txs : List HomeTx := []
  waiting : List Req := []
  /-- FLUSH requests at their target that wait for earlier posted writes of their flow (R257) -/
  flushes : List Req := []
  agents : Tab CohAgent := []
  /-- agents whose walk is under way (head) or waits -/
  walks : List Nat := []
  walkDone : Nat := 0
  lostW0 : Word := 0
  lostLines : Nat := 0
  leases : Tab Lease := []
  grants : Nat := 0
  /-- ways retired per slice -/
  waysBad : Tab (List Nat) := []
  deriving DecidableEq, Repr

/-- R260: a tile write being assembled; `dead`: ended, its later parts discarded. -/
structure Assembly where
  srcModule : Nat
  srcUnit : Nat
  tag : Nat
  addr : Nat
  started : Nat
  parts : Tab Frame
  dead : Bool
  port : Nat
  deriving DecidableEq, Repr

/-- A shaper (R529 to R541): tokens in thousandths of a byte, requests held in order, place on the wheel. -/
structure Shaper where
  en : Bool := false
  resetTo : Bool := false
  penalty : Nat := 0
  overhead : Nat := 80
  limit : Nat := 0
  alloc : Nat := 0
  burst : Nat := 65536
  peak : Int := 0
  committed : Int := 0
  t0 : Nat := 0
  queue : List Req := []
  slot : Option Nat := none
  /-- placed in the last slot of the span, to be placed again (R533) -/
  far : Bool := false
  deriving DecidableEq, Repr

/-- A request a unit of this module sent to another module, waiting for its completion (R264, R265). `purpose` says
what the completion is for. -/
structure Outstanding where
  frame : Frame
  issued : Nat
  purpose : Purpose
  deriving DecidableEq, Repr

/-- A tag quarantined after TARGET_DEAD (R265). -/
structure DeadTag where
  unit : Nat
  tag : Nat
  until_ : Nat
  deriving DecidableEq, Repr


/-- R498: the states of an extent. -/
inductive ExtState | unused | pending | active | recalled | draining
  deriving DecidableEq, Repr

/-- R497: an extent entry: blocks are 64 MiB. -/
structure Extent where
  st : ExtState := .unused
  ld : Nat := 0
  r : Bool := false
  w : Bool := false
  dpaBlk : Nat := 0
  count : Nat := 0
  offBlk : Nat := 0
  /-- DEV_TIME at entry to Draining -/
  drainAt : Nat := 0
  /-- requests a warm reset withdrew, its record still to be written (R500) -/
  owed : Option Nat := none
  deriving DecidableEq, Repr

/-- An HDM decoder: HPA base and size, DPA base, committed (R495). -/
structure Decoder where
  base : Nat := 0
  size : Nat := 0
  dpa : Nat := 0
  committed : Bool := false
  deriving DecidableEq, Repr

/-- A record of a Dynamic Capacity event log. -/
structure DcRecord where
  handle : Nat
  kind : Nat
  ld : Nat
  dpa : Nat
  len : Nat
  withdrawn : Nat
  deriving DecidableEq, Repr

/-- A logical device (R493, R495, R503, R538). -/
structure LogDev where
  en : Bool := false
  tenant : Nat := 0
  shaper : Nat := 0
  dec0 : Decoder := {}
  dec1 : Decoder := {}
  events : List DcRecord := []
  nextHandle : Nat := 1
  /-- fractions last set through the FM API, and the sums of Get QoS Status -/
  allocF : Option Nat := none
  limitF : Option Nat := none
  /-- the highest backlog so far, which bounds what Get QoS Status averages -/
  qosHigh : Nat := 0
  deriving DecidableEq, Repr

/-- A CXL port (R98, R493 to R505). -/
structure CxlPort where
  up : Bool := false
  width : Nat := 0
  rate : Nat := 0
  ide : Bool := false
  /-- clock mode: SRIS, else common clock (R65, R575) -/
  sris : Bool := false
  lds : Tab LogDev := []
  extents : Tab Extent := []
  /-- the FM-owned logical device's event log -/
  fmEvents : List DcRecord := []
  fmHandle : Nat := 1
  /-- QoS Control: moderate and severe percentages and the fields that have no effect -/
  qosControl : List Nat := []
  deriving DecidableEq, Repr

/-- R351: the states of a sequence context. -/
inductive CtxState | free | ready | running | waiting | faulted
  deriving DecidableEq, Repr

/-- How a context's run is ending while commands it started still run (R353). -/
inductive CtxEnding
  | halt (exit : Nat)
  | fault (code : Nat)
  deriving DecidableEq, Repr

/-- R377: a release mark: its scope and the commands it covers. -/
structure ReleaseMark where
  scope : Nat
  cmds : List Nat
  deriving DecidableEq, Repr

/-- R373: a SIGNAL waiting on its engines. -/
structure HeldSignal where
  sem : Nat
  core : Nat
  imm : Nat
  cmds : List Nat
  /-- marks placed before it -/
  marks : List ReleaseMark
  deriving DecidableEq, Repr

/-- A sequence context (R345, R350). -/
structure Ctx where
  st : CtxState := .free
  /-- CORE_CTX_BIND -/
  bind : Word := 0
  entry : Nat := 0
  args : List Word := [0, 0, 0, 0]
  seed : Word := 0
  src : Word := 0
  /-- s1 to s31 -/
  regs : List Word := List.replicate 31 0
  pc : Nat := 0
  exit : Nat := 0
  fault : Nat := 0
  starter : Nat := 0
  startedAt : Nat := 0
  /-- tenant and ASID of the run -/
  tenant : Nat := 0
  asid : Nat := 0
  /-- a WAIT not met: semaphore and threshold -/
  wait : Option (Nat × Nat) := none
  /-- commands a FENCE waits for -/
  fence : List Nat := []
  marks : List ReleaseMark := []
  signals : List HeldSignal := []
  ending : Option CtxEnding := none
  /-- a DMA read of this run returned poison (R396) -/
  sawPoison : Bool := false
  deriving DecidableEq, Repr


/-- A queued engine command: its number on the core, context, word, the registers it names, and, once started, the
requests it still waits for. -/
structure EngCmd where
  n : Nat
  ctx : Nat
  word : Word
  rd : Word
  ra : Word
  rb : Word
  rc : Word
  /-- release marks placed before it (R377) -/
  marks : List ReleaseMark
  started : Bool
  /-- requests sent and not completed, and requests still to be sent: store address, scratchpad offset, bytes (R349) -/
  waits : Nat
  todo : List (Nat × Nat × Nat)
  /-- its place in the pattern (R363) -/
  pc : Nat
  deriving DecidableEq, Repr

/-- R371: the retained B operand: what it must match, and the bytes of B and of its scales. -/
structure Retained where
  boff : Nat
  bstride : Nat
  n : Nat
  k : Nat
  fmt : Nat
  scaled : Bool
  sboff : Nat
  rows : List (List Byte)
  scales : List (List Byte)
  deriving DecidableEq, Repr

/-- R372: a line of a DMA line buffer. -/
structure BufLine where
  tenant : Nat
  asid : Nat
  gsa : Bool
  module : Nat
  addr : Nat
  data : List Byte
  filled : Nat
  deriving DecidableEq, Repr

/-- R357: a core fault record. -/
structure CoreFault where
  w0 : Word
  w1 : Word
  deriving DecidableEq, Repr

/-- R358: the states of a logical core. -/
inductive CoreState | inService | draining | fenced | substituting
  deriving DecidableEq, Repr

/-- R354: a pattern load under way. -/
structure PatLoad where
  ctx : Nat
  addr : Nat
  off : Nat
  count : Nat
  crc : Nat
  deriving DecidableEq, Repr

/-- A logical core (R327 to R366). -/
structure Core where
  st : CoreState := .inService
  /-- fenced by RAS, not by command (R358) -/
  byRas : Bool := false
  ctxs : Tab Ctx := []
  mq : List EngCmd := []
  vq : List EngCmd := []
  q0 : List EngCmd := []
  q1 : List EngCmd := []
  nextCmd : Nat := 0
  pat : Tab Word := []
  /-- pattern words with an uncorrectable error (R546) -/
  badWords : List Nat := []
  sems : Tab Nat := []
  retained : Option Retained := none
  buf0 : List BufLine := []
  buf1 : List BufLine := []
  faults : List CoreFault := []
  load : Option PatLoad := none
  loadResult : Nat := 0
  intSat : Bool := false
  /-- the bench slot on test for the substitution under way -/
  slot : Option Nat := none
  /-- DEV_TIME at entry to Draining -/
  drainAt : Nat := 0
  deriving DecidableEq, Repr

/-- R366: the state of a bench slot. -/
inductive BenchState | empty | ready | testing | failed
  deriving DecidableEq, Repr


/-- R214: the states of a cursor. -/
inductive CursorState | free | armed | running | stalled
  deriving DecidableEq, Repr

/-- R212, R239: a cursor: its definition, binding and position, and DEV_TIME of its last accepted advance. -/
structure Cursor where
  st : CursorState := .free
  defn : Word := 0
  bind : Word := 0
  step : Nat := 0
  pos : Nat := 0
  lastAdv : Nat := 0
  deriving DecidableEq, Repr

/-- R218: a drawer as written, and its engine fields; `lastStep`: the last step applied, none before the first (log entry 16). -/
structure Drawer where
  w0 : Word
  w1 : Word
  w2 : Word
  w3 : Word
  fired : Bool := false
  lastStep : Option Nat := none
  deriving DecidableEq, Repr

/-- R404, R406: a submitted optimiser apply: its step, context, the record's offset, and each started core with its
first chunk, chunk count and, once its run has ended, its fault code (0 none, 0x100 for a bad EXIT). -/
structure ApplyRun where
  step : Nat
  ctx : Nat
  cpl : Nat
  shares : List (Nat × Nat × Nat × Option Nat)
  deriving DecidableEq, Repr

/-- One firing of a drawer: its due position, tiles not begun and begun, refusals, and its reports (R219 to R225). -/
structure DrawerRun where
  drawer : Nat
  cursor : Nat
  tenant : Nat
  kind : Nat
  dueStep : Nat
  duePos : Nat
  relStep : Nat
  relPos : Nat
  todo : List Nat
  wait : List Nat := []
  held : List Nat := []
  refused : Nat := 0
  reason : Nat := 0
  apply : Option ApplyRun := none
  /-- DEV_TIME of completion -/
  doneAt : Option Nat := none
  /-- DEV_TIME at which LATE was reported -/
  lateAt : Option Nat := none
  deleted : Bool := false
  deriving DecidableEq, Repr

/-- R224: the hold of one drawer's firing on a tile. -/
structure HoldRec where
  drawer : Nat
  cursor : Nat
  tile : Nat
  relStep : Nat
  relPos : Nat
  deriving DecidableEq, Repr

/-- R242: a report. -/
structure DrawerReport where
  w0 : Word
  w1 : Word
  deriving DecidableEq, Repr

/-- The Cursor Engine (R212 to R232, R237 to R244). -/
structure CursorEngine where
  cursors : Tab Cursor := []
  drawers : Tab Drawer := []
  runs : List DrawerRun := []
  holds : List HoldRec := []
  /-- crossed while ENABLE = 0 (R237): drawer, cursor, due step and position -/
  missed : List (Nat × Nat × Nat × Nat) := []
  reports : List DrawerReport := []
  /-- RESULT of the last drawer command -/
  result : Nat := 0
  /-- accepted advances that the embedding unit has still to see (R455): cursor, old position, distance -/
  moved : List (Nat × Nat × Nat × Int) := []
  deriving DecidableEq, Repr

/-- R413: the states of a ticket entry. -/
inductive TicketState | free | held | offered | releasing | mirror | probing
  deriving DecidableEq, Repr

/-- R412: a ticket or mirror entry. -/
structure Ticket where
  st : TicketState := .free
  gen : Nat := 0
  mirrored : Bool := false
  spilled : Bool := false
  tenant : Nat := 0
  fmt : Nat := 0
  epoch : Nat := 0
  ownerM : Nat := 0
  ownerU : Nat := 0
  takerM : Nat := 0
  takerU : Nat := 0
  deadline : Nat := 0
  refs : Nat := 0
  maxTokens : Nat := 0
  layersM1 : Nat := 0
  headsM1 : Nat := 0
  d : Nat := 0
  runBase : Nat := 0
  runTiles : Nat := 0
  mirrorModule : Nat := 0
  mslot : Nat := 0
  mirrorRun : Nat := 0
  notify : Nat := 0
  created : Nat := 0
  /-- the ID of a mirror entry's ticket: what its home calls it (R409) -/
  tid : Nat := 0
  deriving DecidableEq, Repr

/-- One tile of a push: run tile number, owner's image address, blocks in (number, data, poison, SCARRY), and its write. -/
structure PushTile where
  tile : Nat
  src : Nat
  blocks : Tab (List Byte × Bool × Nat)
  deriving DecidableEq, Repr

/-- What an admitted operation of the Cloakroom is (R416). -/
inductive CloakKind
  | push | append | create | fetch | handover
  deriving DecidableEq, Repr

/-- R416: an admitted operation. `waits`: mirror sends (or the mirror create) outstanding; a push adds its reads. -/
structure CloakOp where
  n : Nat
  kind : CloakKind
  frame : Frame
  /-- entry: in the mirror table or the ticket table -/
  inMirror : Bool
  index : Nat
  waits : Nat := 0
  running : Bool := false
  reads : Nat := 0
  /-- block reads not yet sent: tile position in the push and block -/
  todo : List (Nat × Nat) := []
  tiles : Tab PushTile := []
  /-- its changes are on their way to the mirror; it completes when they are there -/
  finishing : Bool := false
  /-- 0 none; else STATUS × 256 + DETAIL that ends the push -/
  fail : Nat := 0
  poisoned : Bool := false
  layer : Nat := 0
  headFirst : Nat := 0
  heads : Nat := 0
  tokenEnd : Nat := 0
  setReady : Bool := false
  /-- the layer's ready bit is among the changes on their way -/
  readySent : Bool := false
  deriving DecidableEq, Repr

/-- R392 to R396: an admitted attention request. -/
inductive AttendState
  | queued
  | running (core ctx : Nat)
  | replying (waits : Nat) (failed : Bool)
  deriving DecidableEq, Repr

structure AttendReq where
  n : Nat
  frame : Frame
  inMirror : Bool
  index : Nat
  admittedAt : Nat
  st : AttendState
  deriving DecidableEq, Repr

/-- The Cloakroom (R391 to R396, R409 to R440). -/
structure Cloak where
  tickets : Tab Ticket := []
  mirrors : Tab Ticket := []
  /-- the last index taken -/
  lastIndex : Nat := 1048575
  ops : List CloakOp := []
  nextOp : Nat := 0
  attends : List AttendReq := []
  /-- place in the service table last used -/
  lastSvc : Nat := 63
  fmResult : Nat := 0
  /-- SPILL and FETCH work still to be done: tile, and whether to promote it (R425) -/
  moves : List (Nat × Bool) := []
  /-- ready bits that wait for earlier pushes: in the mirror table, entry, layer, last push number (R423) -/
  readies : List (Bool × Nat × Nat × Nat) := []
  /-- GEN of entries not listed (R435) -/
  genBase : Nat := 0
  deriving DecidableEq, Repr

/-- R456: an apply of a table: its step; it waits for scatters. -/
structure EmbTable where
  /-- the 128 bytes of the descriptor as loaded -/
  desc : List Byte
  lastStep : Nat
  logUsed : Nat
  unloading : Bool := false
  applying : Option Nat := none
  /-- steps whose drawer fired and waits (R462) -/
  fires : List Nat := []
  /-- the step-end drawer was crossed while the Cursor Engine was off (R237) -/
  missed : Option Nat := none
  deriving DecidableEq, Repr

/-- What a read of a request brings (R444). -/
inductive EmuKind | bag | idx | grad | weight
  deriving DecidableEq, Repr

/-- A request of the EMU (R444 to R452). -/
structure EmuReq where
  n : Nat
  frame : Frame
  table : Nat
  started : Bool := false
  /-- the directory shows a bucket of the window frozen: it waits (R451, R460) -/
  stalled : Bool := false
  /-- reads still to be sent: kind, offset within its data, address, bytes -/
  todo : List (EmuKind × Nat × Nat × Nat) := []
  reads : Nat := 0
  /-- output and report writes still to be sent: address, bytes, poison -/
  outq : List (Nat × List Byte × Bool) := []
  /-- bytes that came: offset, byte and whether its read was poisoned -/
  bag : Tab (Byte × Bool) := []
  idx : Tab (Byte × Bool) := []
  grad : Tab (Byte × Bool) := []
  weight : Tab (Byte × Bool) := []
  writes : Nat := 0
  /-- first position of the window under way; the bag offsets are in -/
  pos : Nat := 0
  bagOk : Bool := false
  /-- default row, read once, and its poison -/
  dflt : Option (List Byte × Bool) := none
  /-- POOL: the bag under way, its sum so far by element, and its poison -/
  cur : Nat := 0
  acc : List Lane := []
  accPoison : Bool := false
  entries : Nat := 0
  notOk : Nat := 0
  maxDups : Nat := 0
  poisons : Nat := 0
  /-- DETAIL that ends it; 0 none -/
  fail : Nat := 0
  deriving DecidableEq, Repr

/-- R460: the migration under way. -/
structure EmbMig where
  table : Nat
  bucket : Nat
  dest : Nat
  /-- 1 Copy, 2 Freeze, 3 Cutover -/
  phase : Nat
  /-- next record to send, and writes outstanding -/
  next : Nat
  waits : Nat
  /-- module offset of the bucket at the destination: not stated, free (log entry 22) -/
  base : Nat
  /-- requests that were at work when Freeze began -/
  early : List Nat
  /-- which migration this is, so that late answers of an earlier one are known -/
  gen : Nat
  deriving DecidableEq, Repr

/-- The Embedding Unit (R441 to R465). -/
structure Emb where
  tables : Tab EmbTable := []
  reqs : List EmuReq := []
  nextReq : Nat := 0
  cmdResult : Nat := 0
  mig : Option EmbMig := none
  migResult : Nat := 0
  nextMig : Nat := 0
  deriving DecidableEq, Repr

/-- R466: an index as loaded: the 128 bytes of its descriptor, and the engine fields (words 8 to 12). -/
structure ScuIndex where
  desc : List Byte
  epoch : Nat
  cur : Nat
  prevV : Bool
  nextId : Nat
  /-- C of R470: also the next sequence, since a mutation is written when it takes one -/
  committed : Nat
  baseCur : Nat
  basePrev : Nat
  sideHead : Nat
  sideTail : Nat
  unloading : Bool := false
  /-- the tombstone scan of its load runs (R487) -/
  scanning : Bool := false
  deriving DecidableEq, Repr

/-- A request of the SCU whose answer waits: a query's result writes, or the pulls of an insert (R478, R481). -/
structure ScuReq where
  n : Nat
  frame : Frame
  index : Nat
  /-- the epoch a query refers to until its completion is sent (R476) -/
  epoch : Option Nat
  waits : Nat
  /-- pulled bytes by offset; a pull brought poison; a read or write failed -/
  data : Tab Byte := []
  poison : Bool := false
  failed : Bool := false
  status : Nat := 0
  detail : Nat := 0
  op0 : Nat := 0
  op1 : Nat := 0
  deriving DecidableEq, Repr

/-- R484: the merge under way. `phase`: 1 Draining, 2 Copy or Link. -/
structure ScuMerge where
  index : Nat
  m : Nat
  nodes : Nat
  width : Nat
  slots : Nat
  phase : Nat
  /-- the epoch being retired while Draining -/
  retired : Nat
  deriving DecidableEq, Repr

/-- The Search Unit (R466 to R492). -/
structure Search where
  indexes : Tab ScuIndex := []
  reqs : List ScuReq := []
  nextReq : Nat := 0
  cmdResult : Nat := 0
  merge : Option ScuMerge := none
  mergeResult : Nat := 0
  mergeDone : Nat := 0
  deriving DecidableEq, Repr

/-- R506: who submitted a pool operation. -/
inductive Submitter
  | ld (port n : Nat)
  | agent (module unit : Nat)
  deriving DecidableEq, Repr

/-- What a running pool operation waits for. -/
inductive PouPhase | queued | reading | writing | pieceDone | recording
  deriving DecidableEq, Repr

/-- Bytes a piece read: source, offset in the piece, bytes, and the 64-byte halves of them that were poisoned. -/
structure PouRead where
  src : Nat
  off : Nat
  bytes : List Byte
  halves : List Nat
  deriving DecidableEq, Repr

/-- R506 to R511: a pool operation. -/
structure PouCmd where
  n : Nat
  sub : Submitter
  tenant : Nat
  asid : Nat
  /-- a GSA-mode frame trusted under R134's second case -/
  trusted : Bool
  desc : List Byte
  engine : Option Nat := none
  phase : PouPhase := .queued
  /-- bytes of whole pieces done, and length of the piece under way -/
  done : Nat := 0
  piece : Nat := 0
  pending : Nat := 0
  reads : List PouRead := []
  /-- lines carried poisoned (COPY), lowest differing byte (COMPARE) -/
  carried : Nat := 0
  differ : Option Nat := none
  /-- STATUS and DETAIL of the record once it is to be written -/
  status : Nat := 0
  detail : Nat := 0
  aborting : Bool := false
  deriving DecidableEq, Repr

/-- The Pool Operation Unit (R506 to R512). -/
structure Pou where
  cmds : List PouCmd := []
  next : Nat := 0
  /-- bytes written that do not yet make a KiB of counter 5 -/
  spare : Nat := 0
  /-- submitter and tag of the last 256 commands whose record was written or tried, newest last (R510) -/
  finished : List (Submitter × Nat) := []
  deriving DecidableEq, Repr

/-- R513: a tenant's eight counts, each in its smallest unit: bytes, bytes, atomics, slot·ms, granule·s, ns, work, requests. -/
structure Meter where
  raw : List Nat := [0, 0, 0, 0, 0, 0, 0, 0]
  deriving DecidableEq, Repr

/-- The METER block (R513 to R515). -/
structure MeterBlk where
  tenants : Tab Meter := []
  /-- the snapshot being written -/
  snap : Option (Tab Meter) := none
  stamp : Nat := 0
  /-- last ms and second sampled -/
  ms : Nat := 0
  sec : Nat := 0
  deriving DecidableEq, Repr
/-- What the module sends out: the host interface's outputs, oldest first. -/
inductive Out
  | frame (port : Nat) (f : Frame)
  | msix (port ld vector page : Nat)
  | nipieb (cmd cc inst : Nat) (payload : List Byte)
  | mctp (payload : List Byte)
  /-- S2M DRS MemData: logical device, tag, data, poison, DevLoad -/
  | memData (port ld tag : Nat) (data : List Byte) (poison : Bool) (devLoad : Nat)
  /-- S2M NDR Cmp -/
  | memCmp (port ld tag devLoad : Nat)
  /-- ERR_NONFATAL to a logical device's host (R151) -/
  | errNonfatal (port ld : Nat)
  /-- a CXL.io completion of a register read or configuration request -/
  | cxlIo (port ld : Nat) (value : Nat)
  /-- a mailbox or FM API answer: opcode name, return code, payload -/
  | mailbox (port ld : Nat) (cmd : String) (rc : Nat) (payload : List Nat)
  /-- an SPDM answer on a transport: response code, payload -/
  | spdm (transport code : Nat) (payload : List Byte)
  /-- a LINK_CTRL frame: acknowledged SEQ, replay request, credits granted per class (R251, R252) -/
  | linkCtrl (port ack : Nat) (replayFrom : Option Nat) (credits : List Nat)
  /-- a frame to the other member of a Twinset pair over a bridge port -/
  | bridge (port : Nat) (kind : Nat) (payload : List Nat)
  deriving DecidableEq, Repr

/-- Everything of the module but its command queue and the Pigeonholes. -/
structure Hub where
  regs : Tab Word := []
  /-- uses of Config.freeValue so far: the model's own field (log entry 3) -/
  free : Nat := 0
  /-- bytes that do not yet make a KiB of a counter that counts KiB, by its register -/
  kibSpare : Tab Nat := []
  /-- ns since the state after reset; the VAUX3 domain's time (log entry 5) -/
  clock : Nat := 0
  devTime : Nat := 0
  pins : Pins := {}
  boot : Boot := {}
  pathA : RingPath := {}
  pathB : RingPath := {}
  routes : Tab Route := []
  ports : Tab Port := []
  egress : List QFrame := []
  mirror : MirrorState := {}
  time : TimeState := {}
  armoire : Armoire := {}
  side : Sideband := {}
  ras : Ras := {}
  fitting : Fitting := {}
  sec : Sec := {}
  twin : Twin := {}
  stu : Stu := {}
  tier : Tier := {}
  coh : Coh := {}
  assemblies : List Assembly := []
  shapers : Tab Shaper := []
  nextReq : Nat := 0
  nextTag : Nat := 0
  outstanding : List Outstanding := []
  deadTags : List DeadTag := []
  /-- requests that the other member of a Twinset pair performs (R604), by number -/
  relays : Tab Req := []
  /-- store range and scratchpad windows by module offset, canonical: rising, no zero byte listed -/
  mem : List Host.Cell := []
  /-- poisoned 64-byte halves, by module offset / 64, rising -/
  poison : List Nat := []
  outs : List Out := []
  cxl0 : CxlPort := {}
  cxl1 : CxlPort := {}
  cores : Tab Core := []
  bench : Tab BenchState := []
  cur : CursorEngine := {}
  cloak : Cloak := {}
  emb : Emb := {}
  search : Search := {}
  pou : Pou := {}
  meter : MeterBlk := {}
  deriving DecidableEq, Repr

/-- A word held in a Pigeonhole queue with its stamp (R516). -/
structure PWord where
  word : Word
  stamp : Word
  deriving DecidableEq, Repr

/-- One Pigeonhole: its two queues, oldest word first, and the last dropped word (R515 to R521, R528). -/
structure Hole where
  q0 : List PWord := []
  q1 : List PWord := []
  drop : PWord := ⟨0, 0⟩
  deriving DecidableEq, Repr

/-- The machine: the queue of waiting commands, the Pigeonholes, and the rest. -/
structure State where
  pending : List Instr := []
  holes : Tab Hole := []
  hub : Hub := {}
  deriving DecidableEq, Repr

/-- Why the machine stops with a fault. The spec gives every command of the table an effect, so no meaning raises one. -/
inductive Fault
  /-- never raised (the type needs no more); a stop here would be safe -/
  | unreachable
  deriving DecidableEq, Repr

/-- Why a command has no meaning. -/
inductive Refusal
  /-- raised by Dispatch for a command that has no meaning yet; safe -/
  | notModelled (mnemonic : String)
  deriving DecidableEq, Repr

/-- The module right after reset: without power, every register at its reset value, memory with nothing listed. -/
def State.reset : State := {}

end Sys2Proof.Machine
end

