-- ==== Sys2Proof/Machine/Ops.lean ====
section
/-!
DEFINITION. The named operations over registers, counters, memory and outputs that every meaning uses: R6, R25 to R49,
R170 (CRC-32C), R545 (poison of half lines), R572 and R573 (event log).
-/
namespace Sys2Proof.Machine

/-- R170: one bit step of the reflected CRC-32C. -/
def crcStep : Nat → Nat → Nat
  | 0, c => c
  | k + 1, c => crcStep k (if c % 2 = 1 then (c >>> 1) ^^^ 0x82F63B78 else c >>> 1)

def crcFold : List Byte → Nat → Nat
  | [], c => c
  | b :: bs, c => crcFold bs (crcStep 8 (c ^^^ b.toNat))

/-- R170: CRC-32C, initial value and final XOR all ones. -/
def crc32c (bs : List Byte) : Nat := (crcFold bs 0xFFFFFFFF) ^^^ 0xFFFFFFFF

/-- BAR0 byte offset of a register. -/
def regKey (page off : Nat) : Nat := page * 0x1000 + off

def getReg (page off : Nat) (h : Hub) : Word := Tab.getD h.regs (regKey page off) (w64 (resetOf page off))

def putReg (page off : Nat) (v : Word) (h : Hub) : Hub := { h with regs := Tab.set h.regs (regKey page off) v }

/-- Field [hi:lo] of a register. -/
def regFld (page off hi lo : Nat) (h : Hub) : Nat := fld (getReg page off h) hi lo

def regBit (page off i : Nat) (h : Hub) : Bool := bitOf (getReg page off h) i

def putRegFld (page off hi lo v : Nat) (h : Hub) : Hub := putReg page off (putFld (getReg page off h) hi lo v) h

def emit (o : Out) (h : Hub) : Hub := { h with outs := h.outs ++ [o] }

/-- A value nothing constrains: Config.freeValue at the next count (log entry 3). -/
def fresh (h : Hub) : Word × Hub := (Config.freeValue h.free, { h with free := h.free + 1 })

/-- n bytes nothing constrains. -/
def freshBytes : Nat → Hub → List Byte × Hub
  | 0, h => ([], h)
  | n + 1, h =>
    let r := fresh h
    let t := freshBytes n r.2
    (BitVec.ofNat 8 r.1.toNat :: t.1, t.2)

/-- R109, R578: the CXLP and RING pages, which a warm reset leaves as they are. -/
def warmExempt (page : Nat) : Bool := page == 0x30 || page == 0x31 || page == 0x348

/-- CTRL.ENABLE of a page (R34, R611); held at 0 while Clocking loads the bundle (R578). -/
def enabled (page : Nat) (h : Hub) : Bool := regBit page 0x10 0 h && !(h.boot.loading && !(h.boot.warm && warmExempt page))

/-- DEV_MODULE_ID (R52). -/
def moduleValid (h : Hub) : Bool := regBit 0 0x50 31 h
def moduleId (h : Hub) : Nat := regFld 0 0x50 9 0 h

/-- R569's log, R573: one record, at most 1,000 a second (R571); bytes to the counters of R591 are counted by the caller. -/
def armoireAppend (kind : Nat) (detail : List Byte) (h : Hub) : Hub :=
  let a := h.armoire
  let sec := h.clock / 1000000000
  let n := if a.logSecond = sec then a.logInSecond else 0
  if n ≥ 1000 then
    let c := getReg 0x310 0x818 h
    putReg 0x310 0x818 (w64 (min (c.toNat + 1) 0xFFFFFFFFFFFF)) h
  else
    let r : EventRecord := ⟨kind, h.time.calSeconds, h.time.poh, detail⟩
    let a' := { a with log := (a.log ++ [r]).drop ((a.log.length + 1) - 262144), logSecond := sec, logInSecond := n + 1,
                       updates := Tab.modify a.updates 9 0 (· + 1) }
    let c := getReg 0x310 0x810 h
    putReg 0x310 0x810 (w64 (min (c.toNat + 1) 0xFFFFFFFFFFFF)) { h with armoire := a' }

/-- Any class 1 counter of the page at all ones (R49). -/
def csat (page : Nat) (h : Hub) : Bool :=
  match pageInfo page with
  | none => false
  | some p => (List.range 24).any (fun k => counterClass p k == 1 && (getReg page (0x800 + 8 * k) h).toNat == 0xFFFFFFFFFFFF)

/-- The instance behind a page is absent or retired (R95, R119). -/
def instanceAbsent (p : PageInfo) (h : Hub) : Bool :=
  match p.blk with
  | .hbmc => !h.boot.hbmOk.testBit p.inst
  | .ddrc => !h.boot.ddrOk.testBit p.inst
  | .core => (nth h.boot.coreMap p.inst 0xFF) == 0xFF
  | .bench => (nth h.boot.benchMap p.inst 0xFF) == 0xFF
  | _ => false

/-- The training code of R99. -/
def portCode : PortState → Nat
  | .disabled => 0 | .detect => 1 | .equalise => 2 | .laneMap => 3 | .qualify => 4 | .ready => 5 | .retry => 6

def getPort (p : Nat) (h : Hub) : Port := Tab.getD h.ports p {}

def putPort (p : Nat) (v : Port) (h : Hub) : Hub := { h with ports := Tab.set h.ports p v }

/-- STATUS.BLOCK of a PORT page (R287); other blocks define none. -/
def statusBlock (p : PageInfo) (h : Hub) : Nat :=
  match p.blk with
  | .port =>
    let q := getPort p.inst h
    mkFld 31 28 q.level + mkFld 20 20 (bit01 (q.txRetired.isSome || q.rxRetired.isSome)) + mkFld 19 16 (portCode q.st)
  | _ => 0

/-- ERR_STATUS bits that signal: unmasked, INJECTED left out (R35, R39). -/
def errActive (page : Nat) (h : Hub) : Bool :=
  ((getReg page 0x18 h) &&& ~~~ (getReg page 0x1C h) &&& ~~~ (w64 4)) != 0

/-- STATUS (R35). An instance reads FENCED when it is absent, when its core is fenced, or when the module is. -/
def statusReg (page : Nat) (h : Hub) : Nat :=
  match pageInfo page with
  | none => 0
  | some p =>
    let ready := h.boot.phase == .ready && !instanceAbsent p h
    let coreOut := match p.blk with | .core => (Tab.getD h.cores p.inst {}).st != .inService | _ => false
    let fenced := instanceAbsent p h || coreOut || h.ras.fence != .serving
    statusBlock p h + mkFld 3 3 (bit01 (errActive page h)) + mkFld 2 2 (bit01 (csat page h)) +
      mkFld 1 1 (bit01 fenced) + mkFld 0 0 (bit01 ready)

/-- The signal condition of R47. -/
def sigCond (page : Nat) (h : Hub) : Bool :=
  errActive page h ||
  (match pageInfo page with
   | none => false
   | some p =>
     match eventRegs p with
     | none => false
     | some (e, m) => ((getReg page e h) &&& ~~~ (getReg page m h)) != 0)

/-- R46, R47: the MSI-X half of a signal. -/
def signalMsix (page : Nat) (h : Hub) : Hub :=
  let r := getReg page 0x30 h
  if bitOf r 13 then emit (.msix (fld r 12 12) (fld r 11 8) (fld r 5 0) page) h else h

/-- R37, R38: capture an unmasked error. -/
def captureFirst (page bit : Nat) (h : Hub) : Hub :=
  let f := getReg page 0x20 h
  if bitOf f 63 then putReg page 0x20 (putBit f 62 true) h
  else putReg page 0x20 (w64 (mkFld 63 63 1 + mkFld 52 48 bit + mkFld 47 0 h.devTime) ||| (w64 (mkFld 62 62 (fld f 62 62)))) h

/-- Sets an ERR_STATUS bit and captures it; no signal yet. -/
def setErrBit (page bit : Nat) (h : Hub) : Hub :=
  let h1 := putReg page 0x18 (putBit (getReg page 0x18 h) bit true) h
  if regBit page 0x1C bit h then h1 else captureFirst page bit h1

/-- An error of a page met while a frame is on its way out: recorded, and signalled by MSI-X alone (log entry 6). -/
def raiseQuiet (page bit : Nat) (h : Hub) : Hub :=
  let h1 := setErrBit page bit h
  if sigCond page h1 && !sigCond page h then signalMsix page h1 else h1

/-- R48, R49: add n to a counter slot; a class 2 counter that saturates sets LSAT and is recorded in the Armoire. -/
def count (page slot n : Nat) (h : Hub) : Hub :=
  match pageInfo page with
  | none => h
  | some p =>
    let old := (getReg page (0x800 + 8 * slot) h).toNat
    if counterClass p slot = 1 then
      if regBit page 0x10 1 h then h
      else putReg page (0x800 + 8 * slot) (w64 (min (old + n) 0xFFFFFFFFFFFF)) h
    else if counterClass p slot = 2 then
      let v := min (old + n) 0xFFFFFFFFFFFFFFFF
      let h1 := putReg page (0x800 + 8 * slot) (w64 v) h
      if v = 0xFFFFFFFFFFFFFFFF ∧ old ≠ v then
        armoireAppend 0x05 (bytesLE 2 page ++ bytesLE 2 slot) (raiseQuiet page 3 h1)
      else h1
    else h

/-- R48: bytes to a counter that counts KiB; what does not make a KiB is kept. -/
def countKib (page slot bytes : Nat) (h : Hub) : Hub :=
  let t := Tab.getD h.kibSpare (regKey page (0x800 + 8 * slot)) 0 + bytes
  count page slot (t / 1024) { h with kibSpare := Tab.set h.kibSpare (regKey page (0x800 + 8 * slot)) (t % 1024) }

/-- R513: the smallest unit of each metering counter in its own count: 4 KiB, 4 KiB, 1,000, 1, 64, 1,000 ns, 1, 1. -/
def meterUnit (i : Nat) : Nat := nth [4096, 4096, 1000, 1, 64, 1000, 1, 1] i 1

/-- R513: n more of what counter i of a tenant counts; the remainder is kept, and the counter holds at its limit (R48). -/
def meterAdd (tenant i n : Nat) (h : Hub) : Hub :=
  if n = 0 then h
  else
    let m := Tab.getD h.meter.tenants tenant {}
    let old := nth m.raw i 0
    let lim := 0xFFFFFFFFFFFFFFFF * meterUnit i
    let v := min (old + n) lim
    let h1 := { h with meter := { h.meter with tenants := Tab.set h.meter.tenants tenant ⟨listSet m.raw i v⟩ } }
    if v = lim ∧ old ≠ lim then armoireAppend 0x05 (bytesLE 2 0xE0 ++ bytesLE 2 i) (raiseQuiet 0xE0 3 h1) else h1

/-- R573: an event log record, with the counters of R591. -/
def logEvent (kind : Nat) (detail : List Byte) (h : Hub) : Hub := armoireAppend kind detail h

/- ### Memory: bytes by module offset, canonical (rising addresses, no zero byte listed) -/

/-- What an unlisted byte reads: zero (R97, R176, R182; log entry 7). -/
def memDefault : Byte := 0#8

def memGet : List Host.Cell → Nat → Byte
  | [], _ => memDefault
  | (i, b) :: t, k => if i = k then b else memGet t k

/-- Strictly rising from lo on, no byte equal to what an unlisted address reads as. -/
def memWfFrom : Nat → List Host.Cell → Bool
  | _, [] => true
  | lo, (i, b) :: t => decide (lo ≤ i) && decide (b ≠ memDefault) && memWfFrom (i + 1) t

/-- The canonical form of memory. -/
def Memory.wf (m : List Host.Cell) : Bool := memWfFrom 0 m

/-- n bytes from a on of cells that rise from a. -/
def memWalk : Nat → Nat → List Host.Cell → List Byte
  | 0, _, _ => []
  | n + 1, a, [] => memDefault :: memWalk n (a + 1) []
  | n + 1, a, (i, b) :: t => if i = a then b :: memWalk n (a + 1) t else memDefault :: memWalk n (a + 1) ((i, b) :: t)

/-- The n bytes from a on. -/
def memGetN (m : List Host.Cell) (a n : Nat) : List Byte := memWalk n a (m.filter (fun c => decide (a ≤ c.1 ∧ c.1 < a + n)))

/-- The cells of bytes from a on; one that reads as an unlisted byte is not listed. -/
def memCells : Nat → List Byte → List Host.Cell
  | _, [] => []
  | a, b :: bs => if b = memDefault then memCells (a + 1) bs else (a, b) :: memCells (a + 1) bs

/-- Write bytes from a on. -/
def memPutN (m : List Host.Cell) (a : Nat) (bs : List Byte) : List Host.Cell :=
  m.filter (fun c => decide (c.1 < a)) ++ memCells a bs ++ m.filter (fun c => decide (a + bs.length ≤ c.1))

/-- Bytes a to a+n−1 return to what an unlisted byte reads. -/
def memClear (m : List Host.Cell) (a n : Nat) : List Host.Cell :=
  m.filter (fun c => decide (c.1 < a ∨ a + n ≤ c.1))

/- ### Poison of 64-byte halves -/

def insertNat : List Nat → Nat → List Nat
  | [], k => [k]
  | i :: t, k => if i = k then i :: t else if k < i then k :: i :: t else i :: insertNat t k

def insertNats (l : List Nat) (ks : List Nat) : List Nat := ks.foldl insertNat l

/-- The halves bytes a to a+n−1 touch. -/
def halvesOf (a n : Nat) : List Nat := if n = 0 then [] else natRange (a / 64) ((a + n - 1) / 64 - a / 64 + 1)

/-- The halves wholly inside bytes a to a+n−1. -/
def wholeHalves (a n : Nat) : List Nat := natRange (ceilDiv a 64) ((a + n) / 64 - ceilDiv a 64)

def anyPoison (a n : Nat) (h : Hub) : Bool := (halvesOf a n).any (fun k => h.poison.contains k)

def addPoison (a n : Nat) (h : Hub) : Hub := { h with poison := insertNats h.poison (halvesOf a n) }

def clearPoison (ks : List Nat) (h : Hub) : Hub := { h with poison := h.poison.filter (fun k => !ks.contains k) }

/-- R545: bytes written in one request: whole halves written with good data lose their poison. -/
def memWrite (a : Nat) (bs : List Byte) (poisoned : Bool) (h : Hub) : Hub :=
  let h1 := { h with mem := memPutN h.mem a bs }
  if poisoned then addPoison a bs.length h1 else clearPoison (wholeHalves a bs.length) h1

/-- R547: bytes as a read returns them: poisoned halves read 0xFF, the others as stored; and whether any was poisoned. -/
def memRead (a n : Nat) (h : Hub) : List Byte × Bool :=
  if anyPoison a n h then
    ((natRange a n).map (fun k => if h.poison.contains (k / 64) then 0xFF#8 else memGet h.mem k), true)
  else (memGetN h.mem a n, false)

/-- The poison pattern of R264. -/
def poisonPattern (n : Nat) : List Byte := List.replicate n 0xFF#8

/- ### A member of a Twinset pair -/

/-- R599: a Twinset member that is not Joined serves nothing. -/
def twinHolds (h : Hub) : Bool := h.twin.en && h.twin.st != .joined

/-- R603: the module acts as a member of a pair. -/
def pairJoined (h : Hub) : Bool := h.twin.en && h.twin.st == .joined

/-- R603: a tile that the other member of the pair holds. -/
def otherTile (t : Nat) (h : Hub) : Bool := pairJoined h && t % 2 != h.twin.role

/- ### Address map of R128, R129 -/

def storeEnd : Nat := 0x200000000000
def windowBase : Nat := 0x3F0000000000

/-- The store range. -/
def inStore (a n : Nat) : Bool := decide (a + n ≤ storeEnd)

/-- R129, R603: the scratchpad windows that exist. -/
def windows (h : Hub) : Nat := if pairJoined h then 128 else 64

/-- Bytes a to a+n−1 lie in a window's scratchpad. -/
def inWindow (a n : Nat) (h : Hub) : Bool :=
  decide (windowBase ≤ a ∧ (a - windowBase) / 0x200000 < windows h ∧ (a - windowBase) % 0x200000 + n ≤ 0x180000)

/-- R603: this member's windows are numbered 0 to 63 inside the model, the other member's 64 to 127. -/
def pairWindow (a : Nat) (h : Hub) : Nat :=
  if pairJoined h ∧ h.twin.role = 1 ∧ windowBase ≤ a ∧ a < windowBase + 128 * 0x200000 then
    (if a < windowBase + 64 * 0x200000 then a + 64 * 0x200000 else a - 64 * 0x200000)
  else a

/-- R603: a byte of the pair's space that the other member holds, by this member's numbering. -/
def otherHolds (a : Nat) (h : Hub) : Bool :=
  if windowBase ≤ a then pairJoined h && decide (windowBase + 64 * 0x200000 ≤ a) else otherTile (a / 65536) h

/-- Module offset of byte o of core k's scratchpad. -/
def scratchAddr (k o : Nat) : Nat := windowBase + k * 0x200000 + o

/- ### Time -/

def usToNs (n : Nat) : Nat := n * 1000
def msToNs (n : Nat) : Nat := n * 1000000

/-- The dead-target bound in TB ticks (R264, R291). -/
def deadBound (h : Hub) : Nat := usToNs (max 10 (min 100000 (regFld 0x40 0x44 16 0 h)))

/-- R98, R599: Memory_Active. -/
def memActive (h : Hub) : Bool := h.boot.phase == .ready && !twinHolds h

/-- The module serves requests: phase Ready, not fenced, and no member that is not Joined (R107, R560, R599). -/
def serving (h : Hub) : Bool := h.boot.phase == .ready && h.ras.fence == .serving && !twinHolds h

end Sys2Proof.Machine
end

