-- ==== Sys2Proof/Machine/Egress.lean ====
section
/-!
DEFINITION. Frames on their way out: the header bytes (R246), routing (R273 to R278), the switch buffer and its
scheduling (R267 to R269, R272), the replay buffer and credits (R251, R252), the mirror ring (R283 to R285), event
frames (R262) and the signal of a page (R47).
-/
namespace Sys2Proof.Machine

/-- R246: header word 0. -/
def headerW0 (f : Frame) : Nat :=
  mkFld 9 0 f.dstModule + mkFld 17 10 f.dstUnit + mkFld 27 18 f.srcModule + mkFld 35 28 f.srcUnit + mkFld 43 36 f.opcode +
  mkFld 46 44 f.tc + mkFld 47 47 (bit01 f.cm) + mkFld 51 48 f.load + mkFld 55 52 f.plevel + mkFld 56 56 (bit01 f.poison) +
  mkFld 57 57 (bit01 f.posted) + mkFld 58 58 (bit01 f.turned)

/-- R246: header word 1. -/
def headerW1 (f : Frame) : Nat := mkFld 11 0 f.tenant + mkFld 27 12 f.asid + mkFld 43 28 f.seq + mkFld 59 44 f.tag

/-- R246: header bytes 0x00 to 0x3B. -/
def headerBody (f : Frame) : List Byte :=
  bytesLE 8 (headerW0 f) ++ bytesLE 8 (headerW1 f) ++ bytesLE 8 (mkFld 56 0 f.addr) ++
  bytesLE 8 (mkFld 12 0 f.len + mkFld 23 16 f.status + mkFld 31 24 f.detail + mkFld 63 32 f.aux) ++
  bytesLE 8 f.operand0 ++ bytesLE 8 f.operand1 ++ bytesLE 8 (mkFld 47 0 f.issueTime + mkFld 53 48 f.hops) ++ bytesLE 4 0

/-- The 64 header bytes, HCRC included. -/
def headerBytes (f : Frame) : List Byte := headerBody f ++ bytesLE 4 (crc32c (headerBody f))

/-- SCARRY of a payload (R247). -/
def scarryOf (bs : List Byte) : Nat := if bs = [] then 0 else crc32c bs

/-- R267: cells of a frame. -/
def frameCells (f : Frame) : Nat := ceilDiv (64 + (ceilDiv f.payload.length 16) * 16 + 16) 64

def frameBytes (f : Frame) : Nat := 64 + (ceilDiv f.payload.length 16) * 16 + 16

/-- R276: the path hash, CRC-32C over SRC_MODULE, SRC_UNIT, DST_MODULE, DST_UNIT and TC (log entry 8 for the byte layout). -/
def pathHash (f : Frame) : Nat :=
  crc32c (bytesLE 2 f.srcModule ++ bytesLE 1 f.srcUnit ++ bytesLE 2 f.dstModule ++ bytesLE 1 f.dstUnit ++ bytesLE 1 f.tc)

/-- R596: B0 to B7. -/
def bridgePorts : List Nat := [8, 9, 14, 15, 20, 21, 26, 27]

/-- PORT_BIND.MODE as it acts: 1 transit, 2 bridge (R596 under Twinset), else agent. -/
def bindMode (p : Nat) (h : Hub) : Nat :=
  if h.twin.en && (bridgePorts.contains p) then 2
  else
    let m := regFld (0x10 + p) 0x58 33 32 h
    if m = 3 then 0 else m

def portReady (p : Nat) (h : Hub) : Bool :=
  (getPort p h).st == .ready && !regBit (0x10 + p) 0x40 1 h

def isRingPort (p : Nat) : Bool := decide (p < 4)

/-- R274: the agent port whose range holds a unit. -/
def agentPort (unit : Nat) (h : Hub) : Option Nat :=
  (natRange 4 24).find? (fun p =>
    bindMode p h == 0 &&
    (let b := getReg (0x10 + p) 0x58 h
     decide (fld b 23 16 ≤ unit ∧ unit < fld b 23 16 + fld b 30 24)))

/- ### The switch buffer (R267, R268) -/

def bufUsed (h : Hub) : Nat := ((h.egress.filter (fun q => !q.waits)).map (·.cells)).sum

def sharedUsed (h : Hub) : Nat := ((h.egress.filter (fun q => !q.reserve && !q.waits)).map (·.cells)).sum

def sharedFree (h : Hub) : Nat := 1014784 - sharedUsed h

/-- Cells of ingress port p and class c held in its reserve. -/
def reserveUsed (p c : Nat) (h : Hub) : Nat :=
  ((h.egress.filter (fun q => q.reserve && !q.waits && q.ingress == p && q.frame.tc == c)).map (·.cells)).sum

/-- Cells of egress port p, and of its class c. -/
def queueCells (p : Nat) (h : Hub) : Nat := ((h.egress.filter (fun q => q.egress == p && !q.waits)).map (·.cells)).sum

def classCells (p c : Nat) (h : Hub) : Nat :=
  ((h.egress.filter (fun q => q.egress == p && !q.waits && q.frame.tc == c)).map (·.cells)).sum

/-- R268: may n more cells be written into the shared cells toward egress port p? -/
def shareRoom (p n : Nat) (h : Hub) : Bool :=
  decide (queueCells p h * 16 ≤ sharedFree h * max 1 (regFld 0x40 0x48 6 0 h)) && decide (n ≤ sharedFree h)

/-- R268, R277: is a frame of n cells admitted to egress port p: some true into its reserve, some false into the shared
cells. A frame that enters a ring direction from a client port or a local unit leaves room for two maximum frames. -/
def admitTo (ingress p tc n : Nat) (h : Hub) : Option Bool :=
  let more := if decide (p < 4) && decide (4 ≤ ingress) then 132 else 0
  if reserveUsed ingress tc h + n + more ≤ 132 then some true
  else if shareRoom p (n + more) h then some (decide (reserveUsed ingress tc h + n ≤ 132))
  else none

/- ### The mirror ring -/

/-- R283, R284: why a frame was dropped. -/
inductive DropCause | none | bind | level | stomped | hopLimit | noRoute | portDown | buffer
  deriving DecidableEq, Repr

def dropCode : DropCause → Nat
  | .none => 0 | .bind => 1 | .level => 2 | .stomped => 3 | .hopLimit => 4 | .noRoute => 5 | .portDown => 6 | .buffer => 7

/-- R283: does filter k take frame f at switch port sp, egress or ingress? -/
def mirrorHit (k sp : Nat) (egress : Bool) (f : Frame) (h : Hub) : Bool :=
  let w j := (getReg 0x48 (0x80 + 32 * k + 8 * j) h).toNat
  regBit 0x48 (0x120 + 4 * k) 31 h &&
  decide (((headerW0 f ^^^ w 0) &&& w 1) = 0) && decide (((headerW1 f ^^^ w 2) &&& w 3) = 0) &&
  regBit 0x48 (0x100 + 8 * k) (if egress then 32 + sp else sp) h

/-- R284: a record. -/
def mirrorRecord (f : Frame) (sp flags : Nat) (d : DropCause) (h : Hub) : List Byte :=
  headerBytes f ++ bytesLE 8 h.devTime ++ bytesLE 1 sp ++ bytesLE 1 flags ++ bytesLE 1 (dropCode d) ++ bytesLE 5 0 ++
  (if regBit 0x48 0x40 1 h then sliceBytes f.payload 0 48 else List.replicate 48 0#8)

/-- Matches of R283 counted per filter; the filters that take this frame after sampling. -/
def mirrorTake (sp : Nat) (egress : Bool) (f : Frame) (h : Hub) : Nat × List Nat :=
  (List.range 4).foldl (fun acc k =>
    if mirrorHit k sp egress f h then
      let n := nth acc.2 k 0
      let keep := decide (n % 2 ^ (regFld 0x48 (0x120 + 4 * k) 4 0 h) = 0)
      ((if keep then acc.1 + 2 ^ k else acc.1), listSet acc.2 k (n + 1))
    else acc) (0, h.mirror.matched)

/-- R283 to R285: compare a frame at a point, and queue its record for the ring (written at the next tick, log entry 11). -/
def mirrorPoint (sp : Nat) (egress cut : Bool) (d : DropCause) (f : Frame) (h : Hub) : Hub :=
  if !enabled 0x48 h then h
  else
    let r := mirrorTake sp egress f h
    let m := { h.mirror with matched := r.2 }
    let h0 := { h with mirror := m }
    if r.1 = 0 ∨ m.full then h0
    else
      let win := h.devTime / 1000
      let used := if m.window = win then m.inWindow else 0
      if used ≥ max 1 (regFld 0x48 0x40 15 8 h) then count 0x48 1 1 { h0 with mirror := { m with window := win, inWindow := used } }
      else
        let total := 2 ^ (min 16 (regFld 0x48 0x50 4 0 h)) * 512
        let base := mkFld 45 0 ((getReg 0x48 0x48 h).toNat)
        let flags := bit01 egress + 2 * bit01 cut + 4 * bit01 (d != .none) + 8 * (r.1 % 16)
        let rec_ := (base + 128 * m.next, mirrorRecord f sp flags d h)
        let last := m.next + 1 = total
        let stop := last ∧ regBit 0x48 0x40 0 h
        let m1 := { m with window := win, inWindow := used + 1,
                           next := if stop then m.next else if last then 0 else m.next + 1,
                           wrapped := m.wrapped || (last && !regBit 0x48 0x40 0 h), full := m.full || decide stop, buf := m.buf ++ [rec_] }
        count 0x48 0 1 { h0 with mirror := m1 }

/- ### Scheduling (R269) and sending (R251, R252) -/

/-- The first queued frame of an egress port and class. -/
def headOf (p c : Nat) (h : Hub) : Option QFrame := h.egress.find? (fun q => q.egress == p && !q.waits && q.frame.tc == c)

/-- Bytes held in a port's replay buffer, and its size. -/
def replayBytes (q : Port) : Nat := (q.replay.map (fun s => frameBytes s.frame)).sum
def replaySize (p : Nat) : Nat := if isRingPort p then 1048576 else 262144

/-- A class of a port has a frame whose credits and replay space are there. -/
def canSend (p c : Nat) (h : Hub) : Bool :=
  match headOf p c h with
  | none => false
  | some q =>
    decide (q.cells ≤ nth (getPort p h).credits c 0) &&
    decide (replayBytes (getPort p h) + frameBytes q.frame ≤ replaySize p)

/-- Class 7's bytes in the current 10 us window. -/
def tc7Used (q : Port) (h : Hub) : Nat := if q.tc7Window = h.devTime / 10000 then q.tc7Bytes else 0

/-- R269: class 7 keeps strict priority up to TC7_CAP/256 of the window: 400 GB/s gives 4,000,000 bytes in 10 us. -/
def tc7Strict (p : Nat) (h : Hub) : Bool :=
  decide (tc7Used (getPort p h) h * 256 < regFld 0x40 0x40 15 8 h * 4000000)

def classWeight (c : Nat) (h : Hub) : Nat :=
  if c = 7 then 255 else max 1 (regFld 0x40 0x50 (8 * c + 7) (8 * c) h)

/-- Deficit round robin over classes from position `at_`: the class to send and the deficits as they then stand. -/
def drrPick (p : Nat) (h : Hub) : Nat → Nat → List Nat → Option (Nat × Nat × List Nat)
  | 0, _, _ => none
  | fuel + 1, at_, def_ =>
    let c := at_ % 8
    if canSend p c h then
      let need := match headOf p c h with | some q => frameBytes q.frame | none => 0
      let d := nth def_ c 0
      if need ≤ d then some (c, c, listSet def_ c (d - need))
      else drrPick p h fuel (at_ + 1) (listSet def_ c (d + 512 * classWeight c h))
    else drrPick p h fuel (at_ + 1) (listSet def_ c 0)

def removeFirst (p c : Nat) : List QFrame → List QFrame
  | [] => []
  | q :: t => if q.egress = p ∧ q.frame.tc = c ∧ q.waits = false then t else q :: removeFirst p c t

/-- R268, R277: frames that wait for room are admitted in order, none past an earlier one of its ingress, egress and class. -/
def admitWaiting (h : Hub) : Hub :=
  let r := h.egress.foldl (fun (acc : List QFrame × Hub) q =>
    if !q.waits || acc.1.any (fun b => b.waits && b.egress == q.egress && b.ingress == q.ingress && b.frame.tc == q.frame.tc) then
      (acc.1 ++ [q], acc.2)
    else
      match admitTo q.ingress q.egress q.frame.tc q.cells acc.2 with
      | some inReserve =>
        let q1 : QFrame := { q with waits := false, reserve := inReserve }
        (acc.1 ++ [q1], { acc.2 with egress := acc.2.egress ++ [q1] })
      | none => (acc.1 ++ [q], acc.2)) (([] : List QFrame), { h with egress := h.egress.filter (fun q => !q.waits) })
  { h with egress := r.1 }

/-- Send the head frame of class c of port p on its link. -/
def sendHead (p c : Nat) (h : Hub) : Hub :=
  match headOf p c h with
  | none => h
  | some q =>
    let o := getPort p h
    let f := { q.frame with seq := o.txSeq, crcOk := true }
    let o1 := { o with txSeq := (o.txSeq + 1) % 65536,
                       credits := listSet o.credits c (nth o.credits c 0 - q.cells),
                       replay := o.replay ++ [⟨f, h.devTime, 0⟩],
                       tc7Bytes := if c = 7 then tc7Used o h + frameBytes f else tc7Used o h,
                       tc7Window := h.devTime / 10000 }
    admitWaiting { h with egress := removeFirst p c h.egress }
      |> putPort p o1
      |> emit (.frame p f)
      |> count (0x10 + p) 1 1
      |> countKib (0x10 + p) 3 (frameBytes f)
      |> (fun x => if bindMode p x = 2 then countKib 0x340 2 (frameBytes f) (count 0x340 0 1 x) else x)
      |> mirrorPoint p true q.cut .none f

/-- R270: does a frame cut through? The model sends a frame at once, so no port is ever found transmitting (log entry 33). -/
def cutsThrough (ingress p : Nat) (f : Frame) (h : Hub) : Bool :=
  decide (ingress < 28) && f.crcOk && regBit (0x10 + ingress) 0x40 0 h && regBit (0x10 + p) 0x40 0 h &&
  !h.egress.any (fun q => q.egress == p) && decide (frameCells f ≤ nth (getPort p h).credits f.tc 0) &&
  (admitTo ingress p f.tc (frameCells f) h).isSome

/-- Send everything that may leave port p now (R252, R269). -/
def drainPort (p : Nat) : Nat → Hub → Hub
  | 0, h => h
  | fuel + 1, h =>
    if !portReady p h then h
    else if tc7Strict p h && canSend p 7 h then drainPort p fuel (sendHead p 7 h)
    else
      let o := getPort p h
      match drrPick p h 128 o.rrNext o.deficit with
      | none => h
      | some (c, nx, d) => drainPort p fuel (sendHead p c (putPort p { o with deficit := d, rrNext := nx } h))

/-- A frame dropped at a switch port. -/
def dropFrame (sp : Nat) (egress : Bool) (d : DropCause) (f : Frame) (h : Hub) : Hub := mirrorPoint sp egress false d f h

/-- R271: a pending injection into the next frame written into the switch buffer (R563, target 0x6): reported on page
0x0040; an uncorrectable one sets POISON when there is a payload, and drops the frame otherwise. -/
def injectFrame (rz : Nat → Nat → Hub → Hub) (f : Frame) (h : Hub) : Option Frame × Hub :=
  match h.ras.injection with
  | some ⟨6, _, ue⟩ =>
    let h1 := { h with ras := { h.ras with injection := none } }
      |> count 0x300 3 1
      |> (fun x => putReg 0x40 0x18 (putBit (getReg 0x40 0x18 x) 2 true) x)
    if ue then
      ((if f.payload = [] then none else some { f with poison := true }), rz 0x40 18 h1)
    else (some f, count 0x40 5 1 (rz 0x40 17 h1))
  | _ => (some f, h)

/-- R267, R268, R272, R278: put a frame on the queue of egress port p and send what may leave. `rz` records an error. -/
def enqueue (rz : Nat → Nat → Hub → Hub) (ingress p : Nat) (f : Frame) (h : Hub) : Hub :=
  if !portReady p h then
    count (0x10 + p) 10 1 (dropFrame p true .portDown f h)
  else
    let lim := regFld 0x348 0x104 5 0 h
    let lim := if lim = 0 then 63 else lim
    if f.hops + 1 > lim then
      rz 0x348 21 (count 0x348 17 1 (dropFrame p true .hopLimit f h))
    else
      match injectFrame rz f h with
      | (none, h0) => dropFrame p true .buffer f h0
      | (some f0, h0) =>
        let mark := decide (regFld 0x40 0x4C 19 0 h0 ≤ classCells p f0.tc h0)
        let f1 := { f0 with hops := f0.hops + 1, cm := f0.cm || mark }
        let cells := frameCells f1
        let cut := cutsThrough ingress p f1 h0
        let q : QFrame :=
          match admitTo ingress p f0.tc cells h0 with
          | some inReserve => { egress := p, ingress := ingress, cells := cells, reserve := inReserve, cut := cut, frame := f1 }
          | none => { egress := p, ingress := ingress, cells := cells, reserve := false, waits := true, frame := f1 }
        let h1 := { h0 with egress := h0.egress ++ [q] }
        let h2 := count 0x40 0 1 (if mark && !f0.cm then count 0x40 2 1 h1 else h1)
        let h2 := if cut then count 0x40 1 1 h2 else h2
        drainPort p (h2.egress.length) h2

/-- The direction a ring port faces: East for P0, P1 (R74). -/
def eastPorts : List Nat := [0, 1]
def westPorts : List Nat := [2, 3]

/-- R276: the ring port in a direction, the hashed path first; whether it is the fallback. -/
def ringPort (ports : List Nat) (f : Frame) (h : Hub) : Option (Nat × Bool) :=
  let a := nth ports (pathHash f % 2) 0
  let b := nth ports (1 - pathHash f % 2) 0
  if portReady a h then some (a, false) else if portReady b h then some (b, true) else none

/-- R276: send a frame East or West, turning it once where neither port is Ready. -/
def sendRing (rz : Nat → Nat → Hub → Hub) (ingress : Nat) (east : Bool) (f : Frame) (h : Hub) : Hub :=
  match ringPort (if east then eastPorts else westPorts) f h with
  | some (p, fb) => enqueue rz ingress p f (count 0x348 16 1 (if fb then count 0x348 19 1 h else h))
  | none =>
    if regBit 0x348 0x104 8 h && !f.turned then
      match ringPort (if east then westPorts else eastPorts) f h with
      | some (p, _) => enqueue rz ingress p { f with turned := true } (count 0x348 16 1 (count 0x348 19 1 h))
      | none => rz 0x348 23 (count 0x348 18 1 (dropFrame ingress false .noRoute f h))
    else rz 0x348 23 (count 0x348 18 1 (dropFrame ingress false .noRoute f h))

/-- What routing a frame for another module comes to (R275, R276). -/
inductive Routed
  | ring (east : Bool)
  | client (port : Nat)
  | dead
  | absent
  deriving DecidableEq, Repr

/-- R275, R276: `inRing`: the ring port a frame arrived on, if it did. -/
def routeOf (dst : Nat) (inPort : Option Nat) (h : Hub) : Routed :=
  let r := Tab.getD h.routes dst {}
  let keep := match inPort with
    | some p => if p = 2 ∨ p = 3 then some true else if p = 0 ∨ p = 1 then some false else none
    | none => none
  match keep with
  | some e => if r.v && r.kind == 2 then .client r.port else if r.v && r.kind == 3 then .dead else .ring e
  | none =>
    if !r.v then .absent
    else if r.kind = 0 then .ring true
    else if r.kind = 1 then .ring false
    else if r.kind = 2 then .client r.port
    else .dead

/-- R598: the bridge port a frame between members crosses. -/
def bridgePort (f : Frame) (h : Hub) : Option Nat :=
  let ps := bridgePorts.filter (fun p => portReady p h)
  ps[pathHash f % 8 % ps.length]?

def readyBridges (h : Hub) : List Nat := bridgePorts.filter (fun p => portReady p h)

/-- R598, R610: a bridge frame leaves on port p, counted. -/
def bridgeSend (p kind : Nat) (payload : List Nat) (h : Hub) : Hub := count 0x340 0 1 (emit (.bridge p kind payload) h)

/-- A bridge frame on every Ready bridge port. -/
def bridgeAll (kind : Nat) (payload : List Nat) (h : Hub) : Hub := (readyBridges h).foldl (fun x p => bridgeSend p kind payload x) h

/-- A bridge frame on one Ready bridge port, where one is Ready. -/
def bridgeOne (kind : Nat) (payload : List Nat) (h : Hub) : Hub :=
  match readyBridges h with
  | p :: _ => bridgeSend p kind payload h
  | [] => h

/-- R604: a frame to the other member. -/
def sendBridge (rz : Nat → Nat → Hub → Hub) (f : Frame) (h : Hub) : Hub :=
  match bridgePort f h with
  | some p => enqueue rz 31 p f h
  | none => dropFrame 31 false .noRoute f h

/-- A frame this module made (or passes to one of its agents), sent toward its destination; dropped where nothing leads
there (R274, R275, R279). Frames for units of this module itself are not sent by this operation. -/
def sendOut (rz : Nat → Nat → Hub → Hub) (f : Frame) (h : Hub) : Hub :=
  if !moduleValid h then dropFrame 30 false .noRoute f h
  else if f.dstModule = moduleId h then
    match agentPort f.dstUnit h with
    | some p => enqueue rz 31 p f h
    | none =>
      if pairJoined h then sendBridge rz f h else rz 0x348 23 (count 0x348 18 1 (dropFrame 31 false .noRoute f h))
  else if h.ras.fence != .serving then dropFrame 31 false .noRoute f h
  else
    match routeOf f.dstModule none h with
    | .ring e => sendRing rz 31 e f h
    | .client p => enqueue rz 31 p f h
    | .dead => dropFrame 31 false .noRoute f h
    | .absent => rz 0x348 23 (count 0x348 18 1 (dropFrame 31 false .noRoute f h))

/- ### Signals -/

/-- R262: the event frame of a page. -/
def eventFrame (page : Nat) (h : Hub) : Frame :=
  let r := getReg page 0x30 h
  let ev := match pageInfo page with
    | some p => (match eventRegs p with | some (e, _) => (getReg page e h).toNat | none => 0)
    | none => 0
  let bs := bytesLE 2 page ++ bytesLE 2 0 ++ bytesLE 4 (statusReg page h) ++ bytesLE 4 (getReg page 0x18 h).toNat ++
    bytesLE 4 ev ++ bytesLE 8 h.devTime ++ bytesLE 8 0
  { dstModule := fld r 41 32, dstUnit := fld r 49 42, srcModule := moduleId h, srcUnit := 0x81, opcode := 0x21,
    tc := regFld 0x40 0x40 2 0 h, posted := true, len := 32, issueTime := h.devTime % 2 ^ 48, payload := bs,
    scarry := scarryOf bs }

/-- R47: one MSI-X message and one event frame, as IRQ_ROUTE enables them. -/
def signalPage (page : Nat) (h : Hub) : Hub :=
  let h1 := signalMsix page h
  if regBit page 0x30 14 h then sendOut raiseQuiet (eventFrame page h) h1 else h1

/-- Run a change of a page's bits, and signal if its signal condition goes from 0 to 1 (R47). -/
def withSignal (page : Nat) (f : Hub → Hub) (h : Hub) : Hub :=
  let h1 := f h
  if sigCond page h1 && !sigCond page h then signalPage page h1 else h1

/-- An error of a page occurs (R36 to R38, R47). -/
def raise (page bit : Nat) (h : Hub) : Hub := withSignal page (setErrBit page bit) h

/-- An event of a page's event register occurs (R47). -/
def raiseEvent (page bit : Nat) (h : Hub) : Hub :=
  match pageInfo page with
  | none => h
  | some p =>
    match eventRegs p with
    | none => h
    | some (e, _) => withSignal page (fun x => putReg page e (putBit (getReg page e x) bit true) x) h

/-- R39: an injected report of an error bit. -/
def raiseInjected (page bit : Nat) (h : Hub) : Hub :=
  withSignal page (fun x => putReg page 0x18 (putBit (getReg page 0x18 (setErrBit page bit x)) 2 true) (setErrBit page bit x)) h

/-- Send a frame this module made. -/
def sendFrame (f : Frame) (h : Hub) : Hub := sendOut raise f h

/-- R255: the completion of a request frame, from its destination unit. -/
def completionOf (f : Frame) (status detail aux : Nat) (poison : Bool) (data : List Byte) (h : Hub) : Frame :=
  { dstModule := f.srcModule, dstUnit := f.srcUnit, srcModule := f.dstModule, srcUnit := f.dstUnit, opcode := 0x20,
    tc := f.tc, cm := f.cm, plevel := 1, poison := poison, posted := true, tenant := f.tenant, asid := f.asid,
    tag := f.tag, len := data.length, status := status, detail := detail, aux := aux, issueTime := f.issueTime,
    payload := data, scarry := scarryOf data,
    load := min 15 ((h.stu.waiting.length + h.coh.txs.length + h.coh.waiting.length) / 16) }

/-- Completion status codes of R255. -/
def stOk : Nat := 0
def stXlateFault : Nat := 1
def stTargetDead : Nat := 2
def stPoisoned : Nat := 3
def stPoolFull : Nat := 4
def stBadRequest : Nat := 5
def stUnsupported : Nat := 6
def stNoRoute : Nat := 7
def stDenied : Nat := 8
def stSelvedge : Nat := 9
def stIncomplete : Nat := 0xA
def stBusy : Nat := 0xB
def stUnit : Nat := 0xC

end Sys2Proof.Machine
end

