-- ==== Sys2Proof/Machine/Ecc.lean ====
section
/-!
DEFINITION. Reports of errors in arrays and memories (R544 to R552, R563 to R568): ECC_LAST, the error bits and counters
of a page, RAS counters and events, and the fault history.
-/
namespace Sys2Proof.Machine

/-- R39: an injected error also sets INJECTED on the page that reports it. -/
def raiseMark (page bit : Nat) (inj : Bool) (h : Hub) : Hub :=
  if inj then raiseInjected page bit h else raise page bit h

/-- R564, R566, R567: RAS counts an error and notes the last uncorrectable one. -/
def rasNote (ue inj : Bool) (kind loc : Nat) (h : Hub) : Hub :=
  let h1 := if inj then count 0x300 3 1 h else h
  if ue then
    let h2 := { h1 with ras := { h1.ras with lastUe := w64 (mkFld 63 60 kind + mkFld 47 0 loc) } }
    raiseEvent 0x300 1 (count 0x300 1 1 h2)
  else raiseEvent 0x300 0 (count 0x300 0 1 h1)

/-- R568: an ECC error reported on an HBMC, DDRC or SCACHE page. -/
def eccReport (page kind loc device : Nat) (ue scrub inj : Bool) (h : Hub) : Hub :=
  putReg page 0x80 (w64 (mkFld 63 63 1 + mkFld 62 62 (bit01 ue) + mkFld 61 61 (bit01 scrub) + mkFld 60 56 device + mkFld 47 0 loc)) h
    |> raiseMark page (if ue then 23 else 22) inj
    |> count page (if ue then 17 else 16) 1
    |> rasNote ue inj kind loc

/-- R551: the record of a location after one more error at power-on hour poh. -/
def histStep (windowH poh : Nat) (ue : Bool) (r : HistRecord) : HistRecord :=
  if !r.perm ∧ r.firstPoh + windowH ≤ poh then { r with errors := 1, ueSeen := ue, firstPoh := poh, lastPoh := poh }
  else { r with errors := min 1023 (r.errors + 1), ueSeen := r.ueSeen || ue, lastPoh := poh }

def histWindow (h : Hub) : Nat := max 1 (regFld 0x300 0x40 23 16 h)

/-- R552: room for a new record: the oldest record that is not permanent goes when the history is full. -/
def histRoom (l : List HistRecord) : Option (List HistRecord) :=
  if l.length < 4096 then some l else (takeFirst (fun r => !r.perm) l).map (·.2)

/-- R551, R552: an error of a location enters the fault history, while CTRL.ENABLE of the RAS page is 1 (R564). -/
def histAdd (kind loc : Nat) (ue : Bool) (h : Hub) : Hub :=
  if !enabled 0x300 h then h
  else
    let a := h.armoire
    let put (l : List HistRecord) : Hub := { h with armoire := { a with history := l, histPending := true } }
    if a.history.any (fun r => r.kind == kind && r.loc == loc) then
      put (a.history.map (fun r => if r.kind = kind ∧ r.loc = loc then histStep (histWindow h) h.time.poh ue r else r))
    else
      match histRoom a.history with
      | some l => put (l ++ [⟨kind, false, ue, 1, loc, h.time.poh, h.time.poh⟩])
      | none => raise 0x300 17 h

def histRecord (kind loc : Nat) (h : Hub) : Option HistRecord :=
  h.armoire.history.find? (fun r => r.kind == kind && r.loc == loc)

/-- R563: a location the module alone knows, and an instance chosen by it: free values (log entry 13). -/
def freshLoc (h : Hub) : Nat × Hub := ((fresh h).1.toNat % 2 ^ 48, (fresh h).2)

/-- R543: n selvedge mismatches enter the fault history, against a unit whose place the spec does not lay out (log entry 13). -/
def selvedgeNote (n : Nat) (h : Hub) : Hub :=
  if n = 0 ∨ !enabled 0x300 h then h
  else count 0x300 2 n ((List.range n).foldl (fun x _ => histAdd 8 (freshLoc h).1 false x) (freshLoc h).2)

end Sys2Proof.Machine
end

