-- ==== Sys2Proof/Machine/Tier.lean ====
section
/-!
DEFINITION. The Tier Manager's bookkeeping (R164 to R198): lines in T0, tile headers and selvedge, images and runs,
classes, use stamps and victims, and the moves of a tile between states.
-/
namespace Sys2Proof.Machine

/- ### Lines -/

def lineOf (off : Nat) : Nat := off / 128

/-- The lines that bytes off to off+n−1 touch. -/
def linesOf (off n : Nat) : List Nat := if n = 0 then [] else natRange (off / 128) ((off + n - 1) / 128 - off / 128 + 1)

/-- R12: the SCACHE page of a line's slice. -/
def slicePage (line : Nat) : Nat := 0x50 + Config.sliceHash line % 16

/-- Add to a class 1 counter slot of a slice; only the register table changes. -/
def countSlice (line slot n : Nat) (h : Hub) : Hub :=
  let p := slicePage line
  { h with regs :=
      if bitOf (getReg p 0x10 h) 1 then h.regs
      else Tab.set h.regs (regKey p (0x800 + 8 * slot)) (w64 (min ((getReg p (0x800 + 8 * slot) h).toNat + n) 0xFFFFFFFFFFFF)) }

def setT0 (line : Nat) (v : T0State) (h : Hub) : Hub := { h with coh := { h.coh with t0 := Tab.set h.coh.t0 line v } }

/-- A fill: the line becomes Clean unless T0 already has it. -/
def fillT0 (line : Nat) (h : Hub) : Hub :=
  match Tab.get? h.coh.t0 line with
  | some _ => h
  | none => setT0 line .clean h

def dropT0 (line : Nat) (h : Hub) : Hub := { h with coh := { h.coh with t0 := Tab.erase h.coh.t0 line } }

def inT0 (line : Nat) (h : Hub) : Bool := (Tab.get? h.coh.t0 line).isSome

def getFilter (line : Nat) (h : Hub) : Option FilterEntry := Tab.get? h.coh.filter line

def putFilter (line : Nat) (e : Option Nat) (h : Hub) : Hub :=
  { h with coh := { h.coh with filter := Tab.set h.coh.filter line ⟨e, h.coh.grants⟩, grants := h.coh.grants + 1 } }

def dropFilter (line : Nat) (h : Hub) : Hub := { h with coh := { h.coh with filter := Tab.erase h.coh.filter line } }

/-- R312, R313: the home poisons a line whose owner is lost; its T0 copy goes. -/
def poisonLine (line : Nat) (h : Hub) : Hub :=
  let h1 := dropT0 line (addPoison (128 * line) 128 h)
  count 0x60 1 1 { h1 with coh := { h1.coh with lostLines := h1.coh.lostLines + 1 } }

def getAgent (k : Nat) (h : Hub) : CohAgent := Tab.getD h.coh.agents k {}

/-- A line an internal unit needs at once (log entry 9): where agent k owns it, the data k holds is a free value, written
to T0, and the entry becomes Shared; where k is lost, R313. -/
def settleLine (line : Nat) (h : Hub) : Hub :=
  match getFilter line h with
  | some ⟨some k, _⟩ =>
    if (getAgent k h).st == .active then
      let r := freshBytes 128 h
      setT0 line .dirty (putFilter line none (countSlice line 4 1 { r.2 with mem := memPutN r.2.mem (128 * line) r.1 }))
    else dropFilter line (poisonLine line h)
  | _ => h

def settleLines (ls : List Nat) (h : Hub) : Hub := ls.foldl (fun x l => settleLine l x) h

/- ### Tiles -/

/-- What a tile that the table does not list is: Free, or Void after a warm reset lost the directory (R198). -/
def tileDefault (h : Hub) : Tile := if h.tier.allVoid then { st := .void } else {}

def getTile (t : Nat) (h : Hub) : Tile := Tab.getD h.tier.tiles t (tileDefault h)

def putTile (t : Nat) (v : Tile) (h : Hub) : Hub :=
  { h with tier := { h.tier with tiles := if v = tileDefault h then Tab.erase h.tier.tiles t else Tab.set h.tier.tiles t v } }

def tileOf (off : Nat) : Nat := off / 65536

def tilesOf (off n : Nat) : List Nat := if n = 0 then [] else natRange (off / 65536) ((off + n - 1) / 65536 - off / 65536 + 1)

def tileLines (t : Nat) : List Nat := natRange (512 * t) 512

/-- R174: does the state hold a T1 slot? -/
def holdsSlot : TileState → Bool
  | .upper | .clean | .promoting | .demoting => true
  | .free | .lower | .freeing | .void => false

/-- R187: the present age tick. -/
def ageNow (h : Hub) : Nat := (h.clock / usToNs (max 1 (regFld 0x90 0x40 15 0 h))) % 2 ^ 32

def ageOf (t : Tile) (h : Hub) : Nat := (ageNow h + 2 ^ 32 - t.stamp) % 2 ^ 32

/-- R187, R188: a use renews the stamp, at most once a tick, and moves the tile to the tail. -/
def touchTile (t : Nat) (h : Hub) : Hub :=
  let v := getTile t h
  if holdsSlot v.st && v.stamp != ageNow h then
    let h1 := putTile t { v with stamp := ageNow h } h
    { h1 with tier := { h1.tier with ageQ := h1.tier.ageQ.filter (· != t) ++ [t] } }
  else h

/-- A new slot or a new class: stamp renewed and tail of the age queue in any case. -/
def renewTile (t : Nat) (h : Hub) : Hub :=
  let h1 := putTile t { getTile t h with stamp := ageNow h } h
  { h1 with tier := { h1.tier with ageQ := h1.tier.ageQ.filter (· != t) ++ [t] } }

def leaveQueue (t : Nat) (h : Hub) : Hub := { h with tier := { h.tier with ageQ := h.tier.ageQ.filter (· != t) } }

/-- R185. -/
def usedOf (c : Nat) (h : Hub) : Nat := (h.tier.tiles.filter (fun e => holdsSlot e.2.st && e.2.cls == c)).length
def lockedOf (c : Nat) (h : Hub) : Nat :=
  (h.tier.tiles.filter (fun e => holdsSlot e.2.st && e.2.cls == c && (decide (0 < e.2.pins) || decide (0 < e.2.holds)))).length
def floorOf (c : Nat) (h : Hub) : Nat := regFld 0x90 (0x80 + 16 * c) 23 0 h
def ceilingOf (c : Nat) (h : Hub) : Nat := regFld 0x90 (0x80 + 16 * c) 55 32 h
def ageLimitOf (c : Nat) (h : Hub) : Nat := min (regFld 0x90 (0x100 + 4 * c) 31 0 h) (2 ^ 30)
def slotsUsed (h : Hub) : Nat := (h.tier.tiles.filter (fun e => holdsSlot e.2.st)).length
def slotsFree (h : Hub) : Nat := h.tier.slots - slotsUsed h

/- ### Images (R166, R194) -/

def blockBytes (t j : Nat) (h : Hub) : List Byte := memGetN h.mem (65536 * t + 4096 * j) 4096

/-- R194: is this format coded under the present enables? -/
def codecOn (format : Nat) (h : Hub) : Bool :=
  enabled 0x98 h &&
  ((format == 6 && regBit 0x98 0x40 8 h) || (format == 4 && regBit 0x98 0x40 9 h) || (format == 5 && regBit 0x98 0x40 10 h))

/-- Coded length of a block, 1 to 64 units of 64 bytes. -/
def blockUnits (t j format : Nat) (h : Hub) : Nat := max 1 (min 64 (Config.codedUnits (blockBytes t j h) format))

/-- R194: the units of the 16 blocks when the image is coded, none when it is raw. -/
def imageUnits (t : Nat) (h : Hub) : Option (List Nat) :=
  let v := getTile t h
  if codecOn v.format h then
    let us := (List.range 16).map (fun j => blockUnits t j v.format h)
    if us.sum * 64 * 256 ≤ 65536 * (256 - regFld 0x98 0x40 7 0 h) then some us else none
  else none

def imageGranules : Option (List Nat) → Nat
  | none => 65
  | some us => ceilDiv (128 + us.sum * 64) 1024

/-- R166: channels that build T2 space. -/
def t2Channels (h : Hub) : Nat := (h.boot.ddr.filter (fun e => e.2.trained)).length

/-- R97, R166: the granules wholly below the initialisation watermark are those numbered below this. -/
def granuleLimit (h : Hub) : Nat :=
  if h.boot.t2Done then h.tier.granules
  else min h.tier.granules (h.boot.watermark * 4096 * t2Channels h / 4)

/-- Insert an interval in order of its start. -/
def insertRun (r : Nat × Nat) : List (Nat × Nat) → List (Nat × Nat)
  | [] => [r]
  | x :: t => if r.1 ≤ x.1 then r :: x :: t else x :: insertRun r t

/-- Runs in use and granules excluded, by start. -/
def blockedRuns (h : Hub) : List (Nat × Nat) :=
  (h.tier.tiles.filterMap (fun (e : Nat × Tile) => e.2.run) ++ h.tier.excluded.map (fun g => (g, 1))).foldl (fun l r => insertRun r l) []

/-- First fit of n granules from pos up, below lim. -/
def firstFit (n lim : Nat) : Nat → List (Nat × Nat) → Option Nat
  | pos, [] => if pos + n ≤ lim then some pos else none
  | pos, (s, k) :: t =>
    if pos + n ≤ s ∧ pos + n ≤ lim then some pos else firstFit n lim (max pos (s + k)) t

/-- R166: the run of n granules that first fit chooses; none while the free map is being rebuilt (R557). -/
def findRun (n : Nat) (h : Hub) : Option Nat :=
  if h.ras.freeMapBad then none else firstFit n (granuleLimit h) h.tier.firstUsable (blockedRuns h)

/- ### The header (R169 to R172) -/

def formatCode (f : Nat) : Nat := if f ≤ 9 then f else 0

/-- LEN0 to LEN15 packed in 12 bytes. -/
def lensPacked (t : Tile) : Nat := (List.range 16).foldl (fun a j => a + mkFld (6 * j + 5) (6 * j) (nth t.lens j 0)) 0

def headerBodyOf (n : Nat) (t : Tile) : List Byte :=
  bytesLE 8 (mkFld 7 0 t.format + mkFld 9 8 t.scale + mkFld 11 10 t.sealed + mkFld 12 12 (bit01 t.codec) +
    mkFld 15 13 t.cls + mkFld 27 16 t.owner + mkFld 31 28 1 + mkFld 63 32 t.version) ++
  bytesLE 8 (mkFld 28 0 n + mkFld 47 32 t.blockPoison) ++ bytesLE 12 (lensPacked t) ++ bytesLE 4 0 ++
  ((List.range 16).map (fun j => bytesLE 4 (nth t.bsel j 0))).flatten ++
  bytesLE 8 (mkFld 31 0 t.tselData + mkFld 63 32 t.tselHdr) ++ bytesLE 8 (mkFld 47 0 t.sealTime) ++
  bytesLE 4 (mkFld 9 0 t.sealModule + mkFld 17 10 t.sealUnit) ++ bytesLE 8 0

/-- R169: the 128 header bytes of tile n. -/
def headerOfTile (n : Nat) (t : Tile) : List Byte := headerBodyOf n t ++ bytesLE 4 (crc32c (headerBodyOf n t))

def bselOf (t : Nat) (h : Hub) : List Nat := (List.range 16).map (fun j => crc32c (blockBytes t j h))

/-- CRC-32C of header bytes 0x20 to 0x5F. -/
def tselHdrOf (bsel : List Nat) : Nat := crc32c ((List.range 16).map (fun j => bytesLE 4 (nth bsel j 0))).flatten

/-- R171: the Tier Manager seals a tile. -/
def sealTile (t : Nat) (h : Hub) : Hub :=
  let b := bselOf t h
  let v := { getTile t h with
    sealed := 2, bsel := b, tselData := crc32c (memGetN h.mem (65536 * t) 65536)
    tselHdr := tselHdrOf b, sealTime := h.devTime % 2 ^ 48, sealModule := moduleId h, sealUnit := 0x88 }
  putTile t v h

/-- Mark n failed checks of R172. -/
def selvedgeError (n : Nat) (h : Hub) : Hub := if n = 0 then h else selvedgeNote n (count 0x90 8 n (raise 0x90 16 h))

/-- R172: the checks of a tier move: HCRC, then the block selvedge and tile selvedge of a sealed tile. -/
def checkTile (t : Nat) (h : Hub) : Hub :=
  let v := getTile t h
  if v.hcrcBad then selvedgeError 1 (putTile t { v with hcrcBad := false, blockPoison := 0xFFFF } h)
  else if v.sealed = 0 then h
  else
    let b := bselOf t h
    let bad := (List.range 16).filter (fun j => nth b j 0 != nth v.bsel j 0)
    if bad ≠ [] then
      selvedgeError bad.length
        (putTile t { v with blockPoison := bad.foldl (fun m j => m ||| 2 ^ j) v.blockPoison } h)
    else
      let d := crc32c (memGetN h.mem (65536 * t) 65536)
      let k := tselHdrOf v.bsel
      if d ≠ v.tselData ∨ k ≠ v.tselHdr then selvedgeError 1 (putTile t { v with tselData := d, tselHdr := k } h) else h

/-- R173: blocks of the tile that hold a poisoned line. -/
def poisonedBlocks (t : Nat) (h : Hub) : Nat :=
  (List.range 16).foldl (fun m j => if anyPoison (65536 * t + 4096 * j) 4096 h then m ||| 2 ^ j else m) 0

/-- R173: lines of poisoned blocks that T0 does not hold become poisoned when they come from the image. -/
def widenPoison (t : Nat) (h : Hub) : Hub :=
  let bp := (getTile t h).blockPoison
  let ls := (tileLines t).filter (fun l => bp.testBit (l % 512 / 32) && !inT0 l h)
  ls.foldl (fun x l => addPoison (128 * l) 128 x) h

/- ### Heads and victims (R188, R189) -/

def evictable (v : Tile) : Bool := (v.st == .upper || v.st == .clean) && v.pins == 0 && v.holds == 0

/-- R188: the head of class c; an Upper tile whose image has no run is passed over. -/
def headOfClass (c : Nat) (h : Hub) : Option Nat :=
  h.tier.ageQ.find? (fun t =>
    let v := getTile t h
    v.cls == c && evictable v && (v.st == .clean || (findRun (imageGranules (imageUnits t h)) h).isSome))

/-- The oldest head among the classes that satisfy p; equal ages go to the lower class. -/
def oldestHead (p : Nat → Nat → Bool) (h : Hub) : Option Nat :=
  ((List.range 8).foldl (fun (best : Option (Nat × Nat)) k =>
    match headOfClass k h with
    | none => best
    | some t =>
      let a := ageOf (getTile t h) h
      if p k a then
        match best with
        | none => some (t, a)
        | some (_, b) => if b < a then some (t, a) else best
      else best) none).map (·.1)

/-- R189 without its first line: the background's choice. -/
def backgroundVictim (h : Hub) : Option Nat :=
  match oldestHead (fun k _ => decide (ceilingOf k h < usedOf k h)) h with
  | some t => some t
  | none =>
    match oldestHead (fun k a => decide (floorOf k h < usedOf k h) && ageLimitOf k h != 0 && decide (ageLimitOf k h ≤ a)) h with
    | some t => some t
    | none => oldestHead (fun k _ => decide (floorOf k h < usedOf k h)) h

/-- R189. -/
def chooseVictim (c : Nat) (h : Hub) : Option Nat :=
  if ceilingOf c h ≤ usedOf c h then headOfClass c h else backgroundVictim h

/- ### Moves -/

/-- R180 step 2 for T0: modified lines written to T1. -/
def writeBackTile (t : Nat) (h : Hub) : Hub :=
  (tileLines t).foldl (fun x l =>
    match Tab.get? x.coh.t0 l with
    | some .dirty => countSlice l 2 1 (setT0 l .clean x)
    | _ => x) h

/- ### Injected errors at an access (R544, R549, R563) -/

/-- The half line that byte a lies in becomes poisoned. -/
def poisonHalf (a : Nat) (h : Hub) : Hub := addPoison (a / 64 * 64) 64 h

/-- A tile whose bytes are somewhere. -/
def holdsData (st : TileState) : Bool := st != .free && st != .freeing && st != .void

def clearInjection (h : Hub) : Hub := { h with ras := { h.ras with injection := none } }

/-- R563, target 0x1, in a line that T0 holds: a clean line is dropped and served again, a dirty one is poisoned. -/
def injectT0 (a : Nat) (ue : Bool) (h : Hub) : Hub :=
  let l := lineOf a
  let r := freshLoc (clearInjection h)
  let h1 := eccReport (slicePage l) 2 r.1 0 ue false true r.2
  if !ue then h1
  else if Tab.get? h1.coh.t0 l = some .dirty then addPoison (128 * l) 128 h1 else dropT0 l h1

/-- R563, target 0x2, a line read from T1: poisons the half line unless the tile is Clean (R549). -/
def injectT1 (a : Nat) (ue : Bool) (h : Hub) : Hub :=
  let r := freshLoc (clearInjection h)
  let s := fresh r.2
  let h1 := eccReport (0x70 + s.1.toNat % 8) 4 r.1 0 ue false true s.2
  if ue && (getTile (tileOf a) h1).st != .clean then poisonHalf a h1 else h1

/-- R563, target 0x3, a block read from a T2 image: its BLOCK_POISON bit is set. -/
def injectT2 (a : Nat) (ue : Bool) (h : Hub) : Hub :=
  let t := tileOf a
  let r := freshLoc (clearInjection h)
  let s := fresh r.2
  let h1 := eccReport (0x78 + s.1.toNat % 16) 5 r.1 (s.1.toNat / 16 % 32) ue false true s.2
  if ue then
    let v := getTile t h1
    let h2 := putTile t { v with blockPoison := v.blockPoison ||| 2 ^ (a % 65536 / 4096) } h1
    addPoison (a / 4096 * 4096) 4096 h2
  else h1

/-- R563: an access of n bytes at off meets a pending injection at a GSA. -/
def meetInjection (off n : Nat) (h : Hub) : Hub :=
  match h.ras.injection with
  | none => h
  | some i =>
    let a := i.addr % 2 ^ 46
    if off / 128 * 128 ≤ a ∧ a < ceilDiv (off + n) 128 * 128 then
      let st := (getTile (tileOf a) h).st
      if i.target = 7 ∧ holdsData st then count 0x300 3 1 (poisonHalf a (clearInjection h))
      else if i.target = 1 ∧ inT0 (lineOf a) h then injectT0 a i.ue h
      else if i.target = 2 ∧ !inT0 (lineOf a) h ∧ (st = .upper ∨ st = .clean ∨ st = .demoting) then injectT1 a i.ue h
      else if i.target = 3 ∧ !inT0 (lineOf a) h ∧ (st = .lower ∨ st = .promoting) then injectT2 a i.ue h
      else h
    else h

/-- R563: the Tier Manager reads a tile's slot (target 0x2) or image (target 0x3), where an injection may be pending. -/
def meetMove (t target : Nat) (h : Hub) : Hub :=
  match h.ras.injection with
  | none => h
  | some i =>
    let a := i.addr % 2 ^ 46
    if i.target = target ∧ tileOf a = t then (if target = 2 then injectT1 a i.ue h else injectT2 a i.ue h) else h

/-- R563, target 0x4: an access to a scratchpad meets a pending injection; the unit is 128 bytes, reported on the logical
core's page. -/
def meetSpInjection (off n : Nat) (h : Hub) : Hub :=
  match h.ras.injection with
  | none => h
  | some i =>
    let a := i.addr % 2 ^ 46
    if i.target = 4 ∧ windowBase ≤ off ∧ off / 128 * 128 ≤ a ∧ a < ceilDiv (off + n) 128 * 128 then
      let k := (a - windowBase) / 0x200000
      let h1 := raiseMark (0x200 + k) (if i.ue then 20 else 19) true (clearInjection h)
      let h2 := rasNote i.ue true 1 (nth h.boot.coreMap k 0) h1
      if i.ue then addPoison (a / 128 * 128) 128 h2 else h2
    else if i.target = 7 ∧ windowBase ≤ off ∧ off / 128 * 128 ≤ a ∧ a < ceilDiv (off + n) 128 * 128 then
      count 0x300 3 1 (poisonHalf a (clearInjection h))
    else h

/-- R180 steps 3 to 5, R192: seal or check, run, image, Clean; stays Upper where no run is free. -/
def demoteFinish (t : Nat) (h : Hub) : Hub :=
  let h1 := meetMove t 2 (writeBackTile t (meterAdd 0 0 65536 (meterAdd 0 1 65536 h)))
  let h2 := if (getTile t h1).sealed = 0 then sealTile t h1 else checkTile t h1
  let us := imageUnits t h2
  let n := imageGranules us
  match findRun n h2 with
  | none => raiseEvent 0x90 2 (putTile t { getTile t h2 with st := .upper, background := false, next := .stay } h2)
  | some g =>
    let v := getTile t h2
    let h3 := putTile t { v with st := .clean, run := some (g, n), version := (v.version + 1) % 2 ^ 32,
                                 codec := us.isSome, lens := (us.getD []).map (· - 1),
                                 blockPoison := v.blockPoison ||| poisonedBlocks t h2, background := false } h2
    let h4 := count 0x90 9 n (count 0x90 1 1 h3)
    match us with
    | some u => h4 |> count 0x98 0 1 |> count 0x98 2 (u.filter (· == 64)).length |> count 0x98 3 64
                   |> countKib 0x98 4 (u.sum * 64)
    | none => if [4, 5, 6].contains v.format then count 0x98 1 1 h4 else h4

/-- R183: a Clean tile loses its slot; its cached shared lines stay valid. -/
def dropToLower (t : Nat) (h : Hub) : Hub :=
  let h1 := widenPoison t h
  count 0x90 2 1 (leaveQueue t (putTile t { getTile t h1 with st := .lower, next := .stay } h1))

/-- Eviction of a victim whose slot is needed at once: an Upper tile is demoted first (log entry 9 for its lines that an
agent owns). -/
def evictNow (t : Nat) (h : Hub) : Hub :=
  if (getTile t h).st == .upper then
    let h1 := demoteFinish t (settleLines (tileLines t) h)
    if (getTile t h1).st == .clean then dropToLower t h1 else h1
  else dropToLower t h

/-- R191: a refused request for a slot. -/
def poolFull (h : Hub) : Hub := count 0x90 7 1 (raiseEvent 0x90 1 h)

/-- R185, R189, R191: a slot for class c, evicting a victim where the rules ask for one; none: POOL_FULL. -/
def takeSlot (c : Nat) (h : Hub) : Option Hub :=
  if usedOf c h < ceilingOf c h ∧ 0 < slotsFree h then some h
  else (chooseVictim c h).map (fun t => evictNow t h)

/-- R182: a zero-filled slot for a Free or Void tile. -/
def allocTile (t cls owner : Nat) (h : Hub) : Option Hub :=
  (takeSlot cls h).map (fun h1 => renewTile t (putTile t { ({} : Tile) with st := .upper, cls := cls, owner := owner } h1))

/-- R179: a promotion starts once it has a slot. -/
def promoteStart (t : Nat) (h : Hub) : Option Hub :=
  (takeSlot (getTile t h).cls h).map (fun h1 => renewTile t (putTile t { getTile t h1 with st := .promoting } h1))

/-- R179: it ends: checked, written to the slot, Clean. -/
def promoteFinish (t : Nat) (h : Hub) : Hub :=
  let h1 := widenPoison t (checkTile t (meetMove t 3 (meterAdd 0 0 65536 (meterAdd 0 1 65536 h))))
  let v := getTile t h1
  let h2 := if v.codec then count 0x98 5 (v.lens.filter (· != 63)).length h1 else h1
  count 0x90 0 1 (putTile t { v with st := .clean } h2)

def promoteNow (t : Nat) (h : Hub) : Option Hub := (promoteStart t h).map (promoteFinish t)

/-- R181: a store abandons a demotion. -/
def abandon (t : Nat) (h : Hub) : Hub :=
  count 0x90 6 1 (putTile t { getTile t h with st := .upper, run := none, background := false, next := .stay } h)

/-- R177: a store to a Clean tile frees the image. -/
def dropImage (t : Nat) (h : Hub) : Hub :=
  putTile t { getTile t h with st := .upper, run := none, codec := false, lens := [], blockPoison := 0 } h

/-- R183: Freeing ends: slot, image, content and cached copies are gone. -/
def freeFinish (t : Nat) (h : Hub) : Hub :=
  let h1 := leaveQueue t (putTile t {} h)
  let keep (l : Nat) : Bool := decide (l < 512 * t ∨ 512 * t + 512 ≤ l)
  { h1 with mem := memClear h1.mem (65536 * t) 65536,
            poison := h1.poison.filter (fun k => decide (k < 1024 * t ∨ 1024 * t + 1024 ≤ k)),
            coh := { h1.coh with t0 := h1.coh.t0.filter (fun e => keep e.1), filter := h1.coh.filter.filter (fun e => keep e.1) } }

/-- R174, R182: a store allocates a Void tile as a Free one; what stood there is gone. -/
def allocFresh (t cls owner : Nat) (h : Hub) : Option Hub := allocTile t cls owner (freeFinish t h)

/-- R171: the first store of a line to a sealed tile opens it. -/
def openSeal (t : Nat) (h : Hub) : Hub :=
  let v := getTile t h
  if v.sealed = 0 then h else putTile t { v with sealed := 0 } h

/-- R177 for a unit that does not wait (log entry 10): the tile is Upper when it returns; none: POOL_FULL. -/
def ensureUpper (t owner : Nat) (h : Hub) : Option Hub :=
  match (getTile t h).st with
  | .upper => some h
  | .clean => some (dropImage t h)
  | .demoting => some (abandon t h)
  | .promoting => some (dropImage t (promoteFinish t h))
  | .lower => (promoteNow t (count 0x90 4 1 h)).map (dropImage t)
  | .free => allocTile t 0 owner h
  | .freeing | .void => allocFresh t 0 owner h

/- ### Fills (R176) -/

/-- R176, R543: a block read from a T2 image: BSEL checked where the tile is sealed, 32 lines filled. -/
def fillBlock (t j : Nat) (h : Hub) : Hub :=
  let v := getTile t h
  let h1 := if v.codec ∧ nth v.lens j 0 ≠ 63 then count 0x98 5 1 h else h
  let bad := decide (v.sealed ≠ 0) && crc32c (blockBytes t j h1) != nth v.bsel j 0
  let ls := natRange (512 * t + 32 * j) 32
  let h2 := if bad then
      selvedgeError 1 (putTile t { v with blockPoison := v.blockPoison ||| 2 ^ j }
        ((ls.filter (fun l => !inT0 l h1)).foldl (fun x l => addPoison (128 * l) 128 x) h1))
    else h1
  ls.foldl (fun x l => fillT0 l x) h2

/-- R176: a line that T0 does not hold comes from its tile's tier, where it meets a pending injection (R563). -/
def fillLine (l : Nat) (h : Hub) : Hub :=
  let t := l / 512
  let v := getTile t h
  match v.st with
  | .upper | .clean | .demoting => fillT0 l (touchTile t (meetInjection (128 * l) 128 h))
  | .lower | .promoting =>
    if v.codec || !regBit 0x90 0x40 17 h then
      let j := l % 512 / 32
      fillBlock t j (meetInjection (65536 * t + 4096 * j) 4096 h)
    else fillT0 l (meetInjection (128 * l) 128 h)
  | .free | .freeing | .void => h

/- ### Accesses of internal units and engines (R299, R305), which do not wait (log entries 9 and 10) -/

/-- One tile's part of a read: bytes, and whether poison was among them. -/
def readTilePart (off n : Nat) (h : Hub) : (List Byte × Bool) × Hub :=
  let t := tileOf off
  if otherTile t h then (((freshBytes n h).1, false), (freshBytes n h).2)
  else
  match (getTile t h).st with
  | .free | .freeing => ((List.replicate n 0#8, false), h)
  | .void => ((poisonPattern n, true), h)
  | .upper | .clean | .lower | .promoting | .demoting =>
    let h1 := meetInjection off n (settleLines (linesOf off n) h)
    let h2 := (linesOf off n).foldl (fun x l =>
      if inT0 l x then countSlice l 0 1 x else fillLine l (countSlice l 1 1 x)) h1
    (memRead off n h2, touchTile t h2)

/-- R176, R299: n bytes of store or of a scratchpad window. -/
def engRead : Nat → Nat → Nat → Hub → (List Byte × Bool) × Hub
  | 0, _, _, h => (([], false), h)
  | fuel + 1, off, n, h =>
    if n = 0 then (([], false), h)
    else if windowBase ≤ off ∧ otherHolds off h = true then (((freshBytes n h).1, false), (freshBytes n h).2)
    else if windowBase ≤ off then (memRead off n (meetSpInjection off n h), meetSpInjection off n h)
    else
      let k := min n (65536 - off % 65536)
      let r := readTilePart off k h
      let q := engRead fuel (off + k) (n - k) r.2
      ((r.1.1 ++ q.1.1, r.1.2 || q.1.2), q.2)

/-- A read of n bytes of the module offset space by an internal unit. -/
def storeRead (off n : Nat) (h : Hub) : (List Byte × Bool) × Hub := engRead (n / 65536 + 2) off n h

/-- R305: the filter entries of lines a non-caching write covers go. -/
def takeLines (ls : List Nat) (h : Hub) : Hub := ls.foldl (fun x l => dropFilter l (settleLine l x)) h

/-- R605: a unit of this member writes a tile of the other member: posted writes cross the bridge in GSA mode. -/
def pairWrite (off : Nat) (bs : List Byte) (poisoned : Bool) (h : Hub) : Hub :=
  (List.range (ceilDiv (off % 4096 + bs.length) 4096)).foldl (fun x i =>
    let a := if i = 0 then off else (off / 4096 + i) * 4096
    let d := (bs.drop (a - off)).take (4096 - a % 4096)
    sendBridge raise { dstModule := moduleId h, dstUnit := 0x80, srcModule := moduleId h, srcUnit := 0x88, opcode := 3, posted := true,
                       addr := mkFld 55 46 (moduleId h) + a, len := d.length, payload := d, scarry := scarryOf d, poison := poisoned,
                       issueTime := h.devTime % 2 ^ 48 } x) h

/-- One tile's part of a write; none: POOL_FULL. -/
def writeTilePart (off : Nat) (bs : List Byte) (poisoned : Bool) (owner : Nat) (h : Hub) : Option Hub :=
  if otherTile (tileOf off) h then some (pairWrite off bs poisoned h)
  else
  (ensureUpper (tileOf off) owner h).map (fun h1 =>
    let h2 := takeLines (linesOf off bs.length) (meetInjection off bs.length h1)
    let h3 := (linesOf off bs.length).foldl (fun x l => setT0 l .dirty x) h2
    memWrite off bs poisoned (touchTile (tileOf off) (openSeal (tileOf off) h3)))

/-- R331: the halves of the 128-byte units that bytes a to a+n−1 cover whole. -/
def unitsIn (a n : Nat) : List Nat := natRange (2 * ceilDiv a 128) (2 * ((a + n) / 128) - 2 * ceilDiv a 128)

/-- R331: bytes arriving in a scratchpad: poison marks each 128-byte unit touched; good data clears units written whole. -/
def spStore (a : Nat) (bs : List Byte) (poisoned : Bool) (h0 : Hub) : Hub :=
  let n := bs.length
  let h := meetSpInjection a n h0
  let h1 := { h with mem := memPutN h.mem a bs }
  if n = 0 then h0
  else if poisoned then addPoison (a / 128 * 128) (ceilDiv (a + n) 128 * 128 - a / 128 * 128) h1
  else clearPoison (unitsIn a n) h1

def engWrite : Nat → Nat → List Byte → Bool → Nat → Hub → Option Hub
  | 0, _, _, _, _, h => some h
  | fuel + 1, off, bs, p, owner, h =>
    if bs = [] then some h
    else if windowBase ≤ off then some (if otherHolds off h then pairWrite (pairWindow off h) bs p h else spStore off bs p h)
    else
      let k := min bs.length (65536 - off % 65536)
      (writeTilePart off (bs.take k) p owner h).bind (fun h1 => engWrite fuel (off + k) (bs.drop k) p owner h1)

/-- A write by an internal unit or engine; none: POOL_FULL, with what came before the refused tile performed. -/
def storeWrite (off : Nat) (bs : List Byte) (poisoned : Bool) (owner : Nat) (h : Hub) : Option Hub :=
  engWrite (bs.length / 65536 + 2) off bs poisoned owner h

/-- R514: a read charged to a tenant. -/
def tenantRead (t off n : Nat) (h : Hub) : (List Byte × Bool) × Hub := storeRead off n (meterAdd t 0 n h)

/-- R514: a write charged to a tenant, whose tiles it allocates. -/
def tenantWrite (t off : Nat) (bs : List Byte) (poisoned : Bool) (h : Hub) : Option Hub :=
  (storeWrite off bs poisoned t h).map (meterAdd t 1 bs.length)

/-- A write of a unit's own structure in memory; where the pool is full it is not performed and R191's note is left. -/
def ownWrite (off : Nat) (bs : List Byte) (h : Hub) : Hub :=
  match storeWrite off bs false 0 h with
  | some h1 => h1
  | none => poolFull h

/-- A 64-bit word of a unit's own structure; poison reads as the pattern. -/
def ownRead64 (off : Nat) (h : Hub) : (Nat × Bool) × Hub :=
  let r := storeRead off 8 h
  ((ofBytesLE r.1.1, r.1.2), r.2)

/- ### Warm and cold reset (R198) -/

/-- R198: settle transient tiles; holds and commands are lost. -/
def tierSettle (h : Hub) : Hub :=
  let h1 := (h.tier.tiles.map (·.1)).foldl (fun x t =>
    match (getTile t x).st with
    | .promoting => leaveQueue t (putTile t { getTile t x with st := .lower } x)
    | .demoting => putTile t { getTile t x with st := .upper, run := none } x
    | .freeing => freeFinish t x
    | _ => x) h
  { h1 with tier := { h1.tier with
      cmds := []
      tiles := h1.tier.tiles.map (fun e => (e.1, { e.2 with holds := 0, background := false, next := .stay })) } }

/-- R198: DDR5 contents lost. -/
def tierLoseT2 (h : Hub) : Hub :=
  (h.tier.tiles.map (·.1)).foldl (fun x t =>
    match (getTile t x).st with
    | .clean => dropImage t x
    | .lower => putTile t { ({} : Tile) with st := .void } (freeFinish t x)
    | _ => x) h

/-- R198: HBM contents lost: every directory entry is Void. Tiles the model does not list were Free; the flag says they
read as Void too. -/
def tierLoseT1 (h : Hub) : Hub :=
  { h with tier := { h.tier with tiles := [], ageQ := [], allVoid := true },
           mem := h.mem.filter (fun c => decide (windowBase ≤ c.1)),
           poison := h.poison.filter (fun k => decide (windowBase ≤ 64 * k)) }

end Sys2Proof.Machine
end

