-- ==== Sys2Proof/Machine/Stu.lean ====
section
/-!
DEFINITION. The Store Translation Unit (R128 to R163): the address map, page tables and walks, the translation caches,
rights, fault records, stream trackers and prewalks, and invalidations. Requests that wait are resumed in Pipe.lean.
-/
namespace Sys2Proof.Machine

/-- R152: fault codes. -/
def flNotMapped : Nat := 1
def flRights : Nat := 2
def flBadEntry : Nat := 3
def flBadContext : Nat := 4
def flGsaDenied : Nat := 5
def flRange : Nat := 6
def flForeign : Nat := 7
def flWalkPoison : Nat := 8

/-- R156: OP of a fault record. -/
def opRead : Nat := 0
def opWrite : Nat := 1
def opAtomic : Nat := 2
def opAtomicRet : Nat := 3

/-- R128, R129: are bytes off to off+n−1 assigned, for this operation? -/
def assigned (off n op : Nat) (h : Hub) : Bool :=
  inStore off n || (inWindow off n h && op != opAtomic && op != opAtomicRet)

/-- R142: does a leaf give the rights an operation needs? -/
def rightsOk (entry op : Nat) : Bool :=
  if op = opRead then entry.testBit 4
  else if op = opWrite then entry.testBit 5
  else if op = opAtomic then entry.testBit 6
  else entry.testBit 6 && entry.testBit 4

/-- What an entry at a level is (R139, R140). -/
inductive EntryKind
  | fault (code : Nat)
  | leaf (size : Nat)
  | table (off : Nat)
  deriving DecidableEq, Repr

/-- R138: page bytes of a leaf SIZE code. -/
def leafSize (code : Nat) : Nat := if code = 0 then 2 ^ 21 else if code = 1 then 2 ^ 26 else 2 ^ 30

/-- R140: a leaf's page lies wholly inside the store range, or a 2 MiB one inside the scratchpad windows. -/
def leafRange (addr size : Nat) : Bool :=
  inStore addr size || (size == 2 ^ 21 && decide (windowBase ≤ addr ∧ addr + size ≤ windowBase + 2 ^ 29))

/-- R139, R140. -/
def entryKind (level e : Nat) : EntryKind :=
  let addr := mkFld 45 12 (nbits e 45 12)
  if !e.testBit 0 then .fault flNotMapped
  else if nbits e 51 46 ≠ 0 ∨ nbits e 11 7 ≠ 0 then .fault flBadEntry
  else if e.testBit 1 then
    let code := nbits e 3 2
    let ok := (level == 1 && code == 2) || (level == 0 && (code == 0 || code == 1))
    if !ok ∨ addr % leafSize code ≠ 0 then .fault flBadEntry
    else if leafRange addr (leafSize code) then .leaf (leafSize code) else .fault flRange
  else if level = 0 ∨ nbits e 6 2 ≠ 0 then .fault flBadEntry
  else if inStore addr 4096 then .table addr else .fault flRange

def setStu (s : Stu) (h : Hub) : Hub := { h with stu := s }

/-- R143: tenant and ASID entries together at most 256; the older of the two lists' heads goes (log entry 12). -/
def capCtx (s : Stu) : Stu :=
  if s.tenants.length + s.asids.length ≤ 256 then s
  else if s.asids.length ≤ s.tenants.length then { s with tenants := s.tenants.drop 1 } else { s with asids := s.asids.drop 1 }

/-- A table word; none where poison is read. -/
def tableRead (off : Nat) (h : Hub) : Option Nat × Hub :=
  let r := ownRead64 off (meterAdd 0 0 8 (count 0xA3 6 1 h))
  ((if r.1.2 then none else some r.1.1), r.2)

/-- R136: a tenant's entry, from the cache or the table: its words, or the fault. -/
def tenantEntry (t : Nat) (h : Hub) : Except Nat (Nat × Nat) × Hub :=
  match h.stu.tenants.find? (fun e => e.1 == t) with
  | some (_, a, b) => (.ok (a.toNat, b.toNat), h)
  | none =>
    let base := mkFld 45 16 (regFld 0xA0 0x48 45 16 h)
    if !inStore base 65536 then (.error flRange, h)
    else
      let r0 := tableRead (base + 16 * t) h
      let r1 := ownRead64 (base + 16 * t + 8) r0.2
      match r0.1, r1.1.2 with
      | some a, false =>
        let b := r1.1.1
        if !a.testBit 0 ∨ nbits a 15 2 ≠ 0 ∨ nbits b 63 46 ≠ 0 ∨ nbits b 11 0 ≠ 0 then (.error flBadContext, r1.2)
        else
          let s := r1.2.stu
          (.ok (a, b), setStu (capCtx { s with tenants := s.tenants ++ [(t, w64 a, w64 b)] }) r1.2)
      | _, _ => (.error flWalkPoison, r1.2)

/-- R137: the level-3 table of a tenant and ASID. -/
def asidEntry (t asid : Nat) (h : Hub) : Except Nat Nat × Hub :=
  match h.stu.asids.find? (fun e => e.1 == t && e.2.1 == asid) with
  | some (_, _, w) => (.ok (mkFld 45 12 (fld w 45 12)), h)
  | none =>
    match tenantEntry t h with
    | (.error c, h1) => (.error c, h1)
    | (.ok (a, b), h1) =>
      let off := mkFld 45 12 (nbits b 45 12) + 8 * asid
      if min (nbits a 31 16) 0xFFFE < asid then (.error flBadContext, h1)
      else if !inStore off 8 then (.error flRange, h1)
      else
        match tableRead off h1 with
        | (none, h2) => (.error flWalkPoison, h2)
        | (some e, h2) =>
          if !e.testBit 0 ∨ nbits e 51 46 ≠ 0 ∨ nbits e 11 1 ≠ 0 then (.error flBadContext, h2)
          else
            let s := h2.stu
            let root := mkFld 45 12 (nbits e 45 12)
            if !inStore root 4096 then (.error flRange, h2)
            else (.ok root, setStu (capCtx { s with asids := s.asids ++ [(t, asid, w64 e)] }) h2)

/-- R138: the bits of a TVA that select a level's table. -/
def levelTag (level va : Nat) : Nat := va >>> (30 + 9 * level)
def levelIndex (level va : Nat) : Nat := (va >>> (21 + 9 * level)) % 512

/-- R143: remember the table that a level walks from. -/
def installNonLeaf (t asid level va table : Nat) (h : Hub) : Hub :=
  let s := h.stu
  let l := s.nonLeaves ++ [⟨t, asid, level, levelTag level va, table⟩]
  setStu { s with nonLeaves := l.drop (l.length - 1024) } h

/-- Walk from a level's table down: the leaf entry and its page size (R140). -/
def walkDown (t asid va : Nat) : Nat → Nat → Hub → Except Nat (Nat × Nat) × Hub
  | 0, table, h =>
    match tableRead (table + 8 * levelIndex 0 va) h with
    | (none, h1) => (.error flWalkPoison, h1)
    | (some e, h1) =>
      match entryKind 0 e with
      | .fault c => (.error c, h1)
      | .leaf k => (.ok (e, k), h1)
      | .table _ => (.error flBadEntry, h1)
  | level + 1, table, h =>
    match tableRead (table + 8 * levelIndex (level + 1) va) h with
    | (none, h1) => (.error flWalkPoison, h1)
    | (some e, h1) =>
      match entryKind (level + 1) e with
      | .fault c => (.error c, h1)
      | .leaf k => (.ok (e, k), h1)
      | .table off => walkDown t asid va level off (installNonLeaf t asid level va off h1)

def cachedTable (t asid level va : Nat) (h : Hub) : Option Nat :=
  (h.stu.nonLeaves.find? (fun e => e.tenant == t && e.asid == asid && e.level == level && e.tag == levelTag level va)).map (·.table)

/-- R138, R145: one walk; it starts at the lowest level whose table is cached. -/
def walkPage (t asid va : Nat) (h : Hub) : Except Nat (Nat × Nat) × Hub :=
  match cachedTable t asid 0 va h with
  | some off => walkDown t asid va 0 off h
  | none =>
    match cachedTable t asid 1 va h with
    | some off => walkDown t asid va 1 off h
    | none =>
      match cachedTable t asid 2 va h with
      | some off => walkDown t asid va 2 off h
      | none =>
        match asidEntry t asid h with
        | (.error c, h1) => (.error c, h1)
        | (.ok root, h1) => walkDown t asid va 3 root h1

/-- R141, R143: cache a leaf, replacing an older one for the same page. -/
def installLeaf (t asid va entry size : Nat) (pf : Bool) (h : Hub) : Hub :=
  let s := h.stu
  let base := va / size * size
  let l := s.leaves.filter (fun e => !(e.tenant == t && e.asid == asid && e.base == base && e.size == size)) ++
    [⟨t, asid, base, size, entry, pf⟩]
  setStu { s with leaves := l.drop (l.length - 16384) } h

/-- The last walked leaf that covers an address. -/
def findLeaf (t asid va : Nat) (h : Hub) : Option LeafEntry :=
  h.stu.leaves.reverse.find? (fun e => e.tenant == t && e.asid == asid && decide (e.base ≤ va ∧ va < e.base + e.size))

/-- A use of a cached leaf: least recently used order, and the first use of a prefetched one (R163). -/
def useLeaf (e : LeafEntry) (h : Hub) : Hub :=
  let s := h.stu
  let h1 := setStu { s with leaves := s.leaves.filter (· != e) ++ [{ e with pf := false }] } h
  if e.pf then count 0xA3 4 1 h1 else h1

/-- What translation comes to: pieces of the module offset space and the page of the first leaf used, a fault, or a
TVA whose page is not cached. -/
inductive Xlate
  | ok (parts : List (Nat × Nat)) (leaf : Option (Nat × Nat × Nat))
  | fault (code : Nat)
  | miss (va : Nat)
  deriving DecidableEq, Repr

def joinParts (a : Nat × Nat) : List (Nat × Nat) → List (Nat × Nat)
  | [] => [a]
  | b :: t => if a.1 + a.2 = b.1 then (a.1, a.2 + b.2) :: t else a :: b :: t

/-- R142: the pages a TVA request touches, each checked. -/
def xlateTva : Nat → Nat → Nat → Nat → Nat → Nat → Hub → Xlate × Hub
  | 0, _, _, _, _, _, h => (.fault flRange, h)
  | fuel + 1, t, asid, va, n, op, h =>
    if 2 ^ 57 ≤ va then (.fault flNotMapped, h)
    else
      match findLeaf t asid va h with
      | none => (.miss va, h)
      | some e =>
        let k := max 1 (min n (e.base + e.size - va))
        let off := mkFld 45 12 (nbits e.entry 45 12) + (va - e.base)
        if !rightsOk e.entry op then (.fault flRights, h)
        else if !assigned off k op h then (.fault flRange, h)
        else
          let h1 := useLeaf e h
          if n ≤ k then (.ok [(pairWindow off h, n)] (some (t, asid, e.base)), h1)
          else
            match xlateTva fuel t asid (va + k) (n - k) op h1 with
            | (.ok ps _, h2) => (.ok (joinParts (pairWindow off h, k) ps) (some (t, asid, e.base)), h2)
            | (r, h2) => (r, h2)

/-- This module's ID, or the pair's, in a GSA (R134). -/
def gsaHere (a : Nat) (h : Hub) : Bool := moduleValid h && nbits a 55 46 == moduleId h

/-- R134: an accepted GSA-mode request. -/
def gsaTarget (a n op : Nat) (h : Hub) : Xlate :=
  if !gsaHere a h then .fault flForeign
  else if assigned (nbits a 45 0) n op h then .ok [(pairWindow (nbits a 45 0) h, n)] none else .fault flRange

/-- R134: `trusted`: the request comes under the first or second case. -/
def xlateGsa (trusted : Bool) (t a n op : Nat) (h : Hub) : Xlate × Hub :=
  if trusted then (gsaTarget a n op h, h)
  else if !enabled 0xA0 h then (.fault flBadContext, h)
  else
    match tenantEntry t h with
    | (.error c, h1) => (.fault (if c = flWalkPoison then c else if c = flRange then c else flBadContext), h1)
    | (.ok (w, _), h1) => if w.testBit 1 then (gsaTarget a n op h1, h1) else (.fault flGsaDenied, h1)

/-- R132 to R135, R153. -/
def xlate (trusted : Bool) (t asid a n op : Nat) (h : Hub) : Xlate × Hub :=
  if asid = 0xFFFF then xlateGsa trusted t a n op h
  else if !enabled 0xA0 h then (.fault flBadContext, h)
  else xlateTva (n / 2 ^ 21 + 2) t asid a n op h

/-- R151, R156: a fault is counted, and recorded where the FIFO has room. -/
def stuFault (code op addr path srcModule srcUnit asid tenant : Nat) (h : Hub) : Hub :=
  let h1 := meterAdd tenant 7 1 (count 0xA3 7 1 h)
  if h1.stu.faults.length < 16 then
    let a := if asid = 0xFFFF then addr % 2 ^ 56 else addr
    let r : StuFault := ⟨w64 (mkFld 63 60 code + mkFld 59 57 op + mkFld 56 0 a),
      w64 (mkFld 63 48 h1.devTime + mkFld 47 46 path + mkFld 45 36 srcModule + mkFld 35 28 srcUnit + mkFld 27 12 asid +
        mkFld 11 0 tenant)⟩
    raise 0xA0 16 { h1 with stu := { h1.stu with faults := h1.stu.faults ++ [r] } }
  else raise 0xA0 17 h1

/-- A demand walk done at once for a unit that does not wait; none where it faulted. -/
def walkNow (t asid va : Nat) (h : Hub) : Except Nat Hub :=
  match walkPage t asid va (count 0xA3 2 1 h) with
  | (.ok (e, k), h1) => .ok (installLeaf t asid va e k false h1)
  | (.error c, _) => .error c

/-- Translation for a unit that does not wait (log entry 10): misses are walked at once. -/
def xlateNowGo : Nat → Bool → Nat → Nat → Nat → Nat → Nat → Hub → Except Nat (List (Nat × Nat)) × Hub
  | 0, _, _, _, _, _, _, h => (.error flNotMapped, h)
  | fuel + 1, trusted, t, asid, a, n, op, h =>
    match xlate trusted t asid a n op h with
    | (.ok ps _, h1) => (.ok ps, h1)
    | (.fault c, h1) => (.error c, h1)
    | (.miss va, h1) =>
      match walkPage t asid va (count 0xA3 1 1 (count 0xA3 2 1 h1)) with
      | (.ok (e, k), h2) => xlateNowGo fuel trusted t asid a n op (installLeaf t asid va e k false h2)
      | (.error c, h2) => (.error c, if c = flWalkPoison then raise 0xA0 19 h2 else h2)

/-- R163: a translation that the caches served; GSA mode has none, nor a disabled STU. -/
def servedCached (asid : Nat) (x : Xlate) (h : Hub) : Bool :=
  asid != 0xFFFF && enabled 0xA0 h && (match x with | .miss _ => false | _ => true)

/-- R163: a request whose translation x was cached counts as a hit. -/
def countHit (asid : Nat) (x : Xlate) (h0 h : Hub) : Hub := if servedCached asid x h0 then count 0xA3 0 1 h else h

/-- An engine's or internal unit's address: translated at once, its fault recorded (R151). `path`: 1 core DMA, 2 engine. -/
def xlateNow (trusted : Bool) (path unit t asid a n op : Nat) (h : Hub) : Except Nat (List (Nat × Nat)) × Hub :=
  match xlateNowGo (n / 2 ^ 21 + 3) trusted t asid a n op (countHit asid (xlate trusted t asid a n op h).1 h h) with
  | (.ok ps, h1) => (.ok ps, h1)
  | (.error c, h1) => (.error c, stuFault c op a path (moduleId h1) unit asid t h1)

/- ### Streams, prefetch and prewalks (R146, R147, R161) -/

def pfLimit (h : Hub) : Nat := regFld 0xA0 0x40 7 4 h
def pfDist (h : Hub) : Nat := min 31 (regFld 0xA0 0x40 15 8 h)
def pfWalks (s : Stu) : Nat := (s.walks.filter (fun w => !w.demand)).length
def walking (t asid vpn : Nat) (s : Stu) : Bool := s.walks.any (fun w => w.tenant == t && w.asid == asid && w.vpn == vpn)

/-- R147: a prefetch walk, where a slot allows it. -/
def startPrefetch (t asid va : Nat) (h : Hub) : Hub :=
  let s := h.stu
  if (findLeaf t asid va h).isSome || walking t asid (va / 2 ^ 21) s || decide (32 ≤ s.walks.length) ||
      decide (pfLimit h ≤ pfWalks s) || decide (2 ^ 57 ≤ va) then h
  else count 0xA3 3 1 (setStu { s with walks := s.walks ++ [⟨t, asid, va / 2 ^ 21, false, false⟩] } h)

/-- R146: how a tracker moves with a request to a tile. -/
def trackStep (k : Tracker) (tile : Nat) : Tracker :=
  if tile = k.tile then k
  else if tile = k.tile + 1 then { k with tile := tile, up := true, run := if k.up then k.run + 1 else 2 }
  else if tile + 1 = k.tile then { k with tile := tile, up := false, run := if !k.up then k.run + 1 else 2 }
  else { k with tile := tile, up := true, run := 1 }

/-- R146: a request of a source trains its tracker, and a trained stream near the end of its page prefetches. -/
def track (module unit t asid va : Nat) (h : Hub) : Hub :=
  let s := h.stu
  let tile := va / 65536
  let same (k : Tracker) : Bool := k.module == module && k.unit == unit
  let k := match s.trackers.find? same with
    | some k => if k.tenant = t ∧ k.asid = asid then trackStep k tile else ⟨module, unit, t, asid, tile, true, 1⟩
    | none => ⟨module, unit, t, asid, tile, true, 1⟩
  let l := s.trackers.filter (fun x => !same x) ++ [k]
  let h1 := setStu { s with trackers := l.drop (l.length - 64) } h
  match findLeaf t asid va h1 with
  | none => h1
  | some e =>
    if k.run < 3 ∨ pfDist h1 = 0 then h1
    else if k.up ∧ (e.base + e.size) / 65536 - tile ≤ pfDist h1 then startPrefetch t asid (e.base + e.size) h1
    else if !k.up ∧ tile + 1 - e.base / 65536 ≤ pfDist h1 ∧ 0 < e.base then startPrefetch t asid (e.base - 1) h1
    else h1

/-- R161: start walks of queued prewalks while slots allow. -/
def pumpPrewalks : Nat → Hub → Hub
  | 0, h => h
  | fuel + 1, h =>
    match h.stu.prewalks with
    | [] => h
    | p :: ps =>
      let s := h.stu
      if p.left = 0 ∨ 2 ^ 57 ≤ p.next then pumpPrewalks fuel (setStu { s with prewalks := ps } h)
      else
        let p1 := { p with next := p.next + 2 ^ 21, left := p.left - 1 }
        if (findLeaf p.tenant p.asid p.next h).isSome || walking p.tenant p.asid (p.next / 2 ^ 21) s then
          pumpPrewalks fuel (setStu { s with prewalks := p1 :: ps } h)
        else if 32 ≤ s.walks.length ∨ pfLimit h ≤ pfWalks s then h
        else pumpPrewalks fuel (startPrefetch p.tenant p.asid p.next (setStu { s with prewalks := p1 :: ps } h))

/-- R161: queue a prewalk of n units of 2 MiB; false where 16 are queued. -/
def queuePrewalk (t asid va n : Nat) (h : Hub) : Bool × Hub :=
  let s := h.stu
  if 16 ≤ s.prewalks.length then (false, raise 0xA2 16 h)
  else
    let h1 := setStu { s with prewalks := s.prewalks ++ [⟨t, asid, va / 2 ^ 21 * 2 ^ 21, max 1 n⟩] } h
    (true, pumpPrewalks (70000 * 17) h1)

/-- A request needs a walk of its page: a demand walk is in progress or starts where a slot is free (R143, R147). -/
def needWalk (t asid va : Nat) (h : Hub) : Hub :=
  let s := h.stu
  let vpn := va / 2 ^ 21
  if walking t asid vpn s then
    setStu { s with walks := s.walks.map (fun w => if w.tenant = t ∧ w.asid = asid ∧ w.vpn = vpn then { w with demand := true } else w) } h
  else if 32 ≤ s.walks.length then h
  else count 0xA3 2 1 (setStu { s with walks := s.walks ++ [⟨t, asid, vpn, true, false⟩] } h)

/- ### Invalidation (R148 to R150) -/

/-- R149: does a scope take in a leaf, or the page of a walk or of a translated request? -/
def invCovers (c : InvCmd) (t asid base size : Nat) : Bool :=
  if c.scope = 0 then true
  else if c.scope = 1 then t == c.tenant
  else if c.scope = 2 then t == c.tenant && asid == c.asid
  else t == c.tenant && asid == c.asid &&
    decide (base < c.start + max 1 c.count * 2 ^ 21 ∧ c.start < base + size)

/-- R149: the first two things an invalidation does; `held` are the requests translated and not yet accepted. -/
def invRemove (c : InvCmd) (held : List Req) (h : Hub) : Hub :=
  let s := h.stu
  let gone (e : LeafEntry) : Bool := invCovers c e.tenant e.asid e.base e.size
  let waits := held.filter (fun r =>
    match r.leaf with
    | some (t, a, b) => s.leaves.any (fun e => gone e && e.tenant == t && e.asid == a && e.base == b)
    | none => false)
  setStu { s with
    leaves := s.leaves.filter (fun e => !gone e)
    nonLeaves := s.nonLeaves.filter (fun e =>
      !(c.scope == 0 || (e.tenant == c.tenant && (c.scope == 1 || e.asid == c.asid))))
    tenants := s.tenants.filter (fun e => !(c.scope == 0 || (c.scope == 1 && e.1 == c.tenant)))
    asids := s.asids.filter (fun e =>
      !(c.scope == 0 || (c.scope == 1 && e.1 == c.tenant) || (c.scope == 2 && e.1 == c.tenant && e.2.1 == c.asid)))
    walks := s.walks.map (fun w =>
      if invCovers c w.tenant w.asid (w.vpn * 2 ^ 21) (2 ^ 21) then { w with again := true } else w)
    invs := s.invs.map (fun d => if d.seq = c.seq then { d with removed := true, waitFor := waits.map (·.id) } else d) } h

/-- Requests translated and held at a shaper (R149). -/
def heldAtShapers (h : Hub) : List Req := (h.shapers.map (fun e => e.2.queue)).flatten

/-- The head of the invalidation queue removes its entries when it reaches the head. -/
def invHead (h : Hub) : Hub :=
  match h.stu.invs with
  | [] => h
  | c :: _ => if c.removed then h else invRemove c (heldAtShapers h) h

/-- R158: an invalidation is accepted, or sets INV_OVF. -/
def invQueue (scope tenant asid start n : Nat) (h : Hub) : Hub :=
  let s := h.stu
  if 16 ≤ s.invs.length then raise 0xA1 16 h
  else
    let q := (s.issuedSeq + 1) % 65536
    invHead (setStu { s with issuedSeq := q, invs := s.invs ++ [⟨q, scope, tenant, asid, start / 2 ^ 21 * 2 ^ 21, n, false, []⟩] } h)

/-- R150: the head completes once the requests it waits for are accepted. -/
def invDone (h : Hub) : Hub :=
  match h.stu.invs with
  | [] => h
  | c :: cs =>
    let ids := (heldAtShapers h).map (·.id)
    if c.waitFor.any (fun i => ids.contains i) then h
    else
      let s := h.stu
      invHead (count 0xA3 8 1 (raiseEvent 0xA1 0 (setStu { s with doneSeq := c.seq, invs := cs } h)))

/-- R149: when an invalidation covers what a waiting request would use, prefetch and stream state are left alone. After a
cold or warm reset caches and queues are empty (R163). -/
def stuReset (h : Hub) : Hub := { h with stu := {} }

end Sys2Proof.Machine
end

