-- ==== Sys2Proof/Machine/Pipe.lean ====
section
/-!
DEFINITION. What happens to a request before it reaches its target: completion to its source (R255, R151), leases (R315
to R320), shapers and the calendar wheel (R529 to R538), DevLoad and drains (R499 to R504).
-/
namespace Sys2Proof.Machine

/- ### Requests in flight -/

/-- Every request held in the STU, at a shaper or at its home. -/
def reqsInFlight (h : Hub) : List Req :=
  h.stu.waiting ++ heldAtShapers h ++ h.coh.waiting ++ h.coh.txs.map (·.req)

def getCxl (p : Nat) (h : Hub) : CxlPort := if p = 0 then h.cxl0 else h.cxl1
def putCxl (p : Nat) (c : CxlPort) (h : Hub) : Hub := if p = 0 then { h with cxl0 := c } else { h with cxl1 := c }
def cxlPage (p : Nat) : Nat := 0x30 + p
def getLd (p n : Nat) (h : Hub) : LogDev := Tab.getD (getCxl p h).lds n {}
def putLd (p n : Nat) (d : LogDev) (h : Hub) : Hub := putCxl p { getCxl p h with lds := Tab.set (getCxl p h).lds n d } h
def getExt (p i : Nat) (h : Hub) : Extent := Tab.getD (getCxl p h).extents i {}
def putExt (p i : Nat) (e : Extent) (h : Hub) : Hub :=
  putCxl p { getCxl p h with extents := Tab.set (getCxl p h).extents i e } h

def ofLd (p n : Nat) (r : Req) : Bool :=
  match r.src with
  | .cxl q m _ _ => q == p && m == n
  | .pool _ q m _ => q == p && m == n
  | _ => false

def ofExtent (p i : Nat) (r : Req) : Bool :=
  match r.src with
  | .cxl q _ _ e => q == p && e == i
  | .pool _ q _ e => q == p && e == i
  | _ => false

/-- R504: the backlog of a logical device. -/
def backlog (p n : Nat) (h : Hub) : Nat := ((reqsInFlight h).filter (ofLd p n)).length

/-- R499: the drain counter of an extent. -/
def drainCount (p i : Nat) (h : Hub) : Nat := ((reqsInFlight h).filter (ofExtent p i)).length

/-- R504: the DevLoad of a message. -/
def devLoad (p n : Nat) (h : Hub) : Nat :=
  let w := backlog p n h
  let r := getReg (cxlPage p) 0x48 h
  let a := if w < fld r 9 0 then 0 else if w < fld r 19 10 then 1 else if w < fld r 29 20 then 2 else 3
  let b := if sharedFree h < 63424 then 2 else 0
  max a b

/-- Count a message with DevLoad 0b11. -/
def devLoadNote (p n : Nat) (h : Hub) : Hub := if devLoad p n h = 3 then count (cxlPage p) 6 1 h else h

/-- R499, R500: an extent becomes Unused: record, CXLP_DRAIN_LAST, DRAIN_DONE. -/
def extentUnused (p i withdrawn : Nat) (h : Hub) : Hub :=
  let e := getExt p i h
  let c := getCxl p h
  let r : DcRecord := ⟨c.fmHandle, 0, e.ld, e.dpaBlk * 2 ^ 26, e.count * 2 ^ 26, withdrawn⟩
  putCxl p { c with fmEvents := c.fmEvents ++ [r], fmHandle := c.fmHandle + 1, extents := Tab.erase c.extents i } h
    |> putReg (cxlPage p) 0x70 (w64 (mkFld 63 52 i + mkFld 51 48 e.ld + mkFld 47 32 (min withdrawn 0xFFFF) + mkFld 31 0 (h.devTime / 1024)))
    |> raiseEvent (cxlPage p) 0 |> raiseEvent (cxlPage p) 1

/-- R514: the tenant a request is charged to. -/
def reqTenant (r : Req) (h : Hub) : Nat :=
  match r.src with
  | .frame _ => r.frame.tenant
  | .cxl p n _ _ => (getLd p n h).tenant
  | .pool _ p n _ => if p < 2 then (getLd p n h).tenant else r.frame.tenant
  | .tileRecall _ | .backSnoop => 0

/-- R499: every Draining extent of the port whose counter is 0 becomes Unused. -/
def drainCheck (p : Nat) (h : Hub) : Hub :=
  ((getCxl p h).extents).foldl (fun x e =>
    if e.2.st = .draining ∧ drainCount p e.1 x = 0 then extentUnused p e.1 0 x else x) h

/-- R501: an unperformed CXL.mem write: recorded, MEM_DROP, ERR_NONFATAL. -/
def cxlDrop (p n cause dpa : Nat) (h : Hub) : Hub :=
  h |> putReg (cxlPage p) 0x78 (w64 (mkFld 63 60 cause + mkFld 59 56 n + mkFld 44 0 dpa))
    |> putReg (cxlPage p) 0x80 (w64 (mkFld 47 0 h.devTime))
    |> raise (cxlPage p) 16 |> count (cxlPage p) 3 1 |> emit (.errNonfatal p n)

/-- R496: MemData. -/
def memData (p n tag : Nat) (data : List Byte) (poison : Bool) (h : Hub) : Hub :=
  let h1 := emit (.memData p n tag data poison (devLoad p n h)) (devLoadNote p n h)
  if poison then count (cxlPage p) 2 1 h1 else h1

/-- R496: Cmp. -/
def memCmp (p n tag : Nat) (h : Hub) : Hub := emit (.memCmp p n tag (devLoad p n h)) (devLoadNote p n h)

/-- R257: a posted write of the flush's flow that came before it is still in flight. -/
def flushBlocked (r : Req) (h : Hub) : Bool :=
  (reqsInFlight h).any (fun q => decide (q.id < r.id) && q.frame.opcode == 0x03 && q.frame.srcModule == r.frame.srcModule &&
    q.frame.srcUnit == r.frame.srcUnit && q.frame.tc == r.frame.tc)

/-- R257: FLUSH requests whose earlier posted writes are performed complete. -/
def flushCheck (h : Hub) : Hub :=
  let go := h.coh.flushes.filter (fun r => !flushBlocked r h)
  go.foldl (fun x r => sendFrame (completionOf r.frame stOk 0 0 false [] x) x)
    { h with coh := { h.coh with flushes := h.coh.flushes.filter (fun r => flushBlocked r h) } }

/-- The answer to a request (R151, R191, R255, R320, R501). `turned` of a CXL.mem request marks an answer that a host-port
reset discards (R500). -/
def answer (r : Req) (status detail aux : Nat) (poison : Bool) (data : List Byte) (h0 : Hub) : Hub :=
  let h := if status = stDenied then meterAdd (reqTenant r h0) 7 1 h0 else h0
  match r.src with
  | .frame _ => if r.frame.posted then flushCheck h else sendFrame (completionOf r.frame status detail aux poison data h) h
  | .cxl p n tag _ =>
    let h1 :=
      if r.frame.turned then h
      else if r.frame.opcode = 1 then
        (if status = stOk then memData p n tag data poison h else memData p n tag (poisonPattern 64) true h)
      else if status = stOk then memCmp p n tag h
      else memCmp p n tag (cxlDrop p n (if status = stDenied then 4 else 1) r.frame.operand0 h)
    drainCheck p h1
  | .tileRecall _ | .backSnoop | .pool _ _ _ _ => h

/-- An answer with no data. -/
def answerStatus (r : Req) (status detail : Nat) (h : Hub) : Hub := answer r status detail 0 false [] h

/- ### Leases (R315 to R320) -/

/-- The issuer of a write, as a lease sees it. -/
inductive Issuer
  | trusted
  | ld (port n : Nat)
  | agent (module unit : Nat)
  deriving DecidableEq, Repr

def issuerHolds (i : Issuer) (l : Lease) : Bool :=
  match i, l.holder with
  | .trusted, _ => true
  | .ld p n, .ld _ q m => p == q && n == m
  | .agent a u, .agent b v => a == b && u == v
  | _, _ => false

def leaseBase (h : Hub) : Nat := mkFld 45 16 (regFld 0x60 0x48 45 16 h)

/-- R548: an entry that reads poisoned is treated as Undefined. -/
def leaseUsable (i : Nat) (h : Hub) : Bool := !anyPoison (leaseBase h + 16 * i) 16 h

/-- R320: does a lease refuse this issuer's write to bytes off to off+n−1? -/
def leaseDenies (i : Issuer) (off n : Nat) (h : Hub) : Bool :=
  match i with
  | .trusted => false
  | _ =>
    h.coh.leases.any (fun e =>
      e.2.st != .undefined && leaseUsable e.1 h &&
      (tilesOf off n).any (fun t => decide (e.2.tile ≤ t ∧ t < e.2.tile + e.2.count)) &&
      !(e.2.st == .held && issuerHolds i e.2))

/-- The requests R320 names. -/
def leaseChecked (f : Frame) : Bool := [0x02, 0x03, 0x04, 0x06, 0x51, 0x52].contains f.opcode

def issuerOf (r : Req) : Issuer :=
  match r.src with
  | .frame _ => .agent r.frame.srcModule r.frame.srcUnit
  | .cxl p n _ _ => .ld p n
  | .pool _ p n _ => .ld p n
  | .tileRecall _ | .backSnoop => .trusted

/-- Bytes of store a request's own effect covers. -/
def reqLen (f : Frame) : Nat :=
  if f.opcode = 0x04 then (if f.aux.testBit 8 then 8 else 4)
  else if f.opcode = 0x06 then 65536
  else if 0x50 ≤ f.opcode ∧ f.opcode ≤ 0x54 then 128
  else f.len

/-- R306, R320: internal units of another module's frames are internal units. -/
def leaseRefuses (r : Req) (h : Hub) : Bool :=
  leaseChecked r.frame &&
  (match r.src with
   | .frame _ => !(0x80 ≤ r.frame.srcUnit && r.frame.srcUnit ≤ 0xBF)
   | _ => true) &&
  leaseDenies (issuerOf r) r.off (reqLen r.frame) h

/- ### Shapers (R529 to R538) -/

/-- R530: the data size of a request. -/
def dataSize (r : Req) : Nat :=
  match r.src with
  | .cxl _ _ _ _ => 64
  | _ =>
    let o := r.frame.opcode
    if o = 0x04 then reqLen r.frame
    else if [0x50, 0x51, 0x52, 0x53].contains o then 128
    else if [0x01, 0x02, 0x03, 0x06, 0x10, 0x11, 0x12].contains o then r.frame.len
    else 0

def getShaper (k : Nat) (h : Hub) : Shaper := Tab.getD h.shapers k {}
def putShaper (k : Nat) (s : Shaper) (h : Hub) : Hub := { h with shapers := Tab.set h.shapers k s }

def burstOf (s : Shaper) : Nat := max 8192 s.burst
def allocOf (s : Shaper) : Nat := if s.limit = 0 then s.alloc else min s.alloc s.limit

/-- The shaper a request must pass, where it is shaped (R529, R505). -/
def shaperOf (r : Req) (h : Hub) : Option Nat :=
  if !enabled 0xD8 h then none
  else
    let k : Option Nat :=
      match r.src with
      | .frame p => let m := getReg 0xD8 (0x100 + 4 * p) h; if p < 28 ∧ bitOf m 31 then some (fld m 7 0) else none
      | .cxl p n _ _ => if regBit (cxlPage p) 0x44 0 h then none else some (getLd p n h).shaper
      | .pool _ p n _ => if p ≥ 2 ∨ regBit (cxlPage p) 0x44 0 h then none else some (getLd p n h).shaper
      | .tileRecall _ | .backSnoop => none
    match k with
    | some i => if (getShaper i h).en then some i else none
    | none => none

/-- R531: counts are kept in thousandths of a byte. -/
def refill (t : Nat) (s : Shaper) : Shaper :=
  let cap : Int := (1000 * burstOf s : Nat)
  let dt := t - s.t0
  { s with peak := min cap (s.peak + ((s.limit * dt : Nat) : Int)),
           committed := min cap (s.committed + ((allocOf s * dt : Nat) : Int)), t0 := t }

/-- R530, R536: the charge of a request. -/
def chargeOf (s : Shaper) (r : Req) : Nat :=
  dataSize r + s.overhead + (if r.frame.cm then 64 * s.penalty else 0)

/-- R531, R533: the wheel slot of a held shaper, and whether it was limited to the last slot of the span. -/
def heldSlot (t : Nat) (s : Shaper) : Nat × Bool :=
  let ne := t + ceilDiv (-s.peak).toNat s.limit
  if t + 32760 < ne then (t / 8 + 4095, true) else (ceilDiv ne 8, false)

/-- R531: try_admit on one request: admitted with its profile, or held with the shaper on the wheel. -/
def tryAdmit (k t : Nat) (r : Req) (h : Hub) : Option Req × Hub :=
  let s := getShaper k h
  if s.limit = 0 then (some { r with inProfile := decide (s.alloc ≠ 0) }, count 0xD8 0 1 h)
  else
    let s1 := refill t s
    if s1.peak < 0 ∧ r.frame.tc ≠ 7 then
      let w := heldSlot t s1
      (none, (if s.far ∧ s.slot.isSome then count 0xD8 5 1 else id) (putShaper k { s1 with slot := some w.1, far := w.2 } h))
    else
      let c : Int := (1000 * chargeOf s1 r : Nat)
      let h1 := if s1.peak < 0 then count 0xD8 3 1 h else h
      let h2 := if r.frame.cm ∧ s1.penalty ≠ 0 then count 0xD8 4 1 h1 else h1
      (some { r with inProfile := decide (s1.alloc ≠ 0 ∧ 0 ≤ s1.committed) },
       count 0xD8 0 1 (putShaper k { s1 with peak := s1.peak - c, committed := s1.committed - c } h2))

/-- R529, R532: a request reaches its shaper: the requests that leave now. -/
def shapeIn (r : Req) (h : Hub) : List Req × Hub :=
  match shaperOf r h with
  | none => ([r], h)
  | some k =>
    let s := getShaper k h
    if r.frame.tc ≠ 7 ∧ (s.queue ≠ [] ∨ s.slot.isSome) then
      ([], count 0xD8 1 1 (putShaper k { s with queue := s.queue ++ [r] } h))
    else
      match tryAdmit k h.devTime r h with
      | (some r1, h1) => ([r1], h1)
      | (none, h1) =>
        let s1 := getShaper k h1
        ([], count 0xD8 1 1 (putShaper k { s1 with queue := s1.queue ++ [r] } h1))

/-- R533: an offered shaper admits from its queue until a request is held. -/
def offerShaper (k t : Nat) : Nat → Hub → List Req × Hub
  | 0, h => ([], h)
  | fuel + 1, h =>
    let s := getShaper k h
    match s.queue with
    | [] => ([], putShaper k { s with slot := none, far := false } h)
    | r :: q =>
      match tryAdmit k t r h with
      | (none, h1) => ([], h1)
      | (some r1, h1) =>
        let x := offerShaper k t fuel (putShaper k { getShaper k h1 with queue := q } h1)
        (r1 :: x.1, x.2)

/-- R533: every slot that has come due, each shaper in ascending index. -/
def wheelDue (h : Hub) : List Req × Hub :=
  (h.shapers.map (·.1)).foldl (fun acc k =>
    let s := getShaper k acc.2
    match s.slot with
    | some w =>
      if w * 8 ≤ acc.2.devTime then
        let x := offerShaper k (w * 8) (s.queue.length + 1) (putShaper k { s with slot := some w } acc.2)
        (acc.1 ++ x.1, x.2)
      else acc
    | none => acc) ([], h)

/-- R537: a reconfiguration: counts to BURST or 0; the wheel offers the shaper in the next slot. -/
def shaperReset (k : Nat) (h : Hub) : Hub :=
  let s := getShaper k h
  let v : Int := if s.resetTo then (1000 * burstOf s : Nat) else 0
  putShaper k { s with peak := v, committed := v, t0 := h.devTime,
                       slot := if s.queue = [] then none else some (h.devTime / 8 + 1), far := false } h

/-- R537: a shaper no longer shapes: its requests leave, in order. -/
def shaperRelease (k : Nat) (h : Hub) : List Req × Hub :=
  let s := getShaper k h
  (s.queue, putShaper k { s with queue := [], slot := none, far := false } h)

end Sys2Proof.Machine
end

