-- ==== Sys2Proof/Machine/Pou.lean ====
section
/-!
DEFINITION. The Pool Operation Unit (R506 to R512): submission, descriptors, pieces, aborts and completion records.
-/
namespace Sys2Proof.Machine

def pouPage : Nat := 0xD0

def setPou (p : Pou) (h : Hub) : Hub := { h with pou := p }

/-- Record status codes (R511). -/
def psOk : Nat := 0
def psAborted : Nat := 1
def psBadDesc : Nat := 2
def psXlate : Nat := 3
def psExtent : Nat := 4
def psDenied : Nat := 5
def psPoolFull : Nat := 6
def psPoison : Nat := 7

/-- R516: a sender's stamp. -/
def stampWord (time path module unit tenant : Nat) : Word :=
  w64 (mkFld 63 32 (time / 1024) + mkFld 31 30 path + mkFld 29 20 module + mkFld 19 12 unit + mkFld 11 0 tenant)

/-- R516: the stamp of a register access. -/
def regStamp (r : Requester) (h : Hub) : Word :=
  let member := if h.twin.en then h.twin.role else 0
  match r with
  | .sideband => stampWord h.devTime 0 (moduleId h) 0 0
  | .fm p => stampWord h.devTime 0 (moduleId h) p 0
  | .ld p n => stampWord h.devTime 1 (moduleId h) (32 * member + 16 * p + n) (getLd p n h).tenant
  | .agent m u t => stampWord h.devTime 2 m u t

/-- R516: the stamp of a frame. -/
def frameStamp (f : Frame) (h : Hub) : Word := stampWord h.devTime 2 f.srcModule f.srcUnit f.tenant

/- ### Descriptors (R507) -/

def pouWord (c : PouCmd) (i : Nat) : Nat := leAt c.desc (8 * i) 8
def PouCmd.op (c : PouCmd) : Nat := nbits (pouWord c 0) 3 0
def PouCmd.rfmt (c : PouCmd) : Nat := nbits (pouWord c 0) 7 4
def PouCmd.rop (c : PouCmd) : Nat := nbits (pouWord c 0) 9 8
def PouCmd.nsrc (c : PouCmd) : Nat := if c.op = 4 then nbits (pouWord c 0) 11 10 + 1 else if c.op = 1 then 0 else 1
def PouCmd.acc (c : PouCmd) : Bool := c.op == 4 && (pouWord c 0).testBit 12
def PouCmd.gsa (c : PouCmd) : Bool := (pouWord c 0).testBit 13
def PouCmd.tag (c : PouCmd) : Nat := nbits (pouWord c 0) 63 32
def PouCmd.len (c : PouCmd) : Nat := nbits (pouWord c 1) 39 0
def PouCmd.dst (c : PouCmd) : Nat := nbits (pouWord c 2) 56 0
def PouCmd.src (c : PouCmd) (k : Nat) : Nat := nbits (pouWord c (3 + k)) 56 0
def PouCmd.cpl (c : PouCmd) : Nat := nbits (pouWord c 7) 56 0

def PouCmd.isLd (c : PouCmd) : Bool := match c.sub with | .ld _ _ => true | .agent _ _ => false

/-- R508: a descriptor that breaks R507, or whose DST overlaps a source as written. -/
def pouBad (c : PouCmd) : Bool :=
  let w := pouWord c 0
  let addrBad (i align : Nat) : Bool := nbits (pouWord c i) 63 57 != 0 || pouWord c i % align != 0
  let overlap (a : Nat) : Bool := decide (a < c.dst + c.len ∧ c.dst < a + c.len)
  decide (c.op < 1 ∨ 4 < c.op) ||
  (c.op == 4 && (!([6, 9, 0xA, 0xB].contains c.rfmt) || c.rop == 3)) ||
  (c.gsa && c.isLd) || nbits w 31 14 != 0 || nbits (pouWord c 1) 63 40 != 0 || c.len == 0 || c.len % 64 != 0 ||
  addrBad 2 64 || addrBad 7 32 || (List.range c.nsrc).any (fun k => addrBad (3 + k) 64 || overlap (c.src k))

/- ### Addresses (R507, R133, R499, R320) -/

/-- R498: the extent of a logical device that serves a DPA. -/
def extentOf (p n dpa : Nat) (h : Hub) : Option (Nat × Extent) :=
  let b := dpa / 2 ^ 26
  (getCxl p h).extents.find? (fun e =>
    e.2.ld == n && e.2.st != .unused && decide (e.2.dpaBlk ≤ b ∧ b < e.2.dpaBlk + e.2.count))

def extentServes (e : Extent) : Bool := e.st == .active || e.st == .recalled

/-- A DPA range, cut at 64 MiB: module offset, bytes, extent. -/
def dpaParts (p n : Nat) (write : Bool) : Nat → Nat → Nat → Hub → Option (List (Nat × Nat × Nat))
  | 0, _, _, _ => some []
  | fuel + 1, a, len, h =>
    if len = 0 then some []
    else
      match extentOf p n a h with
      | none => none
      | some (i, e) =>
        if !extentServes e || !(if write then e.w else e.r) || !(getLd p n h).en then none
        else
          let k := min len (2 ^ 26 - a % 2 ^ 26)
          (dpaParts p n write fuel (a + k) (len - k) h).map
            (fun t => (e.offBlk * 2 ^ 26 + (a - e.dpaBlk * 2 ^ 26), k, i) :: t)

def pouIssuer (c : PouCmd) : Issuer :=
  match c.sub with
  | .ld p n => .ld p n
  | .agent m u => if 0x80 ≤ u ∧ u ≤ 0xBF then .trusted else .agent m u

/-- An address range of a command: its parts, or the status and detail that refuse it (R509). -/
def pouResolve (c : PouCmd) (write : Bool) (a n : Nat) (h : Hub) : Except (Nat × Nat) (List (Nat × Nat × Nat)) × Hub :=
  let r : Except (Nat × Nat) (List (Nat × Nat × Nat)) × Hub :=
    match c.sub with
    | .ld p k =>
      (match dpaParts p k write 3 a n h with
       | some l => (.ok l, h)
       | none => (.error (psExtent, 0), h))
    | .agent _ _ =>
      match xlateNow c.trusted 2 0x86 c.tenant (if c.gsa then 0xFFFF else c.asid) a n (if write then opWrite else opRead) h with
      | (.ok l, h1) => (.ok (l.map (fun q => (q.1, q.2, 0))), h1)
      | (.error code, h1) => (.error (psXlate, code), h1)
  match r with
  | (.ok l, h1) =>
    if write && l.any (fun q => leaseDenies (pouIssuer c) q.1 q.2.1 h1) then
      (.error (psDenied, 0), meterAdd c.tenant 7 1 (count 0x60 5 1 h1))
    else (.ok l, h1)
  | e => e

/- ### Commands -/

def findPou (n : Nat) (h : Hub) : Option PouCmd := h.pou.cmds.find? (fun c => c.n == n)

def putPou (c : PouCmd) (h : Hub) : Hub := setPou { h.pou with cmds := h.pou.cmds.map (fun x => if x.n = c.n then c else x) } h

/-- A command is freed; the last 256 are remembered for aborts (log entry 31). -/
def freePou (c : PouCmd) (h : Hub) : Hub :=
  let l := h.pou.finished ++ [(c.sub, c.tag)]
  setPou { h.pou with cmds := h.pou.cmds.filter (fun x => x.n != c.n), finished := l.drop (l.length - 256) } h

/-- R511: the record's bytes, at writing. -/
def pouRecordBytes (c : PouCmd) (h : Hub) : List Byte :=
  let result := if c.op = 3 then (match c.differ with | some k => k | none => if c.status = psOk then 0xFFFFFFFFFFFFFFFF else 0)
    else if c.op = 2 then c.carried else 0
  bytesLE 8 (mkFld 7 0 c.status + mkFld 15 8 c.detail + mkFld 63 32 c.tag) ++ bytesLE 8 (mkFld 39 0 c.done) ++
  bytesLE 8 result ++ bytesLE 8 h.devTime

/-- Request kinds of a pool operation, in the frame's TAG: 0 to 3 a source, 4 DST as an operand, 5 a write, 6 the record. -/
def pkDst : Nat := 4
def pkWrite : Nat := 5
def pkRecord : Nat := 6

/-- Bytes written count into KiB (R525). -/
def pouKib (n : Nat) (h : Hub) : Hub :=
  let t := h.pou.spare + n
  count pouPage 5 (t / 1024) (setPou { h.pou with spare := t % 1024 } h)

/-- The command's outcome is known; only its record is left. -/
def pouFail (c : PouCmd) (status detail : Nat) (h : Hub) : Hub :=
  putPou { c with status := if c.status = 0 then status else c.status, detail := if c.status = 0 then detail else c.detail } h

def poisonHalves (off n : Nat) (h : Hub) : List Nat := (List.range (n / 64)).filter (fun k => h.poison.contains (off / 64 + k))

/-- A request of a pool operation that its shaper admitted is performed. -/
def pouPerform (r : Req) (h : Hub) : Hub :=
  match r.src with
  | .pool n p _ _ =>
    let h0 := match findPou n h with
      | none => h
      | some c =>
        let f := r.frame
        if f.opcode = 1 then
          if c.phase ≠ .reading then h
          else
            let b := tenantRead c.tenant r.off f.len h
            let rd : PouRead := ⟨f.tag, f.operand1, b.1.1, poisonHalves r.off f.len b.2⟩
            putPou { c with reads := c.reads ++ [rd], pending := c.pending - 1 } b.2
        else if f.tag = pkRecord then
          if c.phase ≠ .recording then h
          else
            match tenantWrite c.tenant r.off (pouRecordBytes c h) false h with
            | some h1 => freePou c (if c.status = psAborted then count pouPage 2 1 h1 else count pouPage 1 1 h1)
            | none => freePou c (raise pouPage 17 (poolFull h))
        else if c.phase ≠ .writing then h
        else
          match tenantWrite c.tenant r.off f.payload false h with
          | none => pouFail { c with pending := c.pending - 1 } psPoolFull 0 (poolFull h)
          | some h1 =>
            let bad := (List.range r.enables.length).filter (fun k => nth r.enables k false)
            pouKib f.len (putPou { c with pending := c.pending - 1 } (bad.foldl (fun x k => addPoison (r.off + 64 * k) 64 x) h1))
    if p < 2 then drainCheck p h0 else h0
  | _ => h

/-- Requests of one range: to the shaper, and performed where it admits them (R503, R529). -/
def pouIssue (c0 : PouCmd) (kind opcode : Nat) (at_ : Nat) (parts : List (Nat × Nat × Nat)) (data : List Byte) (halves : List Nat)
    (h0 : Hub) : Hub :=
  let lp := match c0.sub with | .ld p k => (p, k) | .agent _ _ => (2, 0)
  (parts.foldl (fun (acc : Nat × Hub) q =>
    let h := acc.2
    let f : Frame := { opcode := opcode, len := q.2.1, tenant := c0.tenant, tag := kind, operand1 := at_ + acc.1,
                       payload := (data.drop acc.1).take q.2.1 }
    let r : Req := { id := h.nextReq, src := .pool c0.n lp.1 lp.2 q.2.2, frame := f, off := q.1,
                     enables := (List.range (q.2.1 / 64)).map (fun k => halves.contains (acc.1 / 64 + k)) }
    let h1 := match findPou c0.n h with | some c => putPou { c with pending := c.pending + 1 } h | none => h
    let x := shapeIn r { h1 with nextReq := h1.nextReq + 1 }
    (acc.1 + q.2.1, x.1.foldl (fun y a => pouPerform a y) x.2)) (0, h0)).2

/-- R511: the record goes to CPL. -/
def pouRecord (n : Nat) (h : Hub) : Hub :=
  match findPou n h with
  | none => h
  | some c0 =>
    let c := { c0 with phase := PouPhase.recording, pending := 0, reads := [] }
    match pouResolve c true c.cpl 32 (putPou c h) with
    | (.ok l, h1) => pouIssue c pkRecord 2 0 l (List.replicate 32 0#8) [] h1
    | (.error _, h1) => freePou c (raise pouPage 17 h1)

/- ### The work of a piece (R508, R509) -/

/-- The bytes of operand k of the piece, in order. -/
def pieceBytes (k : Nat) (c : PouCmd) : List Byte :=
  ((c.reads.filter (fun r => r.src == k)).foldl (fun (a : List PouRead) r =>
    a.filter (fun x => decide (x.off < r.off)) ++ [r] ++ a.filter (fun x => decide (r.off < x.off))) []).flatMap (·.bytes)

/-- Poisoned halves of operand k, within the piece. -/
def pieceHalves (k : Nat) (c : PouCmd) : List Nat :=
  (c.reads.filter (fun r => r.src == k)).flatMap (fun r => r.halves.map (· + r.off / 64))

/-- R508: one step of REDUCE on two elements. -/
def reduceStep (fmt rop : Nat) (a b : Nat) : Nat :=
  if fmt = 0xA ∨ fmt = 0xB then
    let n := if fmt = 0xA then 32 else 64
    let x := sextNat n a
    let y := sextNat n b
    if rop = 0 then (a + b) % 2 ^ n
    else if rop = 1 then (if y < x then b else a)
    else if x < y then b else a
  else
    let x : Lane := BitVec.ofNat 32 a
    let y : Lane := BitVec.ofNat 32 b
    if rop = 0 then (laneAdd x y).toNat
    else (laneMax (rop == 2) x y).toNat

/-- R508: an element into the arithmetic, and out of it: NaN results are 0x7FC0 and 0x7FC0_0000. -/
def reduceIn (fmt e : Nat) : Nat := if fmt = 6 then e * 65536 else e

def reduceOut (fmt v : Nat) : Nat :=
  if fmt = 6 then bf16.encodeInf .nearestEven (fp32.decode v)
  else if fmt = 9 then fp32.encodeInf .nearestEven (fp32.decode v)
  else v

/-- R508: DST of the piece from its operands in order. -/
def reduceBytes (fmt rop n : Nat) (ops : List (List Byte)) : List Byte :=
  let w := if fmt = 6 then 2 else if fmt = 0xB then 8 else 4
  (List.range (n / w)).flatMap (fun i =>
    let es := ops.map (fun b => reduceIn fmt (leAt b (w * i) w))
    match es with
    | [] => bytesLE w 0
    | e :: t => bytesLE w (reduceOut fmt (t.foldl (reduceStep fmt rop) e)))

/-- The lowest byte at which two operands differ. -/
def firstDiff : Nat → List Byte → List Byte → Option Nat
  | k, a :: as, b :: bs => if a = b then firstDiff (k + 1) as bs else some k
  | _, _, _ => none

/-- The reads of a piece are in: its result. -/
def pouCompute (c : PouCmd) (h : Hub) : Hub :=
  let write (data : List Byte) (halves : List Nat) (c1 : PouCmd) (x : Hub) : Hub :=
    let c2 := { c1 with phase := PouPhase.writing, reads := [] }
    match pouResolve c2 true (c.dst + c.done) c.piece (putPou c2 x) with
    | (.ok l, h1) => pouIssue c2 pkWrite 2 0 l data halves h1
    | (.error e, h1) => pouFail c2 e.1 e.2 h1
  if c.op = 1 then write ((List.replicate (c.piece / 8) (bytesLE 8 (pouWord c 3))).flatten) [] c h
  else if c.op = 2 then
    let bad := pieceHalves 0 c
    let lines := dedup (bad.map (fun k => (c.src 0 + c.done + 64 * k) / 128))
    write (pieceBytes 0 c) bad { c with carried := c.carried + lines.length } (count pouPage 6 lines.length h)
  else if c.reads.any (fun r => r.halves ≠ []) then pouFail c psPoison 0 h
  else if c.op = 3 then
    putPou { c with phase := .pieceDone, reads := [],
                    differ := (firstDiff 0 (pieceBytes 0 c) (pieceBytes pkDst c)).map (· + c.done) } h
  else
    write (reduceBytes c.rfmt c.rop c.piece ((if c.acc then [pieceBytes pkDst c] else []) ++ (List.range c.nsrc).map (fun k => pieceBytes k c))) [] c h

/-- What a command can do now: its reads are in, its writes are done, or it has failed. -/
def pouAdvance (n : Nat) (h : Hub) : Hub :=
  let h1 := match findPou n h with
    | some c => if c.phase = .reading ∧ c.pending = 0 ∧ c.status = 0 then pouCompute c h else h
    | none => h
  let h2 := match findPou n h1 with
    | some c =>
      if c.phase = .writing ∧ c.pending = 0 ∧ c.status = 0 then
        putPou { c with phase := .pieceDone } h1 else h1
    | none => h1
  match findPou n h2 with
  | some c => if c.status ≠ 0 ∧ c.phase ≠ .recording then pouRecord n h2 else h2
  | none => h2

/-- A request of a pool operation leaves its shaper. -/
def pouDeliver (r : Req) (h : Hub) : Hub :=
  match r.src with
  | .pool n _ _ _ => pouAdvance n (pouPerform r h)
  | _ => h

/-- R508: the next piece begins: its reads are sent. -/
def pouPiece (c0 : PouCmd) (h : Hub) : Hub :=
  let n := min (c0.len - c0.done) (65536 - (c0.dst + c0.done) % 65536)
  let c := { c0 with phase := PouPhase.reading, piece := n, pending := 0, reads := [] }
  let srcs := (List.range c.nsrc).map (fun k => (k, c.src k)) ++ (if c.op = 3 ∨ c.acc then [(pkDst, c.dst)] else [])
  let h1 := srcs.foldl (fun x s =>
    match findPou c.n x with
    | none => x
    | some y =>
      if y.status ≠ 0 then x
      else
        match pouResolve c false (s.2 + c.done) n x with
        | (.ok l, x1) => pouIssue c s.1 1 0 l [] [] x1
        | (.error e, x1) => pouFail y e.1 e.2 x1) (putPou c h)
  pouAdvance c.n h1

def freeEngine (h : Hub) : Option Nat := (List.range 4).find? (fun e => !(h.pou.cmds.any (fun c => c.engine == some e)))

/-- R512: the oldest queued command starts on a free engine, when its operation is `op` or a reserved one. -/
def pouStart (op : Nat) (h : Hub) : Hub :=
  match h.pou.cmds.find? (fun c => c.phase == .queued), freeEngine h with
  | some c, some e =>
    if c.op ≠ op ∧ 1 ≤ c.op ∧ c.op ≤ 4 then h
    else
      let c1 := { c with engine := some e }
      if pouBad c then pouRecord c.n (putPou { c1 with status := psBadDesc } h)
      else pouPiece c1 (putPou c1 h)
  | _, _ => h

/-- R508, R510, R511: a piece is done. -/
def pouPieceDone (e : Nat) (h : Hub) : Hub :=
  match h.pou.cmds.find? (fun c => c.engine == some e && c.phase == .pieceDone) with
  | none => h
  | some c0 =>
    let c := { c0 with done := c0.done + c0.piece }
    let h1 := putPou c h
    if c.aborting then pouRecord c.n (putPou { c with status := psAborted } h1)
    else if c.differ.isSome || decide (c.len ≤ c.done) then pouRecord c.n h1
    else pouPiece c h1

/- ### Submission and abort (R506, R510) -/

def subCount (s : Submitter) (h : Hub) : Nat := (h.pou.cmds.filter (fun c => c.sub == s)).length

/-- Room for one more command of a submitter: 0, or the drop cause of R525. -/
def pouRoom (s : Submitter) (h : Hub) : Nat :=
  if 256 ≤ h.pou.cmds.length ∨ !enabled pouPage h then 1
  else if max 1 (regFld pouPage 0x40 7 0 h) ≤ subCount s h then 2
  else 0

def pouAdmit (s : Submitter) (tenant asid : Nat) (trusted : Bool) (desc : List Byte) (h : Hub) : Hub :=
  let c : PouCmd := { n := h.pou.next, sub := s, tenant := tenant, asid := asid, trusted := trusted, desc := desc }
  meterAdd tenant 6 1 (count pouPage 0 1 (setPou { h.pou with cmds := h.pou.cmds ++ [c], next := h.pou.next + 1 } h))

/-- A dropped register submission. -/
def pouDrop (cause dpa : Nat) (r : Requester) (h : Hub) : Hub :=
  let h1 := h |> putReg pouPage 0x60 (w64 (mkFld 63 60 cause + mkFld 44 0 dpa)) |> putReg pouPage 0x68 (regStamp r h)
    |> count pouPage 4 1 |> raise pouPage 16
  match r with
  | .ld p n => emit (.errNonfatal p n) h1
  | _ => h1

/-- R506: POOL_SUBMIT. A requester with no DPA space has no readable descriptor. -/
def pouSubmitReg (r : Requester) (v : Word) (h : Hub) : Hub :=
  let a := fld v 44 0
  match r with
  | .ld p n =>
    if !(getLd p n h).en then pouDrop 4 a r h
    else
      let room := pouRoom (.ld p n) h
      if room ≠ 0 then pouDrop room a r h
      else if a % 64 ≠ 0 then pouDrop 3 a r h
      else
        match dpaParts p n false 2 a 64 h with
        | none => pouDrop 3 a r h
        | some l =>
          let t := (getLd p n h).tenant
          let b := l.foldl (fun (acc : (List Byte × Bool) × Hub) q =>
            let y := tenantRead t q.1 q.2.1 acc.2
            ((acc.1.1 ++ y.1.1, acc.1.2 || y.1.2), y.2)) (([], false), h)
          if b.1.2 then pouDrop 3 a r b.2 else pouAdmit (.ld p n) t 0 false b.1.1 b.2
  | _ => pouDrop 3 a r h

/-- What an abort meets. -/
inductive AbortWas | none | late | taken
  deriving DecidableEq, Repr

/-- R510. -/
def pouAbort (s : Submitter) (tag : Nat) (h : Hub) : AbortWas × Hub :=
  match h.pou.cmds.find? (fun c => c.sub == s && c.tag == tag) with
  | some c =>
    if c.phase = .queued then (.taken, pouRecord c.n (putPou { c with status := psAborted } h))
    else if c.phase = .recording then (.taken, putPou { c with status := psAborted, detail := 0 } h)
    else (.taken, putPou { c with aborting := true } h)
  | none => if h.pou.finished.contains (s, tag) then (.late, count pouPage 3 1 h) else (.none, h)

def pouAbortReg (r : Requester) (v : Word) (h : Hub) : Hub :=
  match r with
  | .ld p n => (pouAbort (.ld p n) (fld v 63 32) h).2
  | .agent m u _ => (pouAbort (.agent m u) (fld v 63 32) h).2
  | _ => h

/-- An answer of the unit. -/
def pouAnswer (f : Frame) (status detail : Nat) (h : Hub) : Hub := sendFrame (completionOf f status detail 0 false [] h) h

/-- R506, R510: a WORK frame at unit 0x86; `trusted`: R134's second case. -/
def pouFrame (trusted : Bool) (f : Frame) (h : Hub) : Hub :=
  let s : Submitter := .agent f.srcModule f.srcUnit
  let op := nbits f.aux 7 0
  if op = 1 ∧ f.payload.length = 64 ∧ f.len = 64 then
    if pouRoom s h ≠ 0 then pouAnswer f stBusy 0 h
    else pouAnswer f stOk 0 (pouAdmit s f.tenant f.asid trusted f.payload h)
  else if op = 2 ∧ f.payload.length = 8 ∧ f.len = 8 then
    let a := pouAbort s (leAt f.payload 0 4) h
    match a.1 with
    | .taken => pouAnswer f stOk 0 a.2
    | .late => pouAnswer f stUnit 1 a.2
    | .none => pouAnswer f stUnit 2 a.2
  else pouAnswer f stBadRequest 0 h

/-- R499: a withdrawn request of a pool operation ends it. -/
def pouWithdraw (n : Nat) (h : Hub) : Hub :=
  match findPou n h with
  | none => h
  | some c =>
    if c.phase = .recording then freePou c (raise pouPage 17 h)
    else pouAdvance n (pouFail c psExtent 0 h)

/-- R525: POOL_QUEUE. -/
def pouView (off : Nat) (h : Hub) : Option Nat :=
  if off = 0x58 then
    some (mkFld 24 16 h.pou.cmds.length + ((List.range 4).filter (fun e => h.pou.cmds.any (fun c => c.engine == some e))).foldl (fun a e => a + 2 ^ e) 0)
  else none

/-- A reset of the module: no command is held. -/
def pouReset (h : Hub) : Hub := setPou { h.pou with cmds := [], finished := [] } h

end Sys2Proof.Machine
end

