-- ==== Sys2Proof/Machine/Home.lean ====
section
/-!
DEFINITION. The homes of lines (R297 to R314): transactions, snoops, grants, atomics, whole-tile writes, and the loss of
agents; and requests to scratchpad windows.
-/
namespace Sys2Proof.Machine

/- ### Tags (R265) -/

def tagBusy (t : Nat) (h : Hub) : Bool :=
  h.outstanding.any (fun o => o.frame.tag == t) || h.deadTags.any (fun d => d.tag == t && decide (h.devTime < d.until_)) ||
  h.coh.txs.any (fun x => x.snoops.any (fun s => s.tag == t))

/-- A tag not in use and not quarantined; in a pair bit 15 is the member (R604). -/
def allocTag (h : Hub) : Nat × Hub :=
  if h.twin.en then
    let b := h.twin.role * 32768
    let t := ((natRange h.nextTag 4096).find? (fun k => !tagBusy (b + k % 32768) h)).getD h.nextTag % 32768
    (b + t, { h with nextTag := (t + 1) % 32768 })
  else
    let t := ((natRange h.nextTag 4096).find? (fun k => !tagBusy (k % 65536) h)).getD h.nextTag % 65536
    (t, { h with nextTag := (t + 1) % 65536 })

/-- A new request number. -/
def newReq (h : Hub) : Nat × Hub := (h.nextReq, { h with nextReq := h.nextReq + 1 })

/- ### Agents -/

/-- The Active entry of an agent. -/
def agentIndex (module unit : Nat) (h : Hub) : Option Nat :=
  (h.coh.agents.find? (fun e => e.2.st == .active && e.2.module == module && e.2.unit == unit)).map (·.1)

def putAgent (k : Nat) (a : CohAgent) (h : Hub) : Hub := { h with coh := { h.coh with agents := Tab.set h.coh.agents k a } }

/-- The agent entry a request comes from, where it is a domain agent's. -/
def requesterOf (r : Req) (h : Hub) : Option Nat :=
  match r.src with
  | .frame _ => agentIndex r.frame.srcModule r.frame.srcUnit h
  | _ => none

def isCoh (f : Frame) : Bool := decide (0x50 ≤ f.opcode ∧ f.opcode ≤ 0x54)

/- ### What a request needs -/

/-- R305: does the request take the line from everyone else? -/
def takesLine (r : Req) : Bool :=
  match r.src with
  | .tileRecall discard => discard
  | .backSnoop => true
  | _ => [0x02, 0x03, 0x04, 0x06, 0x51, 0x52].contains r.frame.opcode

/-- R177: does the request count as a store? -/
def isStore (r : Req) : Bool :=
  match r.src with
  | .tileRecall _ | .backSnoop => false
  | _ => [0x02, 0x03, 0x04, 0x06, 0x51, 0x52].contains r.frame.opcode

def reqLines (r : Req) : List Nat :=
  match r.src with
  | .tileRecall _ => linesOf r.off 65536
  | .backSnoop => linesOf r.off 128
  | _ => linesOf r.off (reqLen r.frame)

/-- R303: the snoop kind for a line Owned by another agent. -/
def ownedKind (r : Req) (h : Hub) : Nat :=
  if !takesLine r then 2
  else if (r.frame.opcode = 0x51 ∨ r.frame.opcode = 0x52) ∧ isCoh r.frame ∧ regBit 0x60 0x40 1 h ∧ (requesterOf r h).isSome then 4
  else 1

/-- R302, R303: a snoop frame. -/
def snoopFrame (s : Snoop) (r : Req) (h : Hub) : Frame :=
  let a := getAgent s.agent h
  { dstModule := a.module, dstUnit := a.unit, srcModule := moduleId h, srcUnit := 0x89, opcode := 0x58, asid := 0xFFFF,
    tag := s.tag, addr := mkFld 55 46 (moduleId h) + 128 * s.line, aux := s.kind,
    operand0 := if s.kind = 4 then mkFld 9 0 r.frame.srcModule + mkFld 17 10 r.frame.srcUnit + mkFld 33 18 r.frame.tag else 0,
    issueTime := h.devTime % 2 ^ 48 }

/-- R305, R313: the snoops of one line, sent; entries of lost owners are poisoned and removed. -/
def snoopLine (r : Req) (line : Nat) (acc : List Snoop × Hub) : List Snoop × Hub :=
  let h := acc.2
  let me := requesterOf r h
  match getFilter line h with
  | none => acc
  | some e =>
    match e.owner with
    | some k =>
      if me = some k then acc
      else if (getAgent k h).st = .active then
        let t := allocTag h
        let s : Snoop := ⟨t.1, line, k, ownedKind r h, h.devTime, true⟩
        let h1 := countSlice line 4 1 (sendFrame (snoopFrame s r t.2) t.2)
        let h2 := if s.kind = 4 then (match me with | some m => putFilter line (some m) h1 | none => h1) else h1
        (acc.1 ++ [s], h2)
      else (acc.1, dropFilter line (poisonLine line h))
    | none =>
      if takesLine r then
        let ks := (h.coh.agents.filter (fun a => a.2.st == .active && some a.1 != me)).map (·.1)
        let go := ks.foldl (fun (x : List Snoop × Hub) k =>
          let t := allocTag x.2
          let s : Snoop := ⟨t.1, line, k, 1, x.2.devTime, false⟩
          (x.1 ++ [s], sendFrame (snoopFrame s r t.2) t.2)) (acc.1, countSlice line 5 1 h)
        if ks = [] then (go.1, dropFilter line go.2) else go
      else acc

/- ### Whole-tile writes (R178, R260) -/

/-- A tile header as supplied: its fields. -/
structure GivenHeader where
  format : Nat
  scale : Nat
  cls : Nat
  bsel : List Nat
  tselData : Nat
  tselHdr : Nat
  deriving DecidableEq, Repr

/-- R169, R260: a supplied header; none where its HCRC fails. -/
def parseHeader (bs : List Byte) : Option (GivenHeader × Nat) :=
  if crc32c (sliceBytes bs 0 0x7C) ≠ leAt bs 0x7C 4 then none
  else
    let w := leAt bs 0 8
    some (⟨nbits w 7 0, nbits w 9 8, nbits w 15 13, (List.range 16).map (fun j => leAt bs (0x20 + 4 * j) 4),
      leAt bs 0x60 4, leAt bs 0x64 4⟩, nbits w 31 28)

/-- R178: the slot of a tile that is written whole; its old content goes. none: POOL_FULL. -/
def tileWriteSlot (t cls owner : Nat) (h : Hub) : Option Hub :=
  match (getTile t h).st with
  | .upper | .clean => some (dropImage t h)
  | .demoting => some (abandon t h)
  | .promoting => some (dropImage t (promoteFinish t h))
  | .lower => (takeSlot cls h).map (fun x => renewTile t (dropImage t x))
  | .free => allocTile t cls owner h
  | .freeing | .void => allocFresh t cls owner h

/-- R178, R260, R172: a whole tile is written: payload of 65,536 bytes, usable header or none, blocks that came poisoned.
The answer says whether any block was written poisoned. none: POOL_FULL. -/
def tileWrite (t owner : Nat) (hd : Option GivenHeader) (payload : List Byte) (mask module unit time : Nat) (h : Hub) :
    Option (Bool × Hub) :=
  let cls := match hd with | some g => g.cls | none => (getTile t h).cls
  (tileWriteSlot t cls owner h).map (fun h1 =>
    let drop (l : Nat) : Bool := decide (l < 512 * t ∨ 512 * t + 512 ≤ l)
    let h2 := { h1 with
      mem := memPutN h1.mem (65536 * t) payload
      poison := h1.poison.filter (fun k => decide (k < 1024 * t ∨ 1024 * t + 1024 ≤ k))
      coh := { h1.coh with t0 := h1.coh.t0.filter (fun e => drop e.1), filter := h1.coh.filter.filter (fun e => drop e.1) } }
    let b := bselOf t h2
    let d := crc32c payload
    let v := getTile t h2
    let base := { v with st := .upper, run := none, codec := false, lens := [], owner := owner, sealed := 1, blockPoison := 0,
                         hcrcBad := false, sealTime := time % 2 ^ 48, sealModule := module, sealUnit := unit, cls := cls }
    let all := (List.range 16)
    let bad : List Nat := match hd with
      | some g => all.filter (fun j => nth b j 0 != nth g.bsel j 0)
      | none => all
    let tselBad : Bool := match hd with
      | some g => bad.isEmpty && (g.tselData != d || g.tselHdr != tselHdrOf g.bsel)
      | none => false
    let tile : Tile := match hd with
      | some g => { base with format := g.format, scale := g.scale, bsel := g.bsel,
                              tselData := if tselBad then d else g.tselData, tselHdr := if tselBad then tselHdrOf g.bsel else g.tselHdr }
      | none => { base with format := 0, scale := 0, bsel := b, tselData := d, tselHdr := tselHdrOf b }
    let pois := all.filter (fun j => bad.contains j || mask.testBit j)
    let bp := pois.foldl (fun m j => m ||| 2 ^ j) 0
    let h3 := putTile t { tile with blockPoison := bp } h2
    let h4 := pois.foldl (fun x j => addPoison (65536 * t + 4096 * j) 4096 x) h3
    let n := match hd with | some _ => bad.length + bit01 tselBad | none => 1
    (decide (pois ≠ []), selvedgeError n (renewTile t h4)))

/- ### Atomics (R259, R309) -/

def atomicResult (op size old a b : Nat) : Nat :=
  let n := 8 * size
  let x := a % 2 ^ n
  if op = 0x01 then (old + x) % 2 ^ n
  else if op = 0x02 then old &&& x
  else if op = 0x03 then old ||| x
  else if op = 0x04 then old ^^^ x
  else if op = 0x05 then x
  else if op = 0x06 then (if old = x then b % 2 ^ n else old)
  else if op = 0x07 then (if sextNat n x < sextNat n old then x else old)
  else if op = 0x08 then (if sextNat n old < sextNat n x then x else old)
  else if op = 0x09 then min old x
  else if op = 0x0A then max old x
  else if op = 0x10 then fadd32 old x
  else old

/-- R259: does the atomic return its old value? -/
def atomicReturns (aux : Nat) : Bool := aux.testBit 9 || nbits aux 7 0 == 6

/- ### Acting -/

/-- The data of a read request, T0 or its tile's content, as R176 serves it. -/
def homeData (off n : Nat) (h : Hub) : List Byte × Bool :=
  match (getTile (tileOf off) h).st with
  | .free | .freeing => (List.replicate n 0#8, false)
  | .void => (poisonPattern n, true)
  | _ => memRead off n h

/-- R248: SCARRY of a READ of one whole, aligned 4 KiB block of a sealed tile is that block's BSEL. -/
def readScarry (off n : Nat) (h : Hub) : Option Nat :=
  let v := getTile (tileOf off) h
  if n = 4096 ∧ off % 4096 = 0 ∧ v.sealed ≠ 0 then some (nth v.bsel (off % 65536 / 4096) 0) else none

/-- A read's answer. -/
def answerRead (r : Req) (aux : Nat) (data : List Byte) (poison : Bool) (sc : Option Nat) (h : Hub) : Hub :=
  match r.src with
  | .frame _ =>
    let f := completionOf r.frame (if poison then stPoisoned else stOk) 0 aux poison data h
    sendFrame { f with scarry := sc.getD f.scarry } h
  | _ => answer r stOk 0 aux poison data h

/-- R310: the filter set of a line in its slice. -/
def filterSet (line : Nat) : Nat := Config.sliceHash line % 2 ^ 19

/-- R304: lines in use by a transaction. -/
def lineBusy (l : Nat) (h : Hub) : Bool := h.coh.txs.any (fun x => x.lines.contains l)

/-- R310: the other entries of a line's filter set. -/
def filterMates (line : Nat) (h : Hub) : List (Nat × FilterEntry) :=
  h.coh.filter.filter (fun e => filterSet e.1 == filterSet line && e.1 != line)

/-- R310: a new entry for the line would find its set full. -/
def setFull (line : Nat) (h : Hub) : Bool := (getFilter line h).isNone && decide (16 ≤ (filterMates line h).length)

/-- R310: a new entry that finds its set full evicts the least recently granted one, of those not in use, by a
back-snoop. -/
def makeRoom (line : Nat) (h : Hub) : Hub :=
  if !setFull line h then h
  else
    match ((filterMates line h).filter (fun e => !lineBusy e.1 h)).foldl (fun (b : Option (Nat × Nat)) e =>
        match b with
        | none => some (e.1, e.2.granted)
        | some (_, g) => if e.2.granted < g then some (e.1, e.2.granted) else b) none with
    | none => h
    | some (l, _) =>
      let q := newReq (countSlice l 7 1 h)
      let r : Req := { id := q.1, src := .backSnoop, frame := {}, off := 128 * l }
      let s := snoopLine r l ([], q.2)
      if s.1 = [] then s.2
      else { s.2 with coh := { s.2.coh with txs := s.2.coh.txs ++ [⟨r, [l], s.1, .snoops, false, false, false⟩] } }

/-- R305: grant a line to a domain agent. -/
def grantLine (line : Nat) (e : Option Nat) (h : Hub) : Hub :=
  putFilter line e h

/-- Bytes of a write with byte enables merged into what is stored. -/
def mergeBytes (old new : List Byte) (en : List Bool) : List Byte :=
  if en = [] then new else (List.range new.length).map (fun i => if nth en i false then nth new i 0 else nth old i 0)

/-- R545: a partial write performed byte by byte keeps the poison of its half. -/
def partialWrite (off : Nat) (bs : List Byte) (en : List Bool) (poisoned : Bool) (h : Hub) : Hub :=
  if en = [] ∨ en.all (fun b => b) then memWrite off bs poisoned h
  else
    let h1 := { h with mem := memPutN h.mem off (mergeBytes (memGetN h.mem off bs.length) bs en) }
    if poisoned then addPoison off bs.length h1 else h1

/-- R248, R613: the payload's own poison. -/
def payloadPoison (f : Frame) : Bool := f.poison || (f.payload != [] && f.scarry != scarryOf f.payload)

def removeTx (id : Nat) (h : Hub) : Hub := { h with coh := { h.coh with txs := h.coh.txs.filter (fun x => x.req.id != id) } }

def findTx (id : Nat) (h : Hub) : Option HomeTx := h.coh.txs.find? (fun x => x.req.id == id)

def putTx (x : HomeTx) (h : Hub) : Hub :=
  { h with coh := { h.coh with txs := h.coh.txs.map (fun y => if y.req.id = x.req.id then x else y) } }

/-- A store's lines become Dirty in T0, the tile open, and no agent holds them. -/
def storeLines (ls : List Nat) (h : Hub) : Hub := ls.foldl (fun x l => setT0 l .dirty (dropFilter l x)) h

/-- R513, R514: the bytes and atomics of a request that is performed. -/
def meterReq (r : Req) (h : Hub) : Hub :=
  let o := r.frame.opcode
  let t := reqTenant r h
  if o = 0x01 then meterAdd t 0 r.frame.len h
  else if o = 0x02 ∨ o = 0x03 then meterAdd t 1 r.frame.len h
  else if o = 0x04 then meterAdd t 2 1 h
  else if o = 0x06 then meterAdd t 1 65536 h
  else if o = 0x50 ∨ o = 0x51 ∨ o = 0x52 then meterAdd t 0 128 h
  else if o = 0x53 then meterAdd t 1 128 h
  else h

/-- The transaction's own effect and its answer (R305, R309). -/
def homeAct (x : HomeTx) (h0 : Hub) : Hub :=
  let r := x.req
  let f := r.frame
  let h := meterReq r h0
  let t := tileOf r.off
  let line := lineOf r.off
  match r.src with
  | .tileRecall _ | .backSnoop | .pool _ _ _ _ => h
  | .frame _ | .cxl _ _ _ _ =>
    if f.opcode = 0x01 then
      let h1 := meetInjection r.off f.len h
      let d := homeData r.off f.len h1
      answerRead r 0 d.1 d.2 (readScarry r.off f.len h1) h1
    else if f.opcode = 0x02 ∨ f.opcode = 0x03 then
      let h1 := meetInjection r.off f.len h
      answerStatus r stOk 0 (partialWrite r.off f.payload r.enables (payloadPoison f) (storeLines (linesOf r.off f.len) (openSeal t h1)))
    else if f.opcode = 0x04 then
      let n := reqLen f
      let h1 := countSlice line 3 1 (storeLines [line] (openSeal t (meetInjection r.off n h)))
      let ret := atomicReturns f.aux
      if anyPoison r.off n h1 then
        answer r stPoisoned 0 0 ret (if ret then poisonPattern n else []) h1
      else
        let old := ofBytesLE (memGetN h1.mem r.off n)
        let new := atomicResult (nbits f.aux 7 0) n old f.operand0 f.operand1
        answer r stOk 0 0 false (if ret then bytesLE n old else []) (memWrite r.off (bytesLE n new) false h1)
    else if f.opcode = 0x06 then
      let hd := if f.operand1 = 0 then (parseHeader (f.payload.take 128)).map (·.1) else none
      match tileWrite t f.tenant hd (f.payload.drop 128) f.operand0 f.srcModule f.srcUnit r.stamp h with
      | none => answerStatus r stPoolFull 0 (poolFull h)
      | some (bad, h1) => answerStatus r (if bad then stSelvedge else stOk) 0 h1
    else if f.opcode = 0x50 then
      let h1 := meetInjection r.off 128 h
      let d := homeData r.off 128 h1
      let me := requesterOf r h1
      let alone := (match getFilter line h1 with | none => true | some e => decide (e.owner = me ∧ me ≠ none))
      let e := alone && !x.noData && regBit 0x60 0x40 0 h1 && (getTile t h1).st == .upper
      answerRead r (if e then 2 else 1) d.1 d.2 none (grantLine line (if e then me else none) h1)
    else if f.opcode = 0x51 ∨ f.opcode = 0x52 then
      let me := requesterOf r h
      if x.lost then answer r stPoisoned 0 3 true (poisonPattern 128) h
      else if x.forwarded then h
      else
        let h1 := meetInjection r.off 128 h
        let h2 := openSeal t (grantLine line me h1)
        if f.opcode = 0x52 ∧ x.noData then answer r stOk 0 2 false [] h2
        else
          let d := homeData r.off 128 h2
          answerRead r (if f.opcode = 0x52 then 2 + 16 else 2) d.1 d.2 none h2
    else h

/-- R306: a write-back from the owner, or a stale one. -/
def homeWb (r : Req) (h0 : Hub) : Hub :=
  let line := lineOf r.off
  let h := meterReq r h0
  match getFilter line h, requesterOf r h with
  | some ⟨some k, _⟩, some m =>
    if k = m then
      let h1 := setT0 line .dirty (memWrite r.off r.frame.payload (payloadPoison r.frame) h)
      answerStatus r stOk 0 (if r.frame.aux.testBit 0 then putFilter line none h1 else dropFilter line h1)
    else answerStatus r stOk 0 (countSlice line 9 1 h)
  | _, _ => answerStatus r stOk 0 (countSlice line 9 1 h)

/-- R301: a clean eviction. -/
def homeEvict (r : Req) (h : Hub) : Hub :=
  match getFilter (lineOf r.off) h, requesterOf r h with
  | some ⟨some k, _⟩, some m => if k = m then dropFilter (lineOf r.off) h else h
  | _, _ => h

/-- R310: does the transaction grant its line to an agent under an entry it has yet to make? -/
def needsEntry (x : HomeTx) (h : Hub) : Bool :=
  isCoh x.req.frame && [0x50, 0x51, 0x52].contains x.req.frame.opcode && !x.lost && !x.forwarded && setFull (lineOf x.req.off) h

/-- R310: a grant is given once its set has room for its entry; the back-snoop that makes it goes first. -/
def homeGrant (x : HomeTx) (h : Hub) : Hub :=
  if needsEntry x h then
    let h1 := makeRoom (lineOf x.req.off) h
    if setFull (lineOf x.req.off) h1 && decide (h1.coh.txs.length ≠ h.coh.txs.length) then putTx { x with wait := .room } h1
    else homeAct x (removeTx x.req.id h1)
  else homeAct x (removeTx x.req.id h)

/-- R310: a back-snoop has ended: the grants that wait for room in its set go on, as far as there is room. -/
def resumeRoom (h : Hub) : Hub :=
  (h.coh.txs.filter (fun x => x.wait == .room)).foldl (fun y x =>
    if needsEntry x y then y else homeAct x (removeTx x.req.id y)) h

/-- R176, R177: the tile stage: what the transaction does once its snoops are answered. -/
def homeReady (x : HomeTx) (h : Hub) : Hub :=
  let r := x.req
  let t := tileOf r.off
  let st := (getTile t h).st
  let owner := match r.src with | .frame _ => r.frame.tenant | _ => 0
  let done (h1 : Hub) : Hub := homeGrant x h1
  let full (h1 : Hub) : Hub := answerStatus r stPoolFull 0 (poolFull (removeTx r.id h1))
  let wait (w : TxWait) (h1 : Hub) : Hub := putTx { x with wait := w } h1
  if r.frame.opcode = 0x06 ∧ isStore r then
    if st = .promoting ∨ st = .freeing then wait .tile h else done h
  else if isStore r then
    match st with
    | .upper => done h
    | .clean => done (dropImage t h)
    | .demoting => done (abandon t h)
    | .promoting | .freeing => wait .tile h
    | .lower =>
      match promoteStart t (count 0x90 4 1 h) with
      | some h1 => wait .tile h1
      | none => full h
    | .free => match allocTile t 0 owner h with | some h1 => done h1 | none => full h
    | .void => match allocFresh t 0 owner h with | some h1 => done h1 | none => full h
  else
    match r.src with
    | .tileRecall _ | .backSnoop | .pool _ _ _ _ => resumeRoom (removeTx r.id h)
    | .frame _ | .cxl _ _ _ _ =>
      match st with
      | .freeing => wait .tile h
      | .free | .void => done h
      | .upper | .clean | .demoting | .lower | .promoting =>
        if x.lines.all (fun l => inT0 l h) then done (countSlice (lineOf r.off) 0 1 h)
        else wait .fill (countSlice (lineOf r.off) 1 1 h)

/-- R304, R305: a transaction starts: snoops first, then the tile. -/
def homeStart (r : Req) (h : Hub) : Hub :=
  if r.frame.opcode = 0x53 ∧ isCoh r.frame then homeWb r h
  else if r.frame.opcode = 0x54 ∧ isCoh r.frame then homeEvict r h
  else
    let ls := reqLines r
    let shared := match getFilter (lineOf r.off) h with | some e => e.owner.isNone | none => false
    let s := ls.foldl (fun acc l => snoopLine r l acc) ([], h)
    let x : HomeTx := ⟨r, ls, s.1, .snoops, false, false, shared || (isCoh r.frame && r.frame.opcode == 0x50 && s.1 != [])⟩
    let h1 := { s.2 with coh := { s.2.coh with txs := s.2.coh.txs ++ [x] } }
    if s.1 = [] then homeReady x h1 else h1

/-- Does an earlier request that waits hold back this one? -/
def waitsBehind (r : Req) (l : List Req) : Bool :=
  let ls := reqLines r
  l.any (fun q => (reqLines q).any (fun x => ls.contains x))

/-- R256, R330, R360: a request to a scratchpad window is performed there, while its logical core is in service. -/
def windowAct (r : Req) (h0 : Hub) : Hub :=
  let f := r.frame
  let k := (r.off - windowBase) / 0x200000
  let h := count (0x200 + k) 7 1 (meterReq r (meetSpInjection r.off f.len h0))
  if (Tab.getD h0.cores k {}).st ≠ .inService then
    if f.posted then answerStatus r stOk 0 (count (0x200 + k) 8 1 h0)
    else if f.opcode = 0x01 then answer r stUnit 3 0 true (poisonPattern f.len) h0
    else answerStatus r stUnit 3 h0
  else if f.opcode = 0x01 then
    let d := memRead r.off f.len h
    answerRead r 0 d.1 d.2 none h
  else if f.opcode = 0x02 ∨ f.opcode = 0x03 then
    answerStatus r stOk 0 (spStore r.off f.payload (payloadPoison f) h)
  else answerStatus r stBadRequest 0 h

/-- A request reaches its home slice or window. -/
def homeIn (r : Req) (h : Hub) : Hub :=
  if windowBase ≤ r.off then windowAct r h
  else if (reqLines r).any (fun l => lineBusy l h) || waitsBehind r h.coh.waiting then
    { h with coh := { h.coh with waiting := h.coh.waiting ++ [r] } }
  else homeStart r h

/-- The first waiting request whose lines are free and that no earlier one holds back, among those that touch `line`. -/
def nextWaiting (line : Nat) (h : Hub) : List Req → List Req → Option (Req × List Req)
  | _, [] => none
  | before, r :: rest =>
    if (reqLines r).contains line ∧ !((reqLines r).any (fun l => lineBusy l h)) ∧ !waitsBehind r before then
      some (r, before ++ rest)
    else nextWaiting line h (before ++ [r]) rest

/-- R304: the next request for a free line starts. -/
def homeNext (line : Nat) (h : Hub) : Hub :=
  match nextWaiting line h [] h.coh.waiting with
  | some (r, rest) => homeStart r { h with coh := { h.coh with waiting := rest } }
  | none => h

/-- Transactions waiting on a tile go on (R177). -/
def resumeTile (t : Nat) (h : Hub) : Hub :=
  (h.coh.txs.filter (fun x => x.wait == .tile && tileOf x.req.off == t)).foldl (fun y x => homeReady x y) h

/-- R176: data returned for a line fills T0 and serves the reads that wait for it. -/
def fillDone (line : Nat) (h : Hub) : Hub :=
  let hit (x : HomeTx) : Bool := x.wait == .fill && x.lines.contains line
  let xs := h.coh.txs.filter hit
  let h1 := xs.foldl (fun y x => x.lines.foldl (fun z l => fillLine l z) y) h
  xs.foldl (fun y x => homeGrant x y) h1

/- ### Snoop answers (R301, R305, R308) -/

/-- A transaction whose last snoop was answered goes on. -/
def afterSnoop (x : HomeTx) (h : Hub) : Hub := if x.snoops = [] then homeReady x h else putTx x h

/-- The transaction and snoop a tag belongs to. -/
def findSnoop (tag : Nat) (h : Hub) : Option (HomeTx × Snoop) :=
  h.coh.txs.findSome? (fun x => (x.snoops.find? (fun s => s.tag == tag)).map (fun s => (x, s)))

/-- R305: an answer: state found, whether forwarded, and the data of an M line. -/
def snoopAnswer (tag state : Nat) (forwarded : Bool) (data : List Byte) (poison : Bool) (h : Hub) : Hub :=
  match findSnoop tag h with
  | none => h
  | some (x, s) =>
    let rest := x.snoops.filter (fun q => q.tag != tag)
    let discard := decide (x.req.src = .tileRecall true)
    let h1 := if data.length = 128 ∧ !discard then setT0 s.line .dirty (memWrite (128 * s.line) data poison h) else h
    let h2 := if state = 0 ∧ s.owned ∧ !forwarded then countSlice s.line 6 1 h1 else h1
    let more := rest.any (fun q => q.line == s.line)
    let h3 :=
      if s.kind = 4 then (if forwarded then countSlice s.line 8 1 h2 else h2)
      else if s.kind = 2 then (if state = 0 then dropFilter s.line h2 else putFilter s.line none h2)
      else if more then h2 else dropFilter s.line h2
    afterSnoop { x with snoops := rest, forwarded := x.forwarded || forwarded } h3

/-- R312: the home answers for a lost agent one snoop outstanding to it. -/
def answerForLost (tag : Nat) (h : Hub) : Hub :=
  match findSnoop tag h with
  | none => h
  | some (x, s) =>
    if s.owned then
      let h1 := poisonLine s.line h
      let h2 := if s.kind = 4 then h1 else dropFilter s.line h1
      afterSnoop { x with snoops := x.snoops.filter (fun q => q.tag != tag), lost := x.lost || s.kind == 4 } h2
    else snoopAnswer tag 0 false [] false h

/- ### Lease entries in memory (R315) -/

def leaseWords (l : Lease) : Nat × Nat :=
  let hw := match l.holder with
    | .none => 0
    | .ld m p n => mkFld 3 2 1 + mkFld 4 4 p + mkFld 5 5 m + mkFld 11 8 n
    | .agent m u => mkFld 3 2 2 + mkFld 21 12 m + mkFld 29 22 u
  let st := match l.st with | .undefined => 0 | .idle => 1 | .held => 2
  if l.st = .undefined then (0, 0)
  else (mkFld 28 0 l.tile + mkFld 47 32 l.count + mkFld 63 48 l.termMs, st + hw + mkFld 63 32 l.epoch)

/-- R315: the COH block keeps the entry in its table. -/
def writeLease (i : Nat) (l : Lease) (h : Hub) : Hub :=
  let w := leaseWords l
  let h1 := ownWrite (leaseBase h + 16 * i) (bytesLE 8 w.1 ++ bytesLE 8 w.2) h
  { h1 with coh := { h1.coh with leases := if l.st = .undefined then Tab.erase h1.coh.leases i else Tab.set h1.coh.leases i l } }

/-- R319: a Held lease returns to Idle with EPOCH + 1. -/
def leaseIdle (i : Nat) (h : Hub) : Hub :=
  let l := Tab.getD h.coh.leases i {}
  if l.st = .held ∧ leaseUsable i h then writeLease i { l with st := .idle, epoch := (l.epoch + 1) % 2 ^ 32 } h else h

/- ### Loss of an agent (R311 to R314) -/

/-- R312: entry to Lost, with its cause code. -/
def loseAgent (k cause : Nat) (h : Hub) : Hub :=
  let a := getAgent k h
  if a.st ≠ .active then h
  else
    let h1 := putAgent k { a with st := .lost, en := if cause = 4 then false else a.en } h
    let h2 := { h1 with coh := { h1.coh with
      lostW0 := w64 (mkFld 55 51 k + mkFld 50 48 cause + mkFld 47 0 h.devTime), lostLines := 0
      walks := h1.coh.walks ++ [k], walkDone := if h1.coh.walks = [] then 0 else h1.coh.walkDone } }
    let h3 := count 0x60 0 1 (raise 0x60 16 h2)
    let mine := (h3.coh.leases.filter (fun e => e.2.st == .held && e.2.holder == .agent a.module a.unit)).map (·.1)
    let h4 := mine.foldl (fun x i => leaseIdle i x) h3
    let tags := (h4.coh.txs.map (fun x => (x.snoops.filter (fun s => s.agent == k)).map (·.tag))).flatten
    tags.foldl (fun x t => answerForLost t x) h4

/-- R312, R314: a walk ends: entries Owned by the agent are poisoned and removed; the next walk starts. -/
def walkEnd (h : Hub) : Hub :=
  match h.coh.walks with
  | [] => h
  | k :: rest =>
    let ls := (h.coh.filter.filter (fun e => e.2.owner == some k)).map (·.1)
    let h1 := ls.foldl (fun x l => dropFilter l (poisonLine l x)) h
    let h2 := putAgent k { getAgent k h1 with st := .walked } h1
    raiseEvent 0x60 0 { h2 with coh := { h2.coh with walks := rest, walkDone := if rest = [] then 8388608 else 0 } }

/- ### Recalls by the Tier Manager (R180, R183) -/

/-- Snoops of a whole tile by the Tier Manager: to shared (discard = false) or, for FREE, to invalid. -/
def recallTile (t : Nat) (discard : Bool) (h : Hub) : Hub :=
  let q := newReq h
  let r : Req := { id := q.1, src := .tileRecall discard, frame := {}, off := 65536 * t }
  let ls := (tileLines t).filter (fun l => (getFilter l h).isSome)
  if (tileLines t).any (fun l => lineBusy l h) || waitsBehind r h.coh.waiting then
    { q.2 with coh := { q.2.coh with waiting := q.2.coh.waiting ++ [r] } }
  else
  let s := ls.foldl (fun acc l => snoopLine r l acc) ([], q.2)
  if s.1 = [] then s.2
  else { s.2 with coh := { s.2.coh with txs := s.2.coh.txs ++ [⟨r, ls, s.1, .snoops, false, false, false⟩] } }

/-- Are snoops of a recall of this tile outstanding? -/
def recalling (t : Nat) (h : Hub) : Bool :=
  (h.coh.waiting ++ h.coh.txs.map (·.req)).any (fun r =>
    (match r.src with | .tileRecall _ => true | _ => false) && tileOf r.off == t)

end Sys2Proof.Machine
end

