-- ==== Sys2Proof/Machine/TierCmd.lean ====
section
/-!
DEFINITION. Tier commands and the Tier Manager's own work (R179 to R193), and the registers of the TIER page (R199 to R204).
-/
namespace Sys2Proof.Machine

/-- R180: a demotion starts, unless no run is free (R192); one that starts while the free map is being rebuilt waits for it
(R557). -/
def demoteStart (t : Nat) (bg : Bool) (next : TileNext) (h : Hub) : Option Hub :=
  if !h.ras.freeMapBad && (findRun (imageGranules (imageUnits t h)) h).isNone then none
  else some (recallTile t false (putTile t { getTile t h with st := .demoting, background := bg, next := next } h))

/-- R192. -/
def t2Full (h : Hub) : Hub := raiseEvent 0x90 2 h

/-- R183: FREE starts: Freeing, and every cached copy is invalidated. -/
def freeStart (t : Nat) (h : Hub) : Hub := recallTile t true (putTile t { getTile t h with st := .freeing } h)

/-- R186: would one more pin or hold raise LOCKED above CEILING? -/
def lockRefused (t : Nat) (h : Hub) : Bool :=
  let v := getTile t h
  v.pins == 0 && v.holds == 0 && decide (ceilingOf v.cls h < lockedOf v.cls h + 1)

/-- R193: result codes of R204. -/
def resOk : Nat := 0
def resPoolFull : Nat := 1
def resPinned : Nat := 2
def resCeiling : Nat := 3
def resPinLimit : Nat := 4
def resNotAllocated : Nat := 5
def resT2Full : Nat := 6
def resBadOp : Nat := 7
def resRange : Nat := 8

/-- What one tile of a command comes to: done, failed, its own work under way, or held by another's. -/
inductive TileStep
  | done (h : Hub)
  | fail (code : Nat) (h : Hub)
  | wait (h : Hub)
  | held

/-- R186: PIN of a tile that has a slot. -/
def pinTile (t : Nat) (h : Hub) : Hub := putTile t { getTile t h with pins := (getTile t h).pins + 1 } h
def unpinTile (t : Nat) (h : Hub) : Hub := putTile t { getTile t h with pins := (getTile t h).pins - 1 } h

/-- R193 on one tile; `started`: its work was started earlier. -/
def tierTile (c : TierCmd) (t : Nat) (h : Hub) : TileStep :=
  let v := getTile t h
  if c.op = 1 then
    match v.st with
    | .free | .void =>
      match allocFresh t c.cls c.tenant h with
      | some h1 => .done h1
      | none => .fail resPoolFull (poolFull h)
    | .freeing => .wait h
    | .upper | .clean | .lower | .promoting | .demoting => .done h
  else if c.op = 2 then
    if 0 < v.pins then .fail resPinned h
    else
      match v.st with
      | .free => .done h
      | .void => .done (freeFinish t h)
      | .promoting | .demoting | .freeing => .wait h
      | .upper | .clean | .lower => .wait (freeStart t h)
  else if c.op = 3 then
    match v.st with
    | .free | .void => .fail resNotAllocated h
    | .promoting | .freeing => .wait h
    | .lower =>
      if v.pins = 255 then .fail resPinLimit h
      else if lockRefused t h then .fail resCeiling h
      else match promoteStart t h with | some h1 => .wait h1 | none => .fail resPoolFull (poolFull h)
    | .upper | .clean | .demoting =>
      if v.pins = 255 then .fail resPinLimit h
      else if lockRefused t h then .fail resCeiling h
      else .done (pinTile t h)
  else if c.op = 4 then .done (if v.pins = 0 then h else unpinTile t h)
  else if c.op = 5 then
    match v.st with
    | .lower => match promoteStart t h with | some h1 => .wait h1 | none => .fail resPoolFull (poolFull h)
    | .promoting => if c.started then .wait h else .done h
    | .free | .upper | .clean | .demoting | .freeing | .void => .done h
  else if c.op = 6 then
    match v.st with
    | .upper =>
      if c.started then .done h
      else match demoteStart t false .stay h with | some h1 => .wait h1 | none => .fail resT2Full (t2Full h)
    | .demoting => if c.started then .wait h else .done h
    | .free | .clean | .lower | .promoting | .freeing | .void => .done h
  else if c.op = 7 then
    if 0 < v.pins ∨ 0 < v.holds then .fail resPinned h
    else
      match v.st with
      | .clean => .done (dropToLower t h)
      | .upper =>
        if c.started then .done h
        else match demoteStart t false .stay h with | some h1 => .wait h1 | none => .fail resT2Full (t2Full h)
      | .promoting | .demoting | .freeing => if c.started then .wait h else .held
      | .free | .lower | .void => .done h
  else if c.op = 8 then
    match v.st with
    | .free | .void | .freeing => .done h
    | .lower => .done (putTile t { v with cls := c.cls } h)
    | .upper | .clean | .promoting | .demoting => .done (renewTile t (putTile t { v with cls := c.cls } h))
  else if c.op = 9 then
    if v.st = .upper ∧ v.sealed = 0 then
      if c.started then (if recalling t h then .wait h else .done (sealTile t (writeBackTile t h)))
      else
        let h1 := recallTile t false h
        if recalling t h1 then .wait h1 else .done (sealTile t (writeBackTile t h1))
    else .done h
  else
    match v.st with
    | .free | .void => .fail resNotAllocated h
    | .upper | .clean | .lower | .promoting | .demoting | .freeing =>
      let bs := headerOfTile t v
      .done { h with tier := { h.tier with hdr := (List.range 16).map (fun j => w64 (leAt bs (8 * j) 8)) } }

/-- R193: how many tiles a command takes; HDR_READ takes the first only. -/
def tilesToDo (c : TierCmd) : Nat := if c.op = 0xA then 1 else max 1 c.count

def putHead (c : TierCmd) (h : Hub) : Hub :=
  { h with tier := { h.tier with cmds := match h.tier.cmds with | [] => [] | _ :: cs => c :: cs } }

/-- R193, R199: the command at the head does what it can do now. -/
def tierGo : Nat → Hub → Hub
  | 0, h => h
  | fuel + 1, h =>
    match h.tier.cmds with
    | [] => h
    | c :: _ =>
      if c.result.isSome then h
      else if !(enabled 0x90 h) && !c.started then h
      else if c.op = 0 ∨ 0xA < c.op then putHead { c with result := some resBadOp } h
      else if 2 ^ 29 < c.tile + max 1 c.count then putHead { c with result := some resRange } h
      else if tilesToDo c ≤ c.done then putHead { c with result := some resOk } h
      else
        match tierTile c (c.tile + c.done) h with
        | .done h1 => tierGo fuel (putHead { c with done := c.done + 1, started := false } h1)
        | .fail code h1 => putHead { c with result := some code } h1
        | .wait h1 => putHead { c with started := true } h1
        | .held => h

def tierRun (h : Hub) : Hub := tierGo 65540 h

/-- R203: a write of TIER_CMD: accepted, or CMD_OVF. -/
def tierCmdWrite (v : Nat) (h : Hub) : Hub :=
  if 16 ≤ h.tier.cmds.length then raise 0x90 18 h
  else
    let q := (h.tier.issuedSeq + 1) % 65536
    let a := getReg 0x90 0x140 h
    let c : TierCmd := { seq := q, tile := fld a 28 0, count := fld a 63 48, op := nbits v 3 0, cls := nbits v 10 8,
                         tenant := nbits v 31 20 }
    let h1 := { h with tier := { h.tier with cmds := h.tier.cmds ++ [c], issuedSeq := q } }
    if h.tier.cmds = [] then tierRun h1 else h1

/-- R193, R204: the head command's report, and the next command's start. A DEMOTE or EVICT whose demotion a store
abandoned (R181) takes the tile as done (log entry 70). -/
def tierCmdDone (h0 : Hub) : Hub :=
  let h := tierRun h0
  match h.tier.cmds with
  | [] => h
  | c :: cs =>
    match c.result with
    | none => h
    | some r =>
      tierRun (raiseEvent 0x90 0 { h with tier := { h.tier with cmds := cs, doneSeq := c.seq, result := r, doneTiles := c.done } })

/-- R179: a promotion completes; where a unit's own write ended it, what waited for the tile goes on. -/
def promotionDone (t : Nat) (h : Hub) : Hub :=
  if (getTile t h).st = .promoting then tierRun (resumeTile t (promoteFinish t h)) else resumeTile t h

/-- R180: a demotion completes, once its recall is answered; an eviction goes on to Lower. -/
def demotionDone (t : Nat) (h : Hub) : Hub :=
  let v := getTile t h
  if v.st = .demoting ∧ !recalling t h ∧ !h.ras.freeMapBad then
    let h1 := demoteFinish t h
    let h2 := if (getTile t h1).st = .clean ∧ v.next = .evict then dropToLower t h1 else h1
    tierRun h2
  else h

/-- R183: FREE completes. -/
def freeingDone (t : Nat) (h : Hub) : Hub :=
  if (getTile t h).st = .freeing ∧ !recalling t h then tierRun (resumeTile t (freeFinish t h)) else resumeTile t h

/- ### Background work (R187, R190) -/

def backgroundDemotions (h : Hub) : Nat := (h.tier.tiles.filter (fun e => e.2.background && e.2.st == .demoting)).length

/-- R190: evict one tile in the background: a Clean tile at once, an Upper one by a demotion within BG_MAX. -/
def evictBackground (t : Nat) (h : Hub) : Hub :=
  let v := getTile t h
  if v.st = .clean then dropToLower t h
  else if v.st = .upper ∧ backgroundDemotions h < regFld 0x90 0x40 31 24 h then
    (demoteStart t true .evict h).getD (t2Full h)
  else h

/-- Tiles whose demotion under way, of the background or of an EVICT, will free their slot. -/
def leaving (h : Hub) : List (Nat × Tile) :=
  h.tier.tiles.filter (fun e => e.2.st == .demoting && (e.2.background ||
    match h.tier.cmds with | [] => false | c :: _ => c.op == 7 && c.started && c.tile + c.done == e.1))

/-- R185, R190: fewer free slots than the target, or a class above its ceiling. An eviction under way counts as
done (log entry 153). -/
def backgroundEviction (h : Hub) : Hub :=
  if !enabled 0x90 h || regFld 0x90 0x40 31 24 h == 0 then h
  else if slotsFree h + (leaving h).length < regFld 0x90 0x44 23 0 h then
    match backgroundVictim h with
    | some t => evictBackground t h
    | none => h
  else
    match oldestHead (fun k _ => decide (ceilingOf k h + ((leaving h).filter (fun e => e.2.cls == k)).length < usedOf k h)) h with
    | some t => evictBackground t h
    | none => h

/-- R190: eviction of a tile past its class's age limit. -/
def ageEviction (t : Nat) (h : Hub) : Hub :=
  let v := getTile t h
  let lim := ageLimitOf v.cls h
  if enabled 0x90 h && regBit 0x90 0x40 16 h && regFld 0x90 0x40 31 24 h != 0 && evictable v && lim != 0 &&
      decide (lim ≤ ageOf v h) && decide (floorOf v.cls h < usedOf v.cls h) then
    count 0x90 3 1 (evictBackground t h)
  else h

/-- R187: stamps older than 2^30 ticks are rewritten. -/
def stampPatrol (h : Hub) : Hub :=
  { h with tier := { h.tier with tiles := h.tier.tiles.map (fun e =>
      if 2 ^ 30 < ageOf e.2 h then (e.1, { e.2 with stamp := (ageNow h + 2 ^ 32 - 2 ^ 30) % 2 ^ 32 }) else e) } }

/- ### Registers -/

/-- R200: a write of TIER_CFG. -/
def tierCfgWrite (v : Word) (h : Hub) : Hub :=
  if enabled 0x90 h && fld v 15 0 != regFld 0x90 0x40 15 0 h then raise 0x90 19 h
  else putReg 0x90 0x40 (v &&& w64 (masks [(31, 24), (17, 0)])) h

/-- R185: a write of a class's floor and ceiling. -/
def classLimitWrite (c : Nat) (v : Word) (h : Hub) : Hub :=
  let floors := ((List.range 8).map (fun k => if k = c then fld v 23 0 else floorOf k h)).sum
  if fld v 55 32 < fld v 23 0 ∨ h.tier.slots < floors then raise 0x90 17 h
  else putReg 0x90 (0x80 + 16 * c) (v &&& w64 (masks [(55, 32), (23, 0)])) h

/-- R196: the limits of a pool profile: floor and ceiling per mille, age limit, by class; serving first. -/
def profileRows (training : Bool) : List (Nat × Nat × Nat) :=
  if training then
    [(0, 300, 60000), (150, 500, 0), (0, 100, 30000), (200, 600, 0), (0, 400, 120000), (0, 100, 120000), (100, 400, 10000),
     (10, 50, 0)]
  else
    [(0, 400, 60000), (200, 600, 0), (200, 700, 30000), (0, 50, 0), (0, 300, 120000), (0, 300, 120000), (0, 200, 5000),
     (10, 50, 0)]

/-- R196: FLOOR and CEILING of class c in a pool of `slots` slots. -/
def profileLimit (training : Bool) (slots c : Nat) : Word :=
  let r := nth (profileRows training) c (0, 0, 0)
  w64 (mkFld 55 32 (slots * r.2.1 / 1000) + mkFld 23 0 (slots * r.1 / 1000))

/-- R196: the active profile's limits are loaded in Clocking. -/
def loadProfile (training : Bool) (h : Hub) : Hub :=
  (List.range 8).foldl (fun x c =>
    x |> putReg 0x90 (0x80 + 16 * c) (profileLimit training x.tier.slots c)
      |> putReg 0x90 (0x100 + 4 * c) (w64 (nth (profileRows training) c (0, 0, 0)).2.2)) h

/-- R196: the tests have settled SLOTS; a limit that still holds what Clocking loaded for `slots` takes the tested count. -/
def reloadLimits (training : Bool) (slots : Nat) (h : Hub) : Hub :=
  (List.range 8).foldl (fun x c =>
    if getReg 0x90 (0x80 + 16 * c) x = profileLimit training slots c then
      putReg 0x90 (0x80 + 16 * c) (profileLimit training x.tier.slots c) x
    else x) h

/- ### Views -/

def t2Usable (h : Hub) : Nat := h.tier.granules - h.tier.firstUsable - h.tier.excluded.length

def t2Used (h : Hub) : Nat := (h.tier.tiles.map (fun e => match e.2.run with | some (_, n) => n | none => 0)).sum

/-- R199 to R204: the TIER page's read-only registers. -/
def tierView (off : Nat) (h : Hub) : Option Nat :=
  if off = 0x48 then some (mkFld 55 32 (slotsFree h) + mkFld 23 0 h.tier.slots)
  else if off = 0x50 then some (t2Usable h)
  else if off = 0x58 then some (t2Usable h - t2Used h)
  else if 0x88 ≤ off ∧ off < 0x108 ∧ off % 16 = 8 ∧ off < 0x88 + 128 then
    some (mkFld 55 32 (lockedOf ((off - 0x88) / 16) h) + mkFld 23 0 (usedOf ((off - 0x88) / 16) h))
  else if off = 0x150 then
    some (mkFld 63 60 h.tier.result + mkFld 52 48 h.tier.cmds.length + mkFld 47 32 h.tier.doneTiles +
      mkFld 31 16 h.tier.issuedSeq + mkFld 15 0 h.tier.doneSeq)
  else if 0x180 ≤ off ∧ off < 0x200 then some (nth h.tier.hdr ((off - 0x180) / 8) 0).toNat
  else none

end Sys2Proof.Machine
end

