-- ==== Sys2Proof/Machine/Recv.lean ====
section
/-!
DEFINITION. Requests for the store of this module, from arrival to their home (R134, R144, R147, R256 to R260, R302,
R306, R320): form, translation, lease, shaper, tile-write assembly, FLUSH.
-/
namespace Sys2Proof.Machine

/-- R249: an internal unit. -/
def isInternalUnit (u : Nat) : Bool := decide (0x80 ≤ u ∧ u ≤ 0xBF)

/-- R250, R256, R259, R260, R302: the form of a request to STORE. -/
def formOk (f : Frame) : Bool :=
  let lenIs := f.payload.length == f.len
  let o := f.opcode
  if o = 0x01 then !f.posted && decide (1 ≤ f.len ∧ f.len ≤ 4096 ∧ f.addr % 4096 + f.len ≤ 4096) && f.payload == []
  else if o = 0x02 ∨ o = 0x03 then
    f.posted == (o == 0x03) && decide (1 ≤ f.len ∧ f.len ≤ 4096 ∧ f.addr % 4096 + f.len ≤ 4096) && lenIs
  else if o = 0x04 then
    let op := nbits f.aux 7 0
    let n := if f.aux.testBit 8 then 8 else 4
    !f.posted && f.payload == [] && f.addr % n == 0 && ((decide (1 ≤ op ∧ op ≤ 0x0A)) || (op == 0x10 && n == 4))
  else if o = 0x05 then !f.posted
  else if o = 0x06 then
    let j := nbits f.aux 4 0
    !f.posted && f.addr % 65536 == 0 && lenIs && ((j == 16 && f.len == 128) || (decide (j < 16) && f.len == 4096))
  else if o = 0x50 ∨ o = 0x51 ∨ o = 0x52 then !f.posted && f.addr % 128 == 0 && f.len == 0 && f.payload == []
  else if o = 0x53 then !f.posted && f.addr % 128 == 0 && f.len == 128 && lenIs
  else if o = 0x54 then f.posted && f.addr % 128 == 0 && f.len == 0
  else if o = 0x55 then f.posted && f.addr == 0 && f.len == 0
  else false

/-- R142, R156: the operation a request is translated for. -/
def opOf (f : Frame) : Nat :=
  let o := f.opcode
  if o = 0x01 ∨ o = 0x50 ∨ o = 0x54 then opRead
  else if o = 0x04 then (if atomicReturns f.aux then opAtomicRet else opAtomic)
  else opWrite

/-- R134, second case. -/
def ringTrusted (port : Nat) (f : Frame) (h : Hub) : Bool :=
  (isRingPort port || bindMode port h == 2) && isInternalUnit f.srcUnit && f.srcModule != moduleId h && regBit 0xA0 0x40 0 h

def sourcePort (r : Req) : Nat :=
  match r.src with
  | .frame p => p
  | _ => 31

/-- R144: same source and traffic class. -/
def sameFlow (a b : Req) : Bool :=
  a.frame.srcModule == b.frame.srcModule && a.frame.srcUnit == b.frame.srcUnit && a.frame.tc == b.frame.tc

/- ### Requests that the other member of a pair performs (R604) -/

/-- A request frame of this member to the other, in GSA mode. -/
def pairFrame (r : Req) (opcode off : Nat) (data : List Byte) (poison : Bool) (h : Hub) : Frame :=
  { r.frame with dstModule := moduleId h, dstUnit := 0x80, srcModule := moduleId h, srcUnit := 0x80, opcode := opcode,
                 posted := opcode == 3, tenant := reqTenant r h, asid := 0xFFFF, addr := mkFld 55 46 (moduleId h) + pairWindow off h,
                 payload := data, scarry := scarryOf data, poison := poison, issueTime := h.devTime % 2 ^ 48, hops := 0, cm := false,
                 turned := false }

/-- The runs of enabled bytes of a write: first byte and bytes. -/
def enabledRuns : Nat → List Bool → List Byte → List (Nat × List Byte)
  | _, [], _ => []
  | i, e :: es, bs =>
    if e then
      match enabledRuns (i + 1) es (bs.drop 1) with
      | (j, cs) :: t => if j = i + 1 then (i, bs.take 1 ++ cs) :: t else (i, bs.take 1) :: (j, cs) :: t
      | [] => [(i, bs.take 1)]
    else enabledRuns (i + 1) es (bs.drop 1)

/-- The frames that carry a request across the bridge: a tile write as its 17 parts, a write with byte enables run by run. -/
def pairFrames (r : Req) (h : Hub) : List Frame :=
  let f := r.frame
  if f.opcode = 0x06 then
    let part (j : Nat) (d : List Byte) (p : Bool) : Frame := { pairFrame r 6 r.off d p h with len := d.length, aux := j, operand0 := 0, operand1 := 0 }
    (List.range 16).map (fun j => part j (sliceBytes f.payload (128 + 4096 * j) 4096) (f.operand0.testBit j)) ++
      [part 16 (f.payload.take 128) (f.operand1 == 1)]
  else if r.enables = [] then [{ pairFrame r f.opcode r.off f.payload f.poison h with len := f.len, aux := f.aux }]
  else
    let runs := enabledRuns 0 r.enables f.payload
    (List.range runs.length).map (fun i =>
      let x := nth runs i (0, [])
      { pairFrame r (if i + 1 = runs.length then 2 else 3) (r.off + x.1) x.2 f.poison h with len := x.2.length })

/-- R604, R607: a request that the other member performs crosses the bridge; a coherence request keeps its source. -/
def relayReq (r : Req) (h : Hub) : Hub :=
  if isCoh r.frame then
    sendBridge raise { r.frame with asid := 0xFFFF, addr := mkFld 55 46 (moduleId h) + pairWindow r.off h } h
  else
    let fs := pairFrames r h
    if fs = [] ∨ r.frame.posted then flushCheck (fs.foldl (fun x f => sendBridge raise f x) h)
    else
      let t := allocTag h
      let o : List Outstanding := (fs.getLast?.toList).map (fun f => { frame := { f with tag := t.1 }, issued := h.devTime, purpose := .relay r.id })
      let h1 := { t.2 with relays := Tab.set t.2.relays r.id r, outstanding := t.2.outstanding ++ o }
      fs.foldl (fun x f => sendBridge raise { f with tag := t.1 } x) h1

/-- The answer of the other member goes to the request's source. -/
def relayDone (n status detail aux : Nat) (poison : Bool) (data : List Byte) (h : Hub) : Hub :=
  match Tab.get? h.relays n with
  | none => h
  | some r => answer r status detail aux poison data { h with relays := Tab.erase h.relays n }

/-- A request at its home: this member's, or the other's. -/
def homeOrPair (r : Req) (h : Hub) : Hub := if otherHolds r.off h then relayReq r h else homeIn r h

/- ### Tile-write assembly (R260) -/

def sameTileWrite (a : Assembly) (f : Frame) : Bool :=
  a.srcModule == f.srcModule && a.srcUnit == f.srcUnit && a.tag == f.tag

def putAssembly (a : Assembly) (h : Hub) : Hub :=
  { h with assemblies := h.assemblies.filter (fun b =>
      !(b.srcModule == a.srcModule && b.srcUnit == a.srcUnit && b.tag == a.tag)) ++ [a] }

/-- Assemblies still within the dead-target bound of their first part, or open. -/
def liveAssemblies (h : Hub) : List Assembly :=
  h.assemblies.filter (fun a => !a.dead || decide (h.devTime < a.started + deadBound h))

/-- The tile write ends without being performed: one answer, later parts discarded. -/
def endTileWrite (r : Req) (status detail : Nat) (note : Hub → Hub) (h : Hub) : Hub :=
  match (liveAssemblies h).find? (fun a => sameTileWrite a r.frame) with
  | some a => if a.dead then h else answerStatus r status detail (note (putAssembly { a with dead := true, parts := [] } h))
  | none =>
    answerStatus r status detail (note (putAssembly
      ⟨r.frame.srcModule, r.frame.srcUnit, r.frame.tag, r.frame.addr, h.devTime, [], true, sourcePort r⟩ h))

/-- R260: the 17 parts as one request: payload header then blocks, operand0 the blocks that came poisoned, operand1 1 for
a header that is not used. -/
def joinParts17 (a : Assembly) (f : Frame) : Frame :=
  let hd := Tab.getD a.parts 16 f
  let blocks := (List.range 16).map (fun j => Tab.getD a.parts j {})
  let mask := (List.range 16).foldl (fun m j => if payloadPoison (nth blocks j {}) then m ||| 2 ^ j else m) 0
  { f with payload := hd.payload ++ (blocks.map (·.payload)).flatten, operand0 := mask,
           operand1 := if payloadPoison hd || (parseHeader hd.payload).isNone then 1 else 0 }

/-- R260: a part reaches STORE. -/
def tilePart (r : Req) (h : Hub) : Hub :=
  let f := r.frame
  let j := nbits f.aux 4 0
  match (liveAssemblies h).find? (fun a => sameTileWrite a f) with
  | some a =>
    if a.dead then h
    else if a.addr ≠ f.addr ∨ (Tab.get? a.parts j).isSome then endTileWrite r stBadRequest 0 id h
    else
      let a1 := { a with parts := Tab.set a.parts j f }
      if a1.parts.length < 17 then putAssembly a1 h
      else
        let hd := Tab.getD a1.parts 16 f
        let h1 := { h with assemblies := h.assemblies.filter (fun b => !sameTileWrite b f) }
        match (if payloadPoison hd then none else parseHeader hd.payload) with
        | some (_, hver) =>
          if hver ≠ 1 then endTileWrite r stBadRequest 0 id h1
          else homeOrPair { r with frame := joinParts17 a1 f, stamp := h.devTime } h1
        | none => homeOrPair { r with frame := joinParts17 a1 f, stamp := h.devTime } h1
  | none =>
    if 64 ≤ ((liveAssemblies h).filter (fun a => !a.dead)).length then answerStatus r stBusy 0 h
    else putAssembly ⟨f.srcModule, f.srcUnit, f.tag, f.addr, h.devTime, [(j, f)], false, sourcePort r⟩ { h with assemblies := liveAssemblies h }

/-- R260: assemblies whose parts are not all present at the bound write nothing and complete INCOMPLETE. -/
def tileWriteExpire (h : Hub) : Hub :=
  let due := h.assemblies.filter (fun a => !a.dead && decide (a.started + deadBound h ≤ h.devTime))
  due.foldl (fun x a =>
    match a.parts with
    | [] => x
    | (_, f) :: _ => answerStatus { id := 0, src := .frame a.port, frame := f } stIncomplete 0 x)
    { h with assemblies := h.assemblies.filter (fun a => decide (h.devTime < a.started + deadBound h)) }

/- ### From the shaper to the home -/

/-- A request admitted by its shaper reaches STORE. -/
def deliverStore (r : Req) (h : Hub) : Hub :=
  if r.frame.opcode = 0x05 then
    if flushBlocked r h then { h with coh := { h.coh with flushes := h.coh.flushes ++ [r] } } else answerStatus r stOk 0 h
  else if r.frame.opcode == 0x06 && (match r.src with | .frame _ => true | _ => false) then tilePart r h
  else
    match r.src with
    | .pool _ _ _ _ => pouDeliver r h
    | _ => homeOrPair r h

def deliverAll (rs : List Req) (h : Hub) : Hub := rs.foldl (fun x r => deliverStore r x) h

/-- R320, R529: a translated request: lease, shaper, target. -/
def afterStu (r : Req) (h : Hub) : Hub :=
  if leaseRefuses r h then
    let h1 := count 0x60 5 1 h
    if r.frame.opcode = 0x06 then endTileWrite r stDenied 0 id h1 else answerStatus r stDenied 0 h1
  else
    let x := shapeIn r h
    deliverAll x.1 x.2

/-- R151: a request that faults. A COH_WB fault poisons its line where the address names one (R306, log entry 14). -/
def stuRefuse (r : Req) (code : Nat) (h : Hub) : Hub :=
  let f := r.frame
  let note := stuFault code (opOf f) f.addr 0 f.srcModule f.srcUnit f.asid f.tenant
  if f.opcode = 0x06 then endTileWrite r stXlateFault code note h
  else
    let h1 := note h
    let h2 :=
      if f.opcode = 0x53 then
        let off := if f.asid = 0xFFFF then some (nbits f.addr 45 0)
          else (findLeaf f.tenant f.asid f.addr h1).map (fun e => mkFld 45 12 (nbits e.entry 45 12) + (f.addr - e.base))
        let h3 := match off with
          | some o => if inStore o 128 then dropFilter (lineOf o) (poisonLine (lineOf o) h1) else h1
          | none => h1
        raise 0x60 19 h3
      else h1
    answerStatus r stXlateFault code h2

/-- A translated request's place, and R129, R298 for windows. -/
def translated (r : Req) (off : Nat) (leaf : Option (Nat × Nat × Nat)) (h : Hub) : Hub :=
  let f := r.frame
  let h1 := if f.asid = 0xFFFF then h else track f.srcModule f.srcUnit f.tenant f.asid f.addr h
  if windowBase ≤ off ∧ f.opcode = 0x06 then stuRefuse r flRange h1
  else if windowBase ≤ off ∧ isCoh f then answerStatus r stBadRequest 0 h1
  else afterStu { r with off := off, leaf := leaf } h1

/-- What became of a request in the STU. -/
inductive StuStep
  | passed (h : Hub)
  | waits (h : Hub)

/-- R134, R142, R151: one try at translating a request; `bad`: a page whose walk has just faulted. A FLUSH is not translated
(R257). -/
def stuTry (r : Req) (bad : Option (Nat × Nat × Nat × Nat)) (h : Hub) : StuStep :=
  let f := r.frame
  let p := sourcePort r
  if f.opcode = 0x05 then .passed (let x := shapeIn r h; deliverAll x.1 x.2)
  else match xlate (ringTrusted p f h) f.tenant f.asid f.addr (max 1 (reqLen f)) (opOf f) h with
  | (.ok ps leaf, h1) =>
    match ps with
    | (off, _) :: _ => .passed (translated r off leaf h1)
    | [] => .passed h1
  | (.fault c, h1) => .passed (stuRefuse r c h1)
  | (.miss va, h1) =>
    match bad with
    | some (t, a, vpn, c) =>
      if t = f.tenant ∧ a = f.asid ∧ vpn = va / 2 ^ 21 then
        .passed (stuRefuse r c (if c = flWalkPoison then raise 0xA0 19 h1 else h1))
      else .waits (needWalk f.tenant f.asid va h1)
    | none => .waits (needWalk f.tenant f.asid va h1)

/-- R144: requests that wait go on in order; one that still waits holds back later ones of its source and class. -/
def stuPass (bad : Option (Nat × Nat × Nat × Nat)) (rs : List Req) (h : Hub) : Hub :=
  rs.foldl (fun x r =>
    if x.stu.waiting.any (fun q => sameFlow q r) then setStu { x.stu with waiting := x.stu.waiting ++ [r] } x
    else
      match stuTry r bad x with
      | .passed x1 => x1
      | .waits x1 => setStu { x1.stu with waiting := x1.stu.waiting ++ [r] } x1) h

/-- R163: a request that the STU's caches served at h. -/
def hitAt (r : Req) (h0 h : Hub) : Hub :=
  let f := r.frame
  countHit f.asid (xlate (ringTrusted (sourcePort r) f h0) f.tenant f.asid f.addr (max 1 (reqLen f)) (opOf f) h0).1 h0 h

/-- A request enters the STU (R144). A FLUSH stays behind its flow's earlier requests there (R257). -/
def stuEnter (r : Req) (h : Hub) : Hub :=
  let flush := r.frame.opcode == 0x05
  if 256 ≤ h.stu.waiting.length || h.stu.waiting.any (fun q => sameFlow q r) then
    setStu { h.stu with waiting := h.stu.waiting ++ [r] } (if flush then h else count 0xA3 1 1 h)
  else
    match stuTry r none h with
    | .passed h1 => if flush then h1 else hitAt r h h1
    | .waits h1 => count 0xA3 1 1 (setStu { h1.stu with waiting := h1.stu.waiting ++ [r] } h1)

/-- R143 to R147, R149: a walk ends. -/
def walkDone (t asid vpn : Nat) (h : Hub) : Hub :=
  match h.stu.walks.find? (fun w => w.tenant == t && w.asid == asid && w.vpn == vpn) with
  | none => h
  | some w =>
    let rest (x : Hub) : Hub := setStu { x.stu with walks := x.stu.walks.filter (fun v => v != w) } x
    let go (bad : Option (Nat × Nat × Nat × Nat)) (x : Hub) : Hub :=
      pumpPrewalks (70000 * 17) (stuPass bad x.stu.waiting (setStu { x.stu with waiting := [] } x))
    if w.again then go none (rest h)
    else
      match walkPage t asid (vpn * 2 ^ 21) h with
      | (.ok (e, k), h1) => go none (installLeaf t asid (vpn * 2 ^ 21) e k (!w.demand) (rest h1))
      | (.error c, h1) => go (if w.demand then some (t, asid, vpn, c) else none) (rest h1)

/- ### Arrival at STORE -/

/-- R313, R298: coherence frames come from Active agents. -/
def cohDenied (f : Frame) (h : Hub) : Bool := decide (0x50 ≤ f.opcode ∧ f.opcode ≤ 0x55) && (agentIndex f.srcModule f.srcUnit h).isNone

/-- A request for STORE arrives, past the switch core's own checks. -/
def storeArrive (port : Nat) (f : Frame) (h : Hub) : Hub :=
  let q := newReq h
  let r : Req := { id := q.1, src := .frame port, frame := f }
  if !formOk f then answerStatus r stBadRequest 0 q.2
  else if cohDenied f q.2 then answerStatus r stDenied 0 (count 0x60 6 1 (raise 0x60 18 q.2))
  else if f.opcode = 0x55 then
    match agentIndex f.srcModule f.srcUnit q.2 with
    | some k => putAgent k { getAgent k q.2 with lastHb := q.2.devTime } q.2
    | none => q.2
  else stuEnter r q.2

end Sys2Proof.Machine
end

