-- ==== Sys2Proof/Machine/Coh.lean ====
section
/-!
DEFINITION. The COH page (R311 to R324) and the SCACHE pages (R325): agent entries, lease definitions, holder commands,
expiries, and what the pages show.
-/
namespace Sys2Proof.Machine

def cohPage : Nat := 0x60

def agentCode : AgentState → Nat
  | .off => 0 | .active => 1 | .lost => 2 | .walked => 3

/-- R297: entries 16 to 31 belong to a Twinset pair. -/
def agentCount (h : Hub) : Nat := if h.twin.en then 32 else 16

/-- R311, R312, R322: a write of COH_AGENT entry a. -/
def agentWrite (a : Nat) (v : Word) (h : Hub) : Hub :=
  if agentCount h ≤ a then h
  else
    let e := getAgent a h
    let unit := fld v 25 18
    let module := fld v 17 8
    let open_ := e.st = .off ∨ e.st = .walked
    if ¬open_ ∧ (unit ≠ e.unit ∨ module ≠ e.module) then raise cohPage 17 h
    else if bitOf v 0 then
      (match e.st with
       | .lost => raise cohPage 17 h
       | .active => h
       | .off | .walked =>
         putAgent a { e with st := .active, en := true, module := module, unit := unit, lastHb := h.devTime } h)
    else
      (match e.st with
       | .active => loseAgent a 4 h
       | .lost => putAgent a { e with en := false } h
       | .off => putAgent a { e with en := false, module := module, unit := unit } h
       | .walked => putAgent a { e with st := .off, en := false, module := module, unit := unit } h)

/-- R312: no heartbeat for HB_LIMIT us. -/
def heartbeatTimeout (a : Nat) (h : Hub) : Hub :=
  let lim := regFld cohPage 0x40 31 16 h
  let e := getAgent a h
  if lim ≠ 0 ∧ e.st = .active ∧ e.lastHb + usToNs lim ≤ h.devTime then loseAgent a 2 h else h

def getLease (i : Nat) (h : Hub) : Lease := Tab.getD h.coh.leases i {}

def leaseRefusedDef (h : Hub) : Hub := raise cohPage 20 h

/-- R548, R563: a command reads lease i's entry, where an injection may be pending. An entry that reads poisoned, and
those of its half line with it, are treated as Undefined and written so (log entry 154). -/
def leaseRead (i : Nat) (h0 : Hub) : Hub :=
  let h := meetInjection (leaseBase h0 + 16 * i) 16 h0
  if leaseUsable i h then h
  else
    ownWrite (leaseBase h + 64 * (i / 4)) (List.replicate 64 0#8)
      { h with coh := { h.coh with leases := h.coh.leases.filter (fun e => e.1 / 4 != i / 4) } }

/-- R316: DEFINE, over the range of COH_LEASE_RANGE. -/
def leaseDefine (i term : Nat) (h0 : Hub) : Hub :=
  let h := leaseRead i h0
  let tile := regFld cohPage 0x68 28 0 h
  let n := max 1 (regFld cohPage 0x68 63 48 h)
  let overlaps := h.coh.leases.any (fun e => e.2.st != .undefined && leaseUsable e.1 h && decide (tile < e.2.tile + e.2.count ∧ e.2.tile < tile + n))
  if (getLease i h).st ≠ .undefined ∨ overlaps ∨ 2 ^ 29 < tile + n then leaseRefusedDef h
  else writeLease i { st := .idle, tile := tile, count := n, termMs := term } h

/-- R316: UNDEFINE. -/
def leaseUndefine (i : Nat) (h0 : Hub) : Hub :=
  let h := leaseRead i h0
  if (getLease i h).st = .idle then
    let h1 := writeLease i {} h
    { h1 with coh := { h1.coh with leases := Tab.erase h1.coh.leases i } }
  else leaseRefusedDef h

/-- R319: REVOKE. -/
def leaseRevoke (i : Nat) (h : Hub) : Hub := leaseIdle i (leaseRead i h)

/-- R317: the holder a requester stands for; none for a path that holds no lease. -/
def holderOf (r : Requester) (h : Hub) : Option Holder :=
  match r with
  | .ld p n => some (.ld (if h.twin.en then h.twin.role else 0) p n)
  | .agent m u _ => some (.agent m u)
  | .sideband | .fm _ => none

/-- R317: a command with no effect. -/
def leaseNoEffect (h : Hub) : Hub := count cohPage 3 1 h

/-- R317, R321, R548: a holder command on lease i, where it has its condition. -/
def leaseHolder (r : Requester) (i : Nat) (cond : Holder → Lease → Bool) (act : Holder → Lease → Lease) (note : Hub → Hub)
    (h0 : Hub) : Hub :=
  match holderOf r h0 with
  | none => h0
  | some w =>
    let h := leaseRead i h0
    let l := getLease i h
    if enabled cohPage h && l.st != .undefined && leaseUsable i h && cond w l then note (writeLease i (act w l) h)
    else leaseNoEffect h

def leaseTake (r : Requester) (i : Nat) (h : Hub) : Hub :=
  leaseHolder r i (fun _ l => l.st == .idle)
    (fun w l => { l with st := .held, holder := w, epoch := (l.epoch + 1) % 2 ^ 32, started := h.devTime }) (count cohPage 2 1) h

def leaseRenew (r : Requester) (i epoch : Nat) (h : Hub) : Hub :=
  leaseHolder r i (fun w l => l.st == .held && l.holder == w && l.epoch == epoch)
    (fun _ l => { l with started := h.devTime }) id h

def leaseGive (r : Requester) (i epoch : Nat) (h : Hub) : Hub :=
  leaseHolder r i (fun w l => l.st == .held && l.holder == w && l.epoch == epoch) (fun _ l => { l with st := .idle }) id h

/-- R319: the term of a Held lease passes. -/
def leaseExpire (i : Nat) (h : Hub) : Hub :=
  let l := getLease i h
  if l.st = .held ∧ leaseUsable i h ∧ l.termMs ≠ 0 ∧ l.started + msToNs l.termMs ≤ h.devTime then
    raiseEvent cohPage 1 (count cohPage 4 1 (leaseIdle i h))
  else h

/-- R322: a write of COH_LEASE_DEF. -/
def leaseDefWrite (v : Word) (h : Hub) : Hub :=
  let i := fld v 27 16
  match fld v 31 30 with
  | 1 => leaseDefine i (fld v 15 0) h
  | 2 => leaseUndefine i h
  | 3 => leaseRevoke i h
  | _ => h

/-- R322: a write of COH_LEASE_CMD. -/
def leaseCmdWrite (r : Requester) (v : Word) (h : Hub) : Hub :=
  let i := fld v 27 16
  match fld v 31 30 with
  | 1 => leaseTake r i h
  | 2 => leaseRenew r i (fld v 63 32) h
  | 3 => leaseGive r i (fld v 63 32) h
  | _ => h

/-- R322: COH_LEASE_BASE. -/
def leaseBaseWrite (v : Word) (h : Hub) : Hub :=
  let off := mkFld 45 16 (fld v 45 16)
  if enabled cohPage h ∨ storeEnd ≤ off then raise cohPage 21 h else putReg cohPage 0x48 (w64 off) h

/-- R319: at Ready the table is zeroed. Its tile is left Free where it is Free, as a Free tile reads as zero (R176). -/
def leaseTableZero (h : Hub) : Hub :=
  let h1 := { h with coh := { h.coh with leases := [] } }
  if (getTile (tileOf (leaseBase h1)) h1).st = .free then h1
  else match storeWrite (leaseBase h1) (List.replicate 65536 0#8) false 0 h1 with
  | some h2 => h2
  | none => poolFull h1

/-- R109: what a reset of the module leaves of the domain. -/
def cohReset (h : Hub) : Hub :=
  { h with coh := { waysBad := h.coh.waysBad }, assemblies := [] }

/-- R322, R325: what the pages show. The walk's DONE while it runs is not stated to the entry. -/
def cohView (off : Nat) (h : Hub) : Option (Nat × Hub) :=
  if off = 0x50 then
    match h.coh.walks with
    | [] => some (mkFld 23 0 h.coh.walkDone, h)
    | a :: _ => let r := fresh h; some (mkFld 63 63 1 + mkFld 60 56 a + r.1.toNat % 8388609, r.2)
  else if off = 0x58 then some (h.coh.lostW0.toNat, h)
  else if off = 0x60 then some (mkFld 31 0 h.coh.lostLines, h)
  else if 0x100 ≤ off ∧ off < 0x200 then
    let a := (off - 0x100) / 8
    let e := getAgent a h
    some (if agentCount h ≤ a then 0
      else mkFld 63 62 (agentCode e.st) + mkFld 25 18 e.unit + mkFld 17 8 e.module + mkFld 0 0 (bit01 e.en), h)
  else none

/-- R325: slice s. -/
def scacheView (s off : Nat) (h : Hub) : Option Nat :=
  let page := 0x50 + s
  let ok := (List.range 24).filter (fun w => !(Tab.getD h.coh.waysBad s []).contains w)
  if off = 0x40 then some (mkFld 28 24 ok.length + ok.foldl (fun a w => a + 2 ^ w) 0)
  else if off = 0x48 then some (mkFld 19 0 (h.coh.filter.filter (fun e => slicePage e.1 == page)).length)
  else if off = 0x4C then
    some (mkFld 9 0 (h.coh.txs.filter (fun x => match x.lines with | l :: _ => slicePage l == page | [] => false)).length)
  else none

end Sys2Proof.Machine
end

