-- ==== Sys2Proof/Machine/CoreBase.lean ====
section
/-!
DEFINITION. Parts of a core that every command uses (R327 to R331, R350 to R357, R367 to R379): the scratchpad, contexts
and their ends, the engines' queues, faults, semaphores, and requests to other modules.
-/
namespace Sys2Proof.Machine

def corePage (k : Nat) : Nat := 0x200 + k
def getCore (k : Nat) (h : Hub) : Core := Tab.getD h.cores k {}
def putCore (k : Nat) (c : Core) (h : Hub) : Hub := { h with cores := Tab.set h.cores k c }
def getCtx (k c : Nat) (h : Hub) : Ctx := Tab.getD (getCore k h).ctxs c {}
def putCtx (k c : Nat) (x : Ctx) (h : Hub) : Hub := putCore k { getCore k h with ctxs := Tab.set (getCore k h).ctxs c x } h

/- ### Requests to other modules (R264, R275, R281) -/

/-- R280: opcodes and operations of level 2. -/
def levelOf (f : Frame) : Nat := if f.opcode = 0x05 ∨ f.opcode = 0x06 ∨ (f.opcode = 0x04 ∧ nbits f.aux 7 0 = 0x10) then 2 else 1

/-- R604: the unit number of a logical core of this member. -/
def coreUnit (k : Nat) (h : Hub) : Nat := if pairJoined h && h.twin.role == 1 then k + 64 else k

/-- A non-posted request of a unit of this module, sent; or the status it completes with at once. -/
def issueRemote (f : Frame) (p : Purpose) (h : Hub) : Except Nat Hub :=
  if 2 ≤ levelOf f ∧ regFld 0x348 0x100 3 0 h < 2 then .error stUnsupported
  else
    let go : Except Nat Hub :=
      let t := allocTag h
      let u := if f.srcUnit < 64 then coreUnit f.srcUnit h else f.srcUnit
      let f1 := { f with srcModule := moduleId h, srcUnit := u, tag := t.1, plevel := levelOf f, issueTime := h.devTime % 2 ^ 48,
                         scarry := scarryOf f.payload }
      .ok (sendFrame f1 { t.2 with outstanding := t.2.outstanding ++ [⟨f1, h.devTime, p⟩] })
    if f.dstModule = moduleId h then (if (agentPort f.dstUnit h).isSome then go else .error stNoRoute)
    else
      match routeOf f.dstModule none h with
      | .dead => .error stTargetDead
      | .absent => .error stNoRoute
      | _ => go

/- ### The scratchpad -/

/-- R329. -/
def spFits (off n : Nat) : Bool := decide (off + n ≤ 0x180000)

def spBytes (k off n : Nat) (h : Hub) : List Byte := memGetN h.mem (scratchAddr k off) n

def spNum (k off n : Nat) (h : Hub) : Nat := ofBytesLE (spBytes k off n h)

def spPoison (k off n : Nat) (h : Hub) : Bool := anyPoison (scratchAddr k off) n h

/-- R563: an engine's reads of these regions meet a pending injection. -/
def meetSpReads (k : Nat) (l : List (Nat × Nat)) (h : Hub) : Hub :=
  if h.ras.injection.isNone then h
  else l.foldl (fun x r => if r.2 = 0 then x else meetSpInjection (scratchAddr k r.1) r.2 x) h

/-- A write by an engine or scalar: whole units lose their poison. -/
def spWrite (k off : Nat) (bs : List Byte) (h : Hub) : Hub := spStore (scratchAddr k off) bs false h

/- ### Faults (R356, R357) -/

def fBadCmd : Nat := 1
def fBadDesc : Nat := 2
def fSpRange : Nat := 3
def fPatRange : Nat := 4
def fXlate : Nat := 5
def fRefused : Nat := 6
def fTargetDead : Nat := 7
def fPoison : Nat := 8
def fBadWait : Nat := 9
def fWatchdog : Nat := 0xA
def fStopped : Nat := 0xB
def fFenced : Nat := 0xC

def allCmds (c : Core) : List EngCmd := c.mq ++ c.vq ++ c.q0 ++ c.q1

/-- Is a command not finished? -/
def unfinished (c : Core) (n : Nat) : Bool := (allCmds c).any (fun e => e.n == n)

def queueOf (e : EngineId) (c : Core) : List EngCmd :=
  match e with | .matrix => c.mq | .vector => c.vq | .dma0 => c.q0 | .dma1 => c.q1

def setQueue (e : EngineId) (q : List EngCmd) (c : Core) : Core :=
  match e with
  | .matrix => { c with mq := q }
  | .vector => { c with vq := q }
  | .dma0 => { c with q0 := q }
  | .dma1 => { c with q1 := q }

/-- R353: the unstarted commands of a context are discarded. -/
def discardCmds (ctx : Nat) (c : Core) : Core :=
  let keep (e : EngCmd) : Bool := e.ctx != ctx || e.started
  { c with mq := c.mq.filter keep, vq := c.vq.filter keep, q0 := c.q0.filter keep, q1 := c.q1.filter keep }

/-- R353: a context whose run is ending ends once its commands have. -/
def settleCtx (k c : Nat) (h : Hub) : Hub :=
  let x := getCtx k c h
  if (allCmds (getCore k h)).any (fun e => e.ctx == c) then h
  else
    match x.ending with
    | none => h
    | some (.halt e) =>
      if x.signals ≠ [] then h
      else raiseEvent (corePage k) c (putCtx k c { x with st := .ready, exit := e, ending := none, fence := [], marks := [] } h)
    | some (.fault code) =>
      putCtx k c { x with st := .faulted, fault := code, ending := none, fence := [], marks := [], signals := [], wait := none } h

/-- R353: a context that has faulted and waits for its commands in flight. -/
def isFaulting (x : Ctx) : Bool := match x.ending with | some (.fault _) => true | _ => false

/-- R353, R357: a fault of a context; one that is already ending in a fault has no second one. -/
def ctxFault (k c code detail pc addr : Nat) (h : Hub) : Hub :=
  let x := getCtx k c h
  if (x.st ≠ .running ∧ x.st ≠ .waiting) ∨ isFaulting x then h
  else
    let r : CoreFault := ⟨w64 (mkFld 63 56 code + mkFld 55 53 c + mkFld 52 40 pc + mkFld 39 32 detail + mkFld 31 0 h.devTime),
      w64 (mkFld 56 0 addr)⟩
    let h1 := count (corePage k) 6 1 h
    let core := getCore k h1
    let h2 := if core.faults.length < 16 then putCore k { core with faults := core.faults ++ [r] } h1 else raise (corePage k) 18 h1
    let h3 := putCore k (discardCmds c (getCore k h2)) h2
    let h4 := putCtx k c { getCtx k c h3 with ending := some (.fault code), signals := [], wait := none } h3
    settleCtx k c (raiseEvent (corePage k) (8 + c) h4)

/- ### Semaphores (R373, R374) -/

def semVal (k i : Nat) (h : Hub) : Nat := Tab.getD (getCore k h).sems i 0

/-- R374, R347: has a semaphore reached a threshold? none: an unordered pair. -/
def semReached (v thr : Nat) : Option Bool :=
  match serialCmp thr v 32 with
  | .equal => some true
  | .after => some true
  | .before => some false
  | .unordered => none

/-- R374: WAITs of a core that its semaphores now meet; an unordered pair faults BAD_WAIT. -/
def wakeWaits (k : Nat) (h : Hub) : Hub :=
  ((getCore k h).ctxs).foldl (fun x e =>
    let v := getCtx k e.1 x
    match v.st, v.wait with
    | .waiting, some (s, t) =>
      match semReached (semVal k s x) t with
      | some true => putCtx k e.1 { v with st := .running, wait := none } x
      | some false => x
      | none => ctxFault k e.1 fBadWait s (v.pc - 1) 0 x
    | _, _ => x) h

def setSem (k i v : Nat) (h : Hub) : Hub :=
  wakeWaits k (putCore k { getCore k h with sems := Tab.set (getCore k h).sems i (v % 2 ^ 32) } h)

/-- R347, R375: is a logical core of this module there to be signalled? -/
def coreServes (k : Nat) (h : Hub) : Bool :=
  decide (k < 64) && (getCore k h).st == .inService && nth h.boot.coreMap k 0xFF != 0xFF

/-- A bridge message for which R598 lists no opcode (log entry 155). -/
def bridgeSignal : Nat := 7

/-- R373, R608: the increment of a SIGNAL issued on core k is applied. In a pair the cores are numbered 0 to 127; one to a
core of the other member crosses the bridge (log entry 155). -/
def applySignal (k target sem imm : Nat) (h : Hub) : Hub :=
  let t := if target = 0xFF then k else if pairJoined h then target - 64 * h.twin.role else target
  if pairJoined h ∧ target ≠ 0xFF ∧ target < 128 ∧ target / 64 ≠ h.twin.role then bridgeOne bridgeSignal [target, sem, imm % 2 ^ 32] h
  else if coreServes t h then setSem t sem (semVal t sem h + imm) h else count (corePage k) 9 1 h

/-- R377: does a mark of this scope hold a SIGNAL to core `target` issued on the core numbered `own`? -/
def markHoldsSignal (own target : Nat) (m : ReleaseMark) : Bool := if m.scope = 0 then target == 0xFF || target == own else true

/-- R373, R377: may the oldest held SIGNAL of a context be applied? -/
def signalReady (own : Nat) (s : HeldSignal) (c : Core) : Bool :=
  s.cmds.all (fun n => !unfinished c n) &&
  s.marks.all (fun m => !markHoldsSignal own s.core m || m.cmds.all (fun n => !unfinished c n))

/-- R373: the oldest held SIGNAL of a context is applied when its condition is met. -/
def signalApply (k c : Nat) (h : Hub) : Hub :=
  let x := getCtx k c h
  match x.signals with
  | [] => h
  | s :: rest =>
    if signalReady (coreUnit k h) s (getCore k h) then
      settleCtx k c (applySignal k s.core s.sem s.imm (putCtx k c { x with signals := rest } h))
    else h

/- ### Retained data (R371, R372, R378) -/

def dropRetained (k : Nat) (h : Hub) : Hub := putCore k { getCore k h with retained := none } h

/-- R378: the drops of an ACQUIRE. -/
def acquireDrops (k scope emask : Nat) (h : Hub) : Hub :=
  let c := getCore k h
  let keep (b : BufLine) : Bool := scope == 0 || (scope == 1 && b.module != moduleId h)
  let c1 := if emask.testBit 0 then { c with retained := none } else c
  let c2 := if emask.testBit 2 then { c1 with buf0 := c1.buf0.filter keep } else c1
  let c3 := if emask.testBit 3 then { c2 with buf1 := c2.buf1.filter keep } else c2
  putCore k c3 h

/-- R372: an invalidation of the STU completes: every line of every queue's buffer is dropped. -/
def dropAllLines (h : Hub) : Hub := { h with cores := h.cores.map (fun e => (e.1, { e.2 with buf0 := [], buf1 := [] })) }

/-- R371: the matrix engine writes bytes off to off+n−1: a retained copy of any of them is dropped. -/
def overlaps (a n b m : Nat) : Bool := decide (a < b + m ∧ b < a + n)

/- ### Contexts start and end (R345, R351, R355, R379) -/

/-- R355: the registers at a start. -/
def startRegs (args : List Word) (ctx core : Nat) : List Word :=
  [nth args 0 0, nth args 1 0, nth args 2 0, nth args 3 0, w64 ctx, w64 core] ++ List.replicate 25 0

/-- R350, R355, R379: a Ready context starts. -/
def startCtx (k c entry : Nat) (args : List Word) (starter : Nat) (h : Hub) : Hub :=
  let x := getCtx k c h
  let h1 := acquireDrops k 2 15 h
  putCtx k c { x with st := .running, pc := entry, regs := startRegs args c (coreUnit k h), starter := starter, startedAt := h.devTime,
                      tenant := fld x.bind 43 32, asid := fld x.bind 31 16, wait := none, fence := [], marks := [],
                      signals := [], ending := none, sawPoison := false } h1

/-- R353: a context stops: STOPPED, FENCED, WATCHDOG. -/
def stopCtx (k c code : Nat) (h : Hub) : Hub := ctxFault k c code 0 (getCtx k c h).pc 0 h

def cmdRefused (k : Nat) (h : Hub) : Hub := raise (corePage k) 16 h

/-- R363: CORE_CTX_CMD of the selected context. -/
def ctxCmd (k op : Nat) (h : Hub) : Hub :=
  let c := regFld (corePage k) 0x48 2 0 h
  let x := getCtx k c h
  let live := (x.st == .running || x.st == .waiting)
  if op = 1 then
    if x.st = .ready ∧ coreServes k h then startCtx k c x.entry x.args 0 h else cmdRefused k h
  else if op = 2 then
    if live && !isFaulting x then stopCtx k c fStopped h else cmdRefused k h
  else if op = 3 then
    if x.st = .faulted then putCtx k c { x with st := .ready, regs := List.replicate 31 0, pc := 0 } h else cmdRefused k h
  else h

/-- R351, R363: CORE_CTX_BIND of the selected context. -/
def ctxBind (k : Nat) (v : Word) (h : Hub) : Hub :=
  let c := regFld (corePage k) 0x48 2 0 h
  let x := getCtx k c h
  if x.st = .running ∨ x.st = .waiting then cmdRefused k h
  else
    let b := v &&& w64 (masks [(44, 16), (0, 0)])
    let st := if !bitOf v 0 then CtxState.free else if x.st = .free then .ready else x.st
    putCtx k c { x with bind := b, st := st } h

/-- Detail codes of a WORK frame's completion (R355). -/
def workNotReady : Nat := 1
def workDenied : Nat := 2
def workFenced : Nat := 3

/-- R355: a WORK frame at a logical core's unit: its status and detail. -/
def coreWork (k : Nat) (f : Frame) (h : Hub) : (Nat × Nat) × Hub :=
  let w := leAt f.payload 0 8
  let c := nbits w 2 0
  let x := getCtx k c h
  if f.payload.length ≠ 40 ∨ nbits w 15 3 ≠ 0 ∨ nbits w 30 29 ≠ 0 ∨ nbits w 63 32 ≠ 0 then ((stBadRequest, 0), h)
  else if !coreServes k h then ((stUnit, workFenced), h)
  else if !bitOf x.bind 44 || fld x.bind 43 32 != f.tenant then ((stUnit, workDenied), h)
  else if x.st ≠ .ready then ((stUnit, workNotReady), h)
  else
    let args := (List.range 4).map (fun j => w64 (leAt f.payload (8 + 8 * j) 8))
    let entry := if w.testBit 31 then nbits w 28 16 else x.entry
    ((stOk, 0), startCtx k c entry args (mkFld 9 0 f.srcModule + mkFld 17 10 f.srcUnit) h)

/-- R356: WATCHDOG. -/
def watchdog (k c : Nat) (h : Hub) : Hub :=
  let ms := regFld (corePage k) 0x44 31 16 h
  let x := getCtx k c h
  if ms ≠ 0 ∧ (x.st = .running ∨ x.st = .waiting) ∧ x.startedAt + msToNs ms < h.devTime then
    stopCtx k c fWatchdog h
  else h

end Sys2Proof.Machine
end

