-- ==== Sys2Proof/Machine/Vector.lean ====
section
/-!
DEFINITION. The vector engine (R340 to R344): what a VOP command writes, and how it faults.
-/
namespace Sys2Proof.Machine

/-- Fields of a V word (R346). -/
def vFunc (w : Word) : Nat := fld w 35 30
def vDfmt (w : Word) : Nat := fld w 29 26
def vSfmt (w : Word) : Nat := fld w 25 22
def vRm (w : Word) : Nat := fld w 21 20

/-- What a VOP command needs: bytes read at RA, at RB, at RD, and bytes written at RD and RB. -/
structure VecShape where
  readA : Nat
  readB : Nat
  readD : Nat
  writeD : Nat
  writeB : Nat
  deriving DecidableEq, Repr

/-- R340, R344: the regions of a command of L elements. -/
def vecShape (fn l sfmt dfmt : Nat) : VecShape :=
  if fn ≤ 2 ∨ fn = 4 ∨ fn = 5 then ⟨4 * l, 4 * l, 0, 4 * l, 0⟩
  else if fn = 3 then ⟨4 * l, 4 * l, 4 * l, 4 * l, 0⟩
  else if fn ≤ 0x0B then ⟨4 * l, 0, 0, 4 * l, 0⟩
  else if fn = 0x0C then ⟨fmtBytes sfmt l, 0, 0, fmtBytes dfmt l, 0⟩
  else if fn = 0x0D then ⟨4 * l, 0, 0, fmtBytes dfmt l, l / 32⟩
  else ⟨4 * l, 0, 0, 4, 0⟩

/-- R340, R342, R344, R347: is the command one the engine accepts? -/
def vecValid (w rc : Word) : Bool :=
  let fn := vFunc w
  let l := rc.toNat
  (decide (fn ≤ 0x0D) || fn == 0x10 || fn == 0x11) && decide (1 ≤ l ∧ l ≤ 2 ^ 20) &&
  (if fn = 0x0C then fmtBits (vDfmt w) != 0 && fmtBits (vSfmt w) != 0 && vRm w != 3
   else if fn = 0x0D then (mxEmax (vDfmt w)).isSome && l % 32 == 0 && vRm w != 3 else true)

/-- The rounding of element number i of a command. -/
def vecRounding (rm : Nat) (seed src : Word) (i : Nat) : Rounding :=
  if rm = 0 then .nearest else if rm = 1 then .zero else .random (mixRandom seed (src + w64 i))

/-- R342: CVT: packed bytes, NaNs lost, values drawn. -/
def cvtRow (w : Word) (l : Nat) (src : List Byte) (seed ctr : Word) : List Byte × Nat × Nat :=
  let sf := vSfmt w
  let df := vDfmt w
  let draws := roundsTo sf df && vRm w == 2
  let es := (List.range l).map (fun i =>
    convert df 0 (vecRounding (if draws then vRm w else vRm w % 2) seed ctr i) (elemVal sf 0 (elemBits sf src i)))
  (packElems df (es.map (·.1)), (es.filter (·.2)).length, if draws then l else 0)

/-- R344: floor of log2 of a positive magnitude. -/
def floorLog2 (m : Nat) (e : Int) : Int := (Nat.log2 m : Int) + e

/-- R344: the scale exponent of a group of 32. -/
def groupScale (emax : Nat) (g : List FVal) : Nat :=
  if g.any FVal.isNan then 0xFF
  else if g.any (fun v => match v with | .inf _ => true | _ => false) then 0xFE
  else
    let mags := g.filterMap (fun v => match v with | .fin _ m e => if m = 0 then none else some (floorLog2 m e) | _ => none)
    match mags with
    | [] => 0
    | x :: t =>
      let top := t.foldl max x
      (max 0 (min 0xFE (top - (emax : Int) + 127))).toNat

/-- R344: QUANT_MX: scale bytes, packed elements, NaNs lost, values drawn. -/
def quantRow (w : Word) (l : Nat) (src : List Byte) (seed ctr : Word) : List Byte × List Byte × Nat × Nat :=
  let df := vDfmt w
  let emax := (mxEmax df).getD 0
  let gs := (List.range (l / 32)).map (fun g =>
    let vs := (List.range 32).map (fun i => laneVal (laneAt src (32 * g + i)))
    let e := groupScale emax vs
    let es := (List.range 32).map (fun i =>
      let v := match nth vs i .nan with
        | .fin n m x => .fin n m (x + 127 - (e : Int))
        | o => o
      convert df (-6) (vecRounding (vRm w) seed ctr (32 * g + i)) v)
    (e, es))
  (gs.map (fun g => BitVec.ofNat 8 g.1), packElems df ((gs.map (fun g => g.2.map (·.1))).flatten),
   ((gs.map (fun g => (g.2.filter (·.2)).length)).sum), if vRm w = 2 then l else 0)

/-- What starting a command comes to: done, or a fault with its code, detail and address. -/
inductive EngResult
  | ok (h : Hub)
  | fault (code detail addr : Nat) (h : Hub)

/-- R340 to R344: a VOP command runs. Faults other than BAD_CMD, found at issue, are found here. -/
def vecRun (k : Nat) (e : EngCmd) (h0 : Hub) : EngResult :=
  let w := e.word
  let fn := vFunc w
  let l := e.rc.toNat
  let s := vecShape fn l (vSfmt w) (vDfmt w)
  let a := e.ra.toNat
  let b := e.rb.toNat
  let d := e.rd.toNat
  if !spFits a s.readA then .fault fSpRange 0 a h0
  else if (s.readB ≠ 0 ∨ s.writeB ≠ 0) ∧ !spFits b (max s.readB s.writeB) then .fault fSpRange 0 b h0
  else if !spFits d (max s.readD s.writeD) then .fault fSpRange 0 d h0
  else
    let h := meetSpReads k [(a, s.readA), (b, s.readB), (d, s.readD)] h0
    if spPoison k a s.readA h then .fault fPoison 2 a h
    else if s.readB ≠ 0 ∧ spPoison k b s.readB h then .fault fPoison 2 b h
    else if s.readD ≠ 0 ∧ spPoison k d s.readD h then .fault fPoison 2 d h
    else
      let x := getCtx k e.ctx h
      let as := spBytes k a s.readA h
      if fn ≤ 0x0B then
        let bs := spBytes k b s.readB h
        let ds := spBytes k d s.readD h
        let out := (List.range l).map (fun i =>
          bytesLE 4 (laneFn fn (laneAt as i) (laneAt bs i) (laneAt ds i) (BitVec.ofNat 32 e.rb.toNat)).toNat)
        .ok (spWrite k d out.flatten h)
      else if fn = 0x0C then
        let r := cvtRow w l as x.seed x.src
        .ok (count (corePage k) 11 r.2.1 (spWrite k d r.1 (putCtx k e.ctx { x with src := x.src + w64 r.2.2 } h)))
      else if fn = 0x0D then
        let r := quantRow w l as x.seed x.src
        .ok (count (corePage k) 11 r.2.2.1
          (spWrite k d r.2.1 (spWrite k b r.1 (putCtx k e.ctx { x with src := x.src + w64 r.2.2.2 } h))))
      else
        let xs := (List.range l).map (laneAt as)
        let v := if fn = 0x10 then reduceLanes (fun p q => laneOf p q ((laneVal p).add (laneVal q))) (some 0) xs
                 else reduceLanes (laneMax true) none xs
        .ok (spWrite k d (bytesLE 4 v.toNat) h)

end Sys2Proof.Machine
end

