-- ==== Sys2Proof/Machine/Matrix.lean ====
section
/-!
DEFINITION. The matrix engine (R335 to R339, R371): descriptors, format pairs, the fixed order of the sums, and the
retained operand.
-/
namespace Sys2Proof.Machine

/-- A matrix descriptor (R335). -/
structure MatDesc where
  aOff : Nat
  bOff : Nat
  cOff : Nat
  m : Nat
  n : Nat
  k : Nat
  aFmt : Nat
  bFmt : Nat
  mode : Nat
  aStride : Nat
  bStride : Nat
  cStride : Nat
  saOff : Nat
  sbOff : Nat
  aScaled : Bool
  bScaled : Bool
  deriving DecidableEq, Repr

def parseMat (bs : List Byte) : MatDesc :=
  let w i := leAt bs (8 * i) 8
  ⟨nbits (w 0) 20 0, nbits (w 0) 41 21, nbits (w 0) 62 42, nbits (w 1) 15 0, nbits (w 1) 31 16, nbits (w 1) 47 32,
   nbits (w 1) 51 48, nbits (w 1) 55 52, nbits (w 1) 57 56, nbits (w 2) 20 0, nbits (w 2) 41 21, nbits (w 2) 62 42,
   nbits (w 3) 20 0, nbits (w 3) 41 21, (w 3).testBit 62, (w 3).testBit 63⟩

/-- R336: FP6 or FP8. -/
def isF68 (f : Nat) : Bool := decide (2 ≤ f ∧ f ≤ 5)

/-- R336: a pair of formats the engine accepts, with its scaling. -/
def pairOk (d : MatDesc) : Bool :=
  let a := d.aFmt
  let b := d.bFmt
  (a == 1 && b == 1) || ((isF68 a || a == 1) && (isF68 b || b == 1) && (isF68 a || isF68 b)) || (a == 8 && b == 8) ||
  (((a == 6 && b == 6) || (a == 7 && b == 7)) && !d.aScaled && !d.bScaled)

/-- Bytes of a region of rows. -/
def regionLen (rows stride row : Nat) : Nat := (rows - 1) * stride + row

def aRow (d : MatDesc) : Nat := fmtBytes d.aFmt d.k
def bRow (d : MatDesc) : Nat := fmtBytes d.bFmt d.k
/-- R334: the scale row stride: elements of a row stride, divided by 32. -/
def scaleStride (fmt stride : Nat) : Nat := stride / (fmtBits fmt * 4)
def aLen (d : MatDesc) : Nat := regionLen d.m d.aStride (aRow d)
def bLen (d : MatDesc) : Nat := regionLen d.n d.bStride (bRow d)
def cLen (d : MatDesc) : Nat := regionLen d.m d.cStride (4 * d.n)
def saLen (d : MatDesc) : Nat := regionLen d.m (scaleStride d.aFmt d.aStride) (d.k / 32)
def sbLen (d : MatDesc) : Nat := regionLen d.n (scaleStride d.bFmt d.bStride) (d.k / 32)

/-- R335, R356: the word of a descriptor that breaks a rule. -/
def matBad (bs : List Byte) (d : MatDesc) : Option Nat :=
  if (leAt bs 0 8).testBit 63 then some 0
  else if nbits (leAt bs 8 8) 63 58 ≠ 0 ∨ d.m = 0 ∨ 4096 < d.m ∨ d.n = 0 ∨ 4096 < d.n ∨ d.k = 0 ∨ d.k % 32 ≠ 0 ∨ 65504 < d.k ∨
      2 ≤ d.mode ∨ !pairOk d then some 1
  else if (leAt bs 16 8).testBit 63 ∨ d.aStride < aRow d ∨ d.aStride % (fmtBits d.aFmt * 4) ≠ 0 ∨ d.bStride < bRow d ∨
      d.bStride % (fmtBits d.bFmt * 4) ≠ 0 ∨ d.cStride < 4 * d.n ∨ d.cStride % 4 ≠ 0 then some 2
  else if nbits (leAt bs 24 8) 61 42 ≠ 0 then some 3
  else none

/-- R335: C overlaps A, B or their scales. -/
def matOverlap (d : MatDesc) : Bool :=
  overlaps d.cOff (cLen d) d.aOff (aLen d) || overlaps d.cOff (cLen d) d.bOff (bLen d) ||
  (d.aScaled && overlaps d.cOff (cLen d) d.saOff (saLen d)) || (d.bScaled && overlaps d.cOff (cLen d) d.sbOff (sbLen d))

/-- R329: the first offset of a region outside the scratchpad. -/
def matRange (d : MatDesc) : Option Nat :=
  if !spFits d.aOff (aLen d) then some d.aOff
  else if !spFits d.bOff (bLen d) then some d.bOff
  else if !spFits d.cOff (cLen d) then some d.cOff
  else if d.aScaled && !spFits d.saOff (saLen d) then some d.saOff
  else if d.bScaled && !spFits d.sbOff (sbLen d) then some d.sbOff
  else none

/-- Rows of an operand, as they stand in the scratchpad. -/
def readRows (k off stride row n : Nat) (h : Hub) : List (List Byte) :=
  (List.range n).map (fun i => spBytes k (off + i * stride) row h)

/-- R371: does the retained copy serve this command? -/
def retainedFits (d : MatDesc) (r : Retained) : Bool :=
  r.boff == d.bOff && r.bstride == d.bStride && r.n == d.n && r.k == d.k && r.fmt == d.bFmt && r.scaled == d.bScaled && r.sboff == d.sbOff

/-- Rows of a region: offset and bytes of each. -/
def rowRegions (off stride row n : Nat) : List (Nat × Nat) := (List.range n).map (fun i => (off + i * stride, row))

/-- What an MMA reads; B and its scales only where no retained copy serves. -/
def matReads (d : MatDesc) (b : Bool) : List (Nat × Nat) :=
  rowRegions d.aOff d.aStride (aRow d) d.m ++
  (if d.aScaled then rowRegions d.saOff (scaleStride d.aFmt d.aStride) (d.k / 32) d.m else []) ++
  (if b then rowRegions d.bOff d.bStride (bRow d) d.n ++
    (if d.bScaled then rowRegions d.sbOff (scaleStride d.bFmt d.bStride) (d.k / 32) d.n else []) else []) ++
  (if d.mode = 1 then rowRegions d.cOff d.cStride (4 * d.n) d.m else [])

/-- R331: the rows of C are written; where they touch they make one region, so units across two rows lose their poison. -/
def writeC (k : Nat) (d : MatDesc) (rows : List (List Byte)) (h : Hub) : Hub :=
  let h1 := (List.range d.m).foldl (fun x i => spWrite k (d.cOff + i * d.cStride) (nth rows i []) x) h
  if d.cStride = 4 * d.n then clearPoison (unitsIn (scratchAddr k d.cOff) (cLen d)) h1 else h1

/-- R371: bytes of B and its scales. -/
def retainBytes (d : MatDesc) : Nat := d.n * bRow d + (if d.bScaled then d.n * (d.k / 32) else 0)

/-- R334, R337: the scale exponent of a group, 127 where not scaled; none for NaN. -/
def scaleExp (scaled : Bool) (row : List Byte) (g : Nat) : Option Nat :=
  if !scaled then some 127
  else
    let e := leAt row g 1
    if e = 0xFF then none else some e

/-- R337: s for one group: the exact sum of 32 products, scaled exactly. -/
def groupSum (d : MatDesc) (a b sa sb : List Byte) (g : Nat) : FVal :=
  let ia : Int := if d.aScaled then -6 else 0
  let ib : Int := if d.bScaled then -6 else 0
  let s := (List.range 32).foldl (fun acc t =>
    FVal.add acc ((elemVal d.aFmt ia (elemBits d.aFmt a (32 * g + t))).mul (elemVal d.bFmt ib (elemBits d.bFmt b (32 * g + t)))))
    (.fin true 0 0)
  match scaleExp d.aScaled sa g, scaleExp d.bScaled sb g with
  | some x, some y =>
    match s with
    | .fin n m e => .fin n m (e + (x : Int) + (y : Int) - 254)
    | o => o
  | _, _ => .nan

/-- R337: FP32 with round to nearest even, any NaN 0x7FC00000. -/
def rne32 (v : FVal) : Nat := fp32.encodeInf .nearestEven v

/-- R337: one element of C with FP32 accumulation. -/
def cellFloat (d : MatDesc) (a b sa sb : List Byte) (c0 : Nat) : Nat :=
  (List.range (d.k / 32)).foldl (fun acc g =>
    rne32 ((fp32.decode acc).add (fp32.decode (rne32 (groupSum d a b sa sb g))))) (if d.mode = 1 then c0 else 0)

def sat32 (v : Int) : Int := max (-(2 ^ 31 : Int)) (min (2 ^ 31 - 1) v)

/-- R337: one element of C with INT32 accumulation, and its saturations. -/
def cellInt (d : MatDesc) (a b : List Byte) (c0 : Nat) : Nat × Nat :=
  let r := (List.range (d.k / 32)).foldl (fun (acc : Int × Nat) g =>
    let s := (List.range 32).foldl (fun (x : Int) t =>
      x + sextNat 8 (elemBits 8 a (32 * g + t)) * sextNat 8 (elemBits 8 b (32 * g + t))) 0
    let v := acc.1 + s
    (sat32 v, if sat32 v = v then acc.2 else acc.2 + 1)) ((if d.mode = 1 then sextNat 32 c0 else 0), 0)
  (wrapInt 32 r.1, r.2)

/-- R336: C of this command is INT32. -/
def isIntMat (d : MatDesc) : Bool := d.aFmt == 8 && !d.aScaled && !d.bScaled

/-- R337: the whole of C, row by row, and the saturations. -/
def matRows (d : MatDesc) (as bs sas sbs cs : List (List Byte)) : List (List Byte) × Nat :=
  let cell i j :=
    let c0 := leAt (nth cs i []) (4 * j) 4
    if isIntMat d then cellInt d (nth as i []) (nth bs j []) c0
    else (cellFloat d (nth as i []) (nth bs j []) (nth sas i []) (nth sbs j []) c0, 0)
  let rows := (List.range d.m).map (fun i => (List.range d.n).map (fun j => cell i j))
  (rows.map (fun r => (r.map (fun c => bytesLE 4 c.1)).flatten), (rows.map (fun r => (r.map (·.2)).sum)).sum)

/-- R335 to R337, R371: an MMA command runs. -/
def matRun (k : Nat) (e : EngCmd) (h0 : Hub) : EngResult :=
  let at_ := e.ra.toNat
  if !spFits at_ 32 then .fault fSpRange 0 at_ h0
  else
    let hd := meetSpReads k [(at_, 32)] h0
    if spPoison k at_ 32 hd then .fault fPoison 1 at_ hd
    else
      let bytes := spBytes k at_ 32 hd
      let d := parseMat bytes
      match matBad bytes d with
      | some w => .fault fBadDesc w at_ hd
      | none =>
        match matRange d with
        | some o => .fault fSpRange 0 o hd
        | none =>
          if matOverlap d then .fault fBadDesc 0 at_ hd
          else
            let kept := match (getCore k hd).retained with | some r => if retainedFits d r then some r else none | none => none
            let h := meetSpReads k (matReads d kept.isNone) hd
            match (matReads d kept.isNone).find? (fun r => spPoison k r.1 r.2 h) with
            | some r => .fault fPoison 1 r.1 h
            | none =>
              let as := readRows k d.aOff d.aStride (aRow d) d.m h
              let sas := if d.aScaled then readRows k d.saOff (scaleStride d.aFmt d.aStride) (d.k / 32) d.m h else []
              let bs := match kept with | some r => r.rows | none => readRows k d.bOff d.bStride (bRow d) d.n h
              let sbs := match kept with
                | some r => r.scales
                | none => if d.bScaled then readRows k d.sbOff (scaleStride d.bFmt d.bStride) (d.k / 32) d.n h else []
              let cs := readRows k d.cOff d.cStride (4 * d.n) d.m h
              let r := matRows d as bs sas sbs cs
              let h1 := writeC k d r.1 h
              let c := getCore k h1
              let keep : Option Retained :=
                if retainBytes d ≤ 655360 then
                  some ⟨d.bOff, d.bStride, d.n, d.k, d.bFmt, d.bScaled, d.sbOff, bs, sbs⟩
                else none
              let h2 := putCore k { c with retained := keep, intSat := c.intSat || decide (r.2 ≠ 0) } h1
              .ok (count (corePage k) 10 r.2 h2)

end Sys2Proof.Machine
end

