-- ==== Sys2Proof/Machine/Dma.lean ====
section
/-!
DEFINITION. Engines' queues at work (R328, R367, R368) and the DMA engine (R348, R349, R372, R377).
-/
namespace Sys2Proof.Machine

/- ### Queues -/

/-- Replace a command of a queue by its number. -/
def putCmd (k : Nat) (q : EngineId) (e : EngCmd) (h : Hub) : Hub :=
  let c := getCore k h
  putCore k (setQueue q ((queueOf q c).map (fun x => if x.n = e.n then e else x)) c) h

/-- A command leaves its queue. -/
def dropCmd (k : Nat) (q : EngineId) (n : Nat) (h : Hub) : Hub :=
  let c := getCore k h
  putCore k (setQueue q ((queueOf q c).filter (fun x => x.n != n)) c) h

/-- The matrix or vector engine starts the command at its head; a command that faults stops and the next starts. -/
def runEngine (k : Nat) (q : EngineId) : Nat → Hub → Hub
  | 0, h => h
  | fuel + 1, h =>
    match queueOf q (getCore k h) with
    | [] => h
    | e :: _ =>
      if e.started then h
      else
        let r := match q with | .matrix => matRun k e h | _ => vecRun k e h
        match r with
        | .ok h1 => putCmd k q { e with started := true } h1
        | .fault code detail addr h1 => runEngine k q fuel (ctxFault k e.ctx code detail e.pc addr (dropCmd k q e.n h1))

/-- R328: a command enters an engine's queue; the matrix and vector engines start it when idle. -/
def queueCmd (k : Nat) (q : EngineId) (e : EngCmd) (h : Hub) : Hub :=
  let c := getCore k h
  let h1 := putCore k { setQueue q (queueOf q c ++ [{ e with n := c.nextCmd }]) c with nextCmd := c.nextCmd + 1 } h
  if q = .matrix ∨ q = .vector then runEngine k q 10 h1 else h1

/-- R367, R368: the command at the head finishes and the next one starts. -/
def engineFinish (k : Nat) (q : EngineId) (h : Hub) : Hub :=
  match queueOf q (getCore k h) with
  | [] => h
  | e :: _ =>
    if e.started && e.waits == 0 && e.todo == [] then
      let h1 := settleCtx k e.ctx (dropCmd k q e.n h)
      if q = .matrix ∨ q = .vector then runEngine k q 10 h1 else h1
    else h

/- ### Descriptors -/

/-- R348. -/
structure DmaDesc where
  kind : Nat
  gsa : Bool
  tc : Nat
  module : Nat
  rows : Nat
  len : Nat
  addr : Nat
  sp : Nat
  spStride : Nat
  operand : Nat
  deriving DecidableEq, Repr

def parseDma (bs : List Byte) : DmaDesc :=
  let w i := leAt bs (8 * i) 8
  let gsa := (w 0).testBit 59
  let kind := nbits (w 0) 63 60
  let addr := nbits (w 1) 56 0
  { kind := kind, gsa := gsa, tc := nbits (w 0) 58 56,
    module := if gsa || kind == 4 || kind == 5 then nbits addr 55 46 else nbits (w 0) 55 46,
    rows := max 1 (nbits (w 0) 45 32), len := nbits (w 0) 31 0, addr := addr, sp := nbits (w 2) 20 0,
    spStride := nbits (w 2) 63 32, operand := w 3 }

/-- R348, R356: the word of a descriptor that breaks a rule. -/
def dmaBad (bs : List Byte) (d : DmaDesc) : Option Nat :=
  if d.kind = 0 ∨ 5 < d.kind then some 0
  else if (d.kind = 1 ∨ d.kind = 2) ∧ (d.len = 0 ∨ 2 ^ 24 < d.len) then some 0
  else if nbits (leAt bs 8 8) 63 57 ≠ 0 then some 1
  else if nbits (leAt bs 16 8) 31 21 ≠ 0 then some 2
  else none

/-- R349: one row cut at 4,096-byte boundaries of the store address. -/
def cutRow : Nat → Nat → Nat → Nat → List (Nat × Nat × Nat)
  | 0, _, _, _ => []
  | fuel + 1, a, sp, n =>
    if n = 0 then []
    else
      let k := min n (4096 - a % 4096)
      (a, sp, k) :: cutRow fuel (a + k) (sp + k) (n - k)

/-- R349: every request of an IN or OUT descriptor. -/
def dmaPieces (d : DmaDesc) : List (Nat × Nat × Nat) :=
  ((List.range d.rows).map (fun i =>
    cutRow (d.len / 4096 + 2) (d.addr + i * nbits d.operand 31 0) (d.sp + i * d.spStride) d.len)).flatten

/-- R329: every row lies inside the scratchpad. -/
def dmaFits (d : DmaDesc) : Bool := spFits (d.sp + (d.rows - 1) * d.spStride) d.len

def dmaAsid (d : DmaDesc) (x : Ctx) : Nat := if d.gsa then 0xFFFF else x.asid

def dmaQueue (q : Nat) : EngineId := if q = 0 then .dma0 else .dma1

/- ### Line buffers (R372) -/

def bufOf (q : Nat) (c : Core) : List BufLine := if q = 0 then c.buf0 else c.buf1
def setBuf (q : Nat) (b : List BufLine) (c : Core) : Core := if q = 0 then { c with buf0 := b } else { c with buf1 := b }

def bufTag (d : DmaDesc) (x : Ctx) (a : Nat) (b : BufLine) : Bool :=
  b.tenant == x.tenant && b.asid == dmaAsid d x && b.gsa == d.gsa && b.module == d.module && b.addr == a

/-- R372: the data of a request all of whose lines are buffered. -/
def bufServe (k q : Nat) (d : DmaDesc) (x : Ctx) (a n : Nat) (h : Hub) : Option (List Byte) :=
  let b := bufOf q (getCore k h)
  let ls := linesOf a n
  if ls.all (fun l => b.any (fun y => bufTag d x (128 * l) y && decide (h.devTime < y.filled + 100000))) then
    some (sliceBytes ((ls.map (fun l => match b.find? (bufTag d x (128 * l)) with | some y => y.data | none => [])).flatten) (a % 128) n)
  else none

/-- R372: the buffered lines that served a request are the most recently used. -/
def bufTouch (k q : Nat) (d : DmaDesc) (x : Ctx) (a n : Nat) (h : Hub) : Hub :=
  let c := getCore k h
  let used (y : BufLine) : Bool := (linesOf a n).any (fun l => bufTag d x (128 * l) y)
  putCore k (setBuf q ((bufOf q c).filter (fun y => !used y) ++ (bufOf q c).filter used) c) h

/-- R372: the lines a request read whole are kept, least recently used leaving first. -/
def bufFill (k q : Nat) (d : DmaDesc) (x : Ctx) (a : Nat) (bs : List Byte) (h : Hub) : Hub :=
  let c := getCore k h
  let ls := (linesOf a bs.length).filter (fun l => decide (a ≤ 128 * l ∧ 128 * l + 128 ≤ a + bs.length))
  let b := ls.foldl (fun (b : List BufLine) l =>
    b.filter (fun y => !bufTag d x (128 * l) y) ++
      [⟨x.tenant, dmaAsid d x, d.gsa, d.module, 128 * l, sliceBytes bs (128 * l - a) 128, h.devTime⟩]) (bufOf q c)
  putCore k (setBuf q (b.drop (b.length - 512)) c) h

/-- R372: an OUT or ATOMIC of the core writes bytes a to a+n−1: buffered lines of them go, in both buffers. -/
def bufDrop (k : Nat) (d : DmaDesc) (x : Ctx) (a n : Nat) (h : Hub) : Hub :=
  let c := getCore k h
  let keep (b : BufLine) : Bool := !((linesOf a n).any (fun l => bufTag d x (128 * l) b))
  putCore k { c with buf0 := c.buf0.filter keep, buf1 := c.buf1.filter keep } h

/-- R372: lines 100 us old. -/
def bufExpire (k q : Nat) (h : Hub) : Hub :=
  let c := getCore k h
  putCore k (setBuf q ((bufOf q c).filter (fun b => decide (h.devTime < b.filled + 100000))) c) h

/- ### Requests to this module's store (R320, R349) -/

/-- R320: the issuer of a core's DMA: the owner of its page. -/
def coreIssuer (k : Nat) (h : Hub) : Issuer :=
  let o := getReg (corePage k) 0x38 h
  let m := fld o 1 0
  if m = 1 then .ld (fld o 2 2) (fld o 7 4)
  else if m = 2 then .agent (fld o 17 8) (fld o 25 18)
  else .trusted

/-- Fault code and detail for a completion status (R349). -/
def dmaFaultOf (status detail : Nat) : Nat × Nat :=
  if status = stXlateFault then (fXlate, detail) else if status = stTargetDead then (fTargetDead, 0) else (fRefused, status)

/-- R360: a window of a logical core that is not in service. -/
def windowFenced (off : Nat) (h : Hub) : Bool :=
  decide (windowBase ≤ off) && (getCore ((off - windowBase) / 0x200000) h).st != .inService

/-- A local read of one request: bytes and poison, or a fault. -/
def localRead (k : Nat) (x : Ctx) (asid a n : Nat) (h : Hub) : Except (Nat × Nat) (List Byte × Bool) × Hub :=
  match xlateNow false 1 k x.tenant asid a n opRead (if asid = 0xFFFF then h else track (moduleId h) k x.tenant asid a h) with
  | (.error c, h1) => (.error (fXlate, c), h1)
  | (.ok ps, h1) =>
    if ps.any (fun p => windowFenced p.1 h1) then (.error (fRefused, stUnit), h1)
    else
      let r := ps.foldl (fun (acc : (List Byte × Bool) × Hub) p =>
        let y := tenantRead x.tenant p.1 p.2 acc.2
        ((acc.1.1 ++ y.1.1, acc.1.2 || y.1.2), y.2)) (([], false), h1)
      (.ok r.1, r.2)

/-- A local write of one request. -/
def localWrite (k : Nat) (x : Ctx) (asid a : Nat) (bs : List Byte) (poison : Bool) (h : Hub) : Except (Nat × Nat) Unit × Hub :=
  match xlateNow false 1 k x.tenant asid a bs.length opWrite (if asid = 0xFFFF then h else track (moduleId h) k x.tenant asid a h) with
  | (.error c, h1) => (.error (fXlate, c), h1)
  | (.ok ps, h1) =>
    if ps.any (fun p => windowFenced p.1 h1) then (.error (fRefused, stUnit), h1)
    else if ps.any (fun p => leaseDenies (coreIssuer k h1) p.1 p.2 h1) then (.error (fRefused, stDenied), count 0x60 5 1 h1)
    else
      let r := ps.foldl (fun (acc : (Bool × List Byte) × Hub) p =>
        if acc.1.1 then acc
        else
          match tenantWrite x.tenant p.1 (acc.1.2.take p.2) poison acc.2 with
          | some h2 => ((false, acc.1.2.drop p.2), h2)
          | none => ((true, []), poolFull acc.2)) ((false, bs), h1)
      (if r.1.1 then .error (fRefused, stPoolFull) else .ok (), r.2)

/-- R309: an atomic by a unit of this module: old value and poison, or POOL_FULL. -/
def engAtomic (off n op a b owner : Nat) (h : Hub) : Option ((Nat × Bool) × Hub) :=
  (ensureUpper (tileOf off) owner (meterAdd owner 2 1 h)).map (fun h1 =>
    let h2 := takeLines [lineOf off] (meetInjection off n h1)
    let h3 := countSlice (lineOf off) 3 1 (setT0 (lineOf off) .dirty (openSeal (tileOf off) h2))
    if anyPoison off n h3 then ((0, true), h3)
    else
      let old := ofBytesLE (memGetN h3.mem off n)
      ((old, false), memWrite off (bytesLE n (atomicResult op n old a b)) false (touchTile (tileOf off) h3)))

/- ### IN, OUT and ATOMIC -/

/-- What the head of a DMA queue is: nothing to do, a fault, or a descriptor of the wanted kind. -/
inductive DmaHead
  | none
  | fault (e : EngCmd) (code detail addr : Nat)
  | desc (e : EngCmd) (d : DmaDesc)

/-- R377: is a publishing command held by a mark? -/
def markHoldsDma (e : EngCmd) (here : Bool) (c : Core) : Bool :=
  e.marks.any (fun m => (m.scope == 2 || (m.scope == 1 && here)) && m.cmds.any (fun n => unfinished c n))

/-- R348, R369, R377: the descriptor at the head of a queue, read now, if it is of this kind and not held. -/
def dmaHead (k q kind : Nat) (h : Hub) : DmaHead :=
  let c := getCore k h
  match queueOf (dmaQueue q) c with
  | [] => .none
  | e :: _ =>
    let a := e.ra.toNat
    if e.started then .none
    else if !spFits a 32 then .fault e fSpRange 0 a
    else if spPoison k a 32 h then .fault e fPoison 0 a
    else
      let bs := spBytes k a 32 h
      let d := parseDma bs
      match dmaBad bs d with
      | some w => .fault e fBadDesc w a
      | Option.none =>
        if d.kind ≠ kind then .none
        else if kind ≠ 1 && markHoldsDma e (d.module == moduleId h) c then .none
        else .desc e d

/-- R563: the read of the descriptor at a queue's head meets a pending injection. -/
def dmaLook (k q : Nat) (h : Hub) : Hub :=
  match queueOf (dmaQueue q) (getCore k h) with
  | e :: _ => if e.started || !spFits e.ra.toNat 32 then h else meetSpReads k [(e.ra.toNat, 32)] h
  | [] => h

/-- A DMA command stops with a fault of its context. -/
def dmaFault (k q : Nat) (e : EngCmd) (code detail addr : Nat) (h : Hub) : Hub :=
  ctxFault k e.ctx code detail e.pc addr (dropCmd k (dmaQueue q) e.n h)

/-- The frame of one request. -/
def dmaFrame (k : Nat) (d : DmaDesc) (x : Ctx) (opcode a n aux op0 op1 : Nat) (data : List Byte) (poison : Bool) : Frame :=
  { dstModule := d.module, dstUnit := 0x80, srcUnit := k, opcode := opcode, tc := d.tc, tenant := x.tenant,
    asid := dmaAsid d x, addr := a, len := n, aux := aux, operand0 := op0, operand1 := op1, payload := data, poison := poison }

/-- R349: send requests of a started command to another module while fewer than 64 are outstanding. -/
def dmaPump (k q : Nat) (d : DmaDesc) : Nat → EngCmd → Hub → Hub
  | 0, e, h => putCmd k (dmaQueue q) e h
  | fuel + 1, e, h0 =>
    match e.todo with
    | [] => putCmd k (dmaQueue q) e h0
    | (a, sp, n) :: rest =>
      if 64 ≤ e.waits then putCmd k (dmaQueue q) e h0
      else
        let h := if d.kind = 2 then meetSpReads k [(sp, n)] h0 else h0
        let x := getCtx k e.ctx h
        let data := if d.kind = 2 then spBytes k sp n h else []
        let f := dmaFrame k d x (if d.kind = 2 then 2 else 1) a n 0 0 0 data (d.kind == 2 && spPoison k sp n h)
        match issueRemote f (.dma k e.ctx q e.n sp n) h with
        | .ok h1 => dmaPump k q d fuel { e with todo := rest, waits := e.waits + 1 } h1
        | .error s =>
          let e1 := { e with todo := [] }
          ctxFault k e.ctx (dmaFaultOf s 0).1 (dmaFaultOf s 0).2 e.pc a (putCmd k (dmaQueue q) e1 h)

/-- R396: a DMA read of a context's run returned poison. -/
def notePoison (p : Bool) (k c : Nat) (h : Hub) : Hub := if p then putCtx k c { getCtx k c h with sawPoison := true } h else h

/-- R349, R372: the requests of an IN command on this module's store, in order, until one fails. -/
def dmaInLocal (k c q : Nat) (d : DmaDesc) (x : Ctx) : List (Nat × Nat × Nat) → Hub → Except (Nat × Nat × Nat) Unit × Hub
  | [], h => (.ok (), h)
  | (a, sp, n) :: rest, h =>
    match bufServe k q d x a n h with
    | some bs => dmaInLocal k c q d x rest (spStore (scratchAddr k sp) bs false (bufTouch k q d x a n h))
    | none =>
      match localRead k x (dmaAsid d x) a n h with
      | (.error (v, t), h1) => (.error (v, t, a), h1)
      | (.ok (bs, p), h1) =>
        let h2 := notePoison p k c (spStore (scratchAddr k sp) bs p h1)
        let isStore := match findLeaf x.tenant (dmaAsid d x) a h2 with
          | some e => decide (mkFld 45 12 (nbits e.entry 45 12) < windowBase)
          | none => decide (nbits a 45 0 < windowBase)
        dmaInLocal k c q d x rest (if p || !isStore then h2 else bufFill k q d x a bs h2)

def dmaOutLocal (k : Nat) (d : DmaDesc) (x : Ctx) : List (Nat × Nat × Nat) → Hub → Except (Nat × Nat × Nat) Unit × Hub
  | [], h => (.ok (), h)
  | (a, sp, n) :: rest, h0 =>
    let h := meetSpReads k [(sp, n)] h0
    match localWrite k x (dmaAsid d x) a (spBytes k sp n h) (spPoison k sp n h) (bufDrop k d x a n h) with
    | (.error (c, t), h1) => (.error (c, t, a), h1)
    | (.ok _, h1) => dmaOutLocal k d x rest h1

/-- R349: an IN or OUT descriptor at its queue's head. -/
def dmaMove (k q kind : Nat) (h1 : Hub) : Hub :=
  let h := dmaLook k q h1
  match dmaHead k q kind h with
  | .none => h1
  | .fault e c t a => dmaFault k q e c t a h
  | .desc e d =>
    if !dmaFits d then dmaFault k q e fSpRange 0 d.sp h
    else
      let x := getCtx k e.ctx h
      let ps := dmaPieces d
      let h0 := countKib (corePage k) (if kind = 1 then 3 else 4) (d.rows * d.len) h
      if d.module = moduleId h then
        let r := if kind = 1 then dmaInLocal k e.ctx q d x ps h0 else dmaOutLocal k d x ps h0
        match r.1 with
        | .error (c, t, a) => dmaFault k q e c t a r.2
        | .ok _ => putCmd k (dmaQueue q) { e with started := true } r.2
      else
        let go := ps.foldl (fun (acc : List (Nat × Nat × Nat) × Hub) p =>
          if kind = 1 then
            match bufServe k q d x p.1 p.2.2 acc.2 with
            | some bs => (acc.1, spStore (scratchAddr k p.2.1) bs false (bufTouch k q d x p.1 p.2.2 acc.2))
            | none => (acc.1 ++ [p], acc.2)
          else (acc.1 ++ [p], bufDrop k d x p.1 p.2.2 acc.2)) ([], h0)
        dmaPump k q d 65 { e with started := true, todo := go.1 } go.2

/-- R348, R349: an ATOMIC descriptor at its queue's head. -/
def dmaAtomic (k q : Nat) (h9 : Hub) : Hub :=
  let h := dmaLook k q h9
  match dmaHead k q 3 h with
  | .none => h9
  | .fault e c t a => dmaFault k q e c t a h
  | .desc e d =>
    let x := getCtx k e.ctx h
    let aux := nbits d.len 15 0
    let n := if aux.testBit 8 then 8 else 4
    let ret := atomicReturns aux
    let op1 := spNum k (d.sp + 8) 8 h
    if !spFits d.sp 16 then dmaFault k q e fSpRange 0 d.sp h
    else
      let f := dmaFrame k d x 4 d.addr 0 aux d.operand op1 [] false
      let h1 := bufDrop k d x d.addr n h
      if d.module = moduleId h then
        if !formOk f then dmaFault k q e fRefused stBadRequest d.addr h1
        else
          match xlateNow false 1 k x.tenant (dmaAsid d x) d.addr n (opOf f) h1 with
          | (.error c, h2) => dmaFault k q e fXlate c d.addr h2
          | (.ok ps, h2) =>
            let off := match ps with | (o, _) :: _ => o | [] => 0
            if leaseDenies (coreIssuer k h2) off n h2 then dmaFault k q e fRefused stDenied d.addr (count 0x60 5 1 h2)
            else
              match engAtomic off n (nbits aux 7 0) d.operand op1 x.tenant h2 with
              | none => dmaFault k q e fRefused stPoolFull d.addr (poolFull h2)
              | some ((old, p), h3) =>
                let bs := if p then poisonPattern n else bytesLE n old
                putCmd k (dmaQueue q) { e with started := true } (if ret then spStore (scratchAddr k d.sp) bs p h3 else h3)
      else
        match issueRemote f (.dmaAtomic k e.ctx q e.n d.sp (if ret then n else 0)) h1 with
        | .ok h2 => putCmd k (dmaQueue q) { e with started := true, waits := 1 } h2
        | .error s => dmaFault k q e (dmaFaultOf s 0).1 (dmaFaultOf s 0).2 d.addr h1

/-- R349, R353: the completion of one request of command n on queue q: the bytes it brings, its status and poison. -/
def dmaComplete (k c q n sp bytes : Nat) (status detail : Nat) (poison : Bool) (data : List Byte) (o : Frame) (h : Hub) : Hub :=
  match (queueOf (dmaQueue q) (getCore k h)).find? (fun e => e.n == n) with
  | none => h
  | some e =>
    let x := getCtx k c h
    let e1 := { e with waits := e.waits - 1 }
    if isFaulting x then
      putCmd k (dmaQueue q) { e1 with todo := [] } h
    else if status = stOk ∨ status = stPoisoned then
      let d := parseDma (spBytes k e.ra.toNat 32 h)
      let h0 := notePoison (poison && o.opcode == 1) k c h
      let h1 := if data = [] ∨ bytes = 0 then h0 else spStore (scratchAddr k sp) (sliceBytes data 0 bytes) poison h0
      let h2 := if o.opcode = 1 ∧ !poison then bufFill k q d x o.addr data h1 else h1
      dmaPump k q d 65 e1 h2
    else
      ctxFault k c (dmaFaultOf status detail).1 (dmaFaultOf status detail).2 e.pc o.addr (putCmd k (dmaQueue q) { e1 with todo := [] } h)

end Sys2Proof.Machine
end

