-- ==== Sys2Proof/Machine/Cursor.lean ====
section
/-!
DEFINITION. The Cursor Engine (R212 to R232, R237 to R244) and the optimiser apply it starts (R387, R402 to R406).
-/
namespace Sys2Proof.Machine

def curPage : Nat := 0xB0

def getCursor (c : Nat) (h : Hub) : Cursor := Tab.getD h.cur.cursors c {}
def putCursor (c : Nat) (v : Cursor) (h : Hub) : Hub := { h with cur := { h.cur with cursors := Tab.set h.cur.cursors c v } }
def setRuns (rs : List DrawerRun) (h : Hub) : Hub := { h with cur := { h.cur with runs := rs } }

def Cursor.m (c : Cursor) : Nat := fld c.defn 15 0 + 1
def Cursor.tenant (c : Cursor) : Nat := fld c.defn 43 32

/- ### Positions (R213, R220) -/

/-- R213: b − a in positions; none: unordered. -/
def posDist (aStep aPos bStep bPos m : Nat) : Option Int :=
  let d := (bStep + 2 ^ 32 - aStep % 2 ^ 32) % 2 ^ 32
  if d = 2 ^ 31 then none else some (sextNat 32 d * (m : Int) + (bPos : Int) - (aPos : Int))

/-- A position k positions from (step, pos): R220 for k < 0, R224 for k > 0. -/
def posMove (step pos : Nat) (k : Int) (m : Nat) : Nat × Nat :=
  let t := (pos : Int) + k
  (wrapInt 32 ((step : Int) + t.fdiv (m : Int)), (t.fmod (m : Int)).toNat)

/- ### Drawers as written (R218) -/

def Drawer.step (d : Drawer) : Nat := fld d.w0 63 32
def Drawer.pos (d : Drawer) : Nat := fld d.w0 31 16
def Drawer.lead (d : Drawer) : Nat := fld d.w0 15 0
def Drawer.cursor (d : Drawer) : Nat := fld d.w1 63 58
def Drawer.kind (d : Drawer) : Nat := fld d.w1 57 54
def Drawer.isRepeat (d : Drawer) : Bool := bitOf d.w1 53
def Drawer.drop (d : Drawer) : Bool := bitOf d.w1 52
def Drawer.prewalk (d : Drawer) : Bool := bitOf d.w1 51
def Drawer.holdLen (d : Drawer) : Nat := fld d.w1 47 32
def Drawer.count (d : Drawer) : Nat := max 1 (fld d.w1 31 16)
def Drawer.tile (d : Drawer) : Nat := fld d.w2 28 0

/-- The bits of R218 that are reserved for a kind. -/
def drawerReserved (d : Drawer) : Bool :=
  fld d.w1 50 48 != 0 || fld d.w1 13 0 != 0 ||
  (if d.kind = 4 then fld d.w2 63 56 != 0
   else fld d.w2 63 29 != 0 || (if d.kind = 1 ∧ d.prewalk then fld d.w3 63 57 != 0 else d.w3 != 0))

/-- R221. -/
def drawerBad (d : Drawer) (h : Hub) : Bool :=
  let c := getCursor d.cursor h
  d.kind == 0 || decide (5 < d.kind) || c.st == .free || decide (fld c.defn 15 0 < d.pos) ||
  (d.kind != 4 && decide (2 ^ 29 < d.tile + d.count)) || (d.kind != 1 && (d.holdLen != 0 || d.prewalk)) || drawerReserved d

/-- R231: work issued and not complete. -/
def drawerBusy (i : Nat) (h : Hub) : Bool := h.cur.runs.any (fun r => r.drawer == i && !r.deleted && r.doneAt.isNone)

/- ### Reports (R225, R242) -/

def repDone : Nat := 1
def repLate : Nat := 2
def repDoneLate : Nat := 3
def repSkipped : Nat := 4

/-- R242: a report into the FIFO of 64, with its events and counters. -/
def report (status drawer cursor step reason : Nat) (slack : Int) (notReady refused : Nat) (h : Hub) : Hub :=
  let h0 := if status = repLate then count curPage 4 1 h else h
  if 64 ≤ h0.cur.reports.length then raise curPage 19 h0
  else
    let r : DrawerReport := ⟨w64 (mkFld 63 60 status + mkFld 59 48 drawer + mkFld 47 42 cursor + mkFld 41 10 step + mkFld 9 6 reason),
      w64 (mkFld 63 32 (wrapInt 32 slack) + mkFld 31 16 (min notReady 0xFFFF) + mkFld 15 0 (min refused 0xFFFF))⟩
    let h1 := raiseEvent curPage 0 { h0 with cur := { h0.cur with reports := h0.cur.reports ++ [r] } }
    if status = repLate then raiseEvent curPage 1 h1 else h1

/-- Whole us from a to b, rounded down (log entry 18). -/
def slackUs (a b : Nat) : Int := ((b : Int) - (a : Int)).fdiv 1000

def incomplete (r : DrawerRun) : Nat := if r.kind = 4 then 1 else r.todo.length + r.wait.length

/-- R225: the due report of one firing; none: it is over. -/
def dueReport (r : DrawerRun) (h : Hub) : Option DrawerRun × Hub :=
  match r.doneAt with
  | some t =>
    (none, if r.refused ≠ 0 ∨ regBit curPage 0x40 16 h then
      report repDone r.drawer r.cursor r.dueStep r.reason (slackUs t h.devTime) 0 r.refused h else h)
  | none =>
    (some { r with lateAt := some h.devTime }, report repLate r.drawer r.cursor r.dueStep r.reason 0 (incomplete r) r.refused h)

/-- R225, R229: the due reports of a cursor at its position. -/
def dueReports (c step pos : Nat) (h : Hub) : Hub :=
  let m := (getCursor c h).m
  let isDue (r : DrawerRun) : Bool :=
    r.cursor == c && !r.deleted && r.lateAt.isNone &&
    (match posDist r.dueStep r.duePos step pos m with | some d => decide (0 ≤ d) | none => false)
  h.cur.runs.foldl (fun (x : Hub) r =>
    if isDue r then
      let y := dueReport r x
      match y.1 with
      | some r1 => setRuns (y.2.cur.runs ++ [r1]) y.2
      | none => y.2
    else setRuns (x.cur.runs ++ [r]) x) (setRuns [] h)

/- ### Holds (R224) -/

def dropHold (t : Nat) (h : Hub) : Hub := putTile t { getTile t h with holds := (getTile t h).holds - 1 } h

/-- The holds that satisfy p end. -/
def endHolds (p : HoldRec → Bool) (h : Hub) : Hub :=
  (h.cur.holds.filter p).foldl (fun x r => dropHold r.tile x)
    { h with cur := { h.cur with holds := h.cur.holds.filter (fun r => !p r) } }

/- ### Tile work (R219, R222, R223) -/

/-- What one tile of a firing comes to. -/
inductive TileWork
  | done (h : Hub)
  | refused (reason : Nat) (h : Hub)
  | wait (h : Hub)

/-- R186: a hold on a tile: 0 placed, else the reason it is refused. -/
def placeHold (r : DrawerRun) (t : Nat) (h : Hub) : Nat × Hub :=
  let v := getTile t h
  if v.holds = 255 then (8, h)
  else if lockRefused t h then (1, h)
  else (0, putTile t { v with holds := v.holds + 1 }
    { h with cur := { h.cur with holds := h.cur.holds ++ [⟨r.drawer, r.cursor, t, r.relStep, r.relPos⟩] } })

/-- The hold of this firing on a tile goes again. -/
def undoHold (r : DrawerRun) (t : Nat) (h : Hub) : Hub :=
  let me : HoldRec := ⟨r.drawer, r.cursor, t, r.relStep, r.relPos⟩
  if h.cur.holds.contains me then dropHold t { h with cur := { h.cur with holds := h.cur.holds.erase me } } else h

/-- R179: a drawer's promotion of a tile. -/
def drawerPromote (t : Nat) (h : Hub) : Option Hub := (promoteStart t h).map (count curPage 6 1)

/-- R219, R223: a tile of a firing; `first`: it has not been begun. -/
def drawerTile (r : DrawerRun) (first : Bool) (t : Nat) (h : Hub) : TileWork :=
  let v := getTile t h
  let gone := v.st == .free || v.st == .void
  if gone && (r.kind == 1 || r.kind == 2) then .refused 4 h
  else if gone then .done h
  else if r.tenant != 0 && v.owner != r.tenant then .refused 3 h
  else if r.kind = 1 ∨ r.kind = 2 then
    let p := if r.kind = 1 && first then placeHold r t h else (0, h)
    if p.1 = 1 then .refused 1 p.2
    else
      match v.st with
      | .lower =>
        match drawerPromote t p.2 with
        | some h1 => if p.1 = 8 then .refused 8 h1 else .wait h1
        | none => .refused (if p.1 = 8 then 8 else 2) (undoHold r t (poolFull p.2))
      | .promoting | .demoting | .freeing => if p.1 = 8 then .refused 8 p.2 else .wait p.2
      | .upper | .clean | .free | .void => if p.1 = 8 then .refused 8 p.2 else .done p.2
  else if first && (0 < v.pins || 0 < v.holds) then .refused 5 h
  else if r.kind = 3 then
    match v.st with
    | .clean => .done (dropToLower t h)
    | .upper => match demoteStart t false .evict h with | some h1 => .wait h1 | none => .refused 6 (t2Full h)
    | .promoting | .demoting | .freeing => .wait h
    | .lower | .free | .void => .done h
  else
    match v.st with
    | .upper => match demoteStart t false .stay h with | some h1 => .wait h1 | none => .refused 6 (t2Full h)
    | .promoting | .demoting | .freeing => .wait h
    | .clean | .lower | .free | .void => .done h

def refuseTile (reason : Nat) (r : DrawerRun) : DrawerRun :=
  { r with refused := r.refused + 1, reason := if r.reason = 0 then reason else r.reason }

/-- Tiles begun earlier are looked at again. -/
def pollTiles : List Nat → DrawerRun → Hub → DrawerRun × Hub
  | [], r, h => (r, h)
  | t :: ts, r, h =>
    match drawerTile r false t h with
    | .done h1 => pollTiles ts r h1
    | .refused c h1 => pollTiles ts (refuseTile c r) (count curPage 7 1 h1)
    | .wait h1 => pollTiles ts { r with wait := r.wait ++ [t] } h1

/-- New tiles are begun while `room` operations are left. -/
def beginTiles : List Nat → Nat → DrawerRun → Hub → DrawerRun × Hub
  | [], _, r, h => (r, h)
  | ts, 0, r, h => ({ r with todo := ts }, h)
  | t :: ts, room + 1, r, h =>
    match drawerTile r true t h with
    | .done h1 => beginTiles ts (room + 1) r h1
    | .refused c h1 => beginTiles ts (room + 1) (refuseTile c r) (count curPage 7 1 h1)
    | .wait h1 => beginTiles ts room { r with wait := r.wait ++ [t] } h1

/-- R222: the work of every firing goes on, in firing order, within INFLIGHT. -/
def cursorPump (h : Hub) : Hub :=
  let polled := h.cur.runs.foldl (fun (x : Hub) r =>
    let y := pollTiles r.wait { r with wait := [] } x
    setRuns (y.2.cur.runs ++ [y.1]) y.2) (setRuns [] h)
  polled.cur.runs.foldl (fun (x : Hub) r =>
    let busy := (x.cur.runs.map (fun q => q.wait.length)).sum + r.wait.length
    let room := max 1 (regFld curPage 0x40 31 24 h) - busy
    let y := if !r.todo.isEmpty && decide (0 < room) then beginTiles r.todo room { r with todo := [] } x else (r, x)
    setRuns (y.2.cur.runs ++ [y.1]) y.2) (setRuns [] polled)

/- ### Optimiser apply (R402 to R406) -/

def descWord (bs : List Byte) (i : Nat) : Nat := leAt bs (8 * i) 8

/-- R402: the fields of the descriptor. -/
structure OptDesc where
  kind : Nat
  wFmt : Nat
  momFmt : Nat
  sr : Bool
  coreFirst : Nat
  coreCount : Nat
  ctx : Nat
  n : Nat
  cpl : Nat
  step0 : Nat
  seed : Word
  deriving DecidableEq, Repr

def parseOpt (bs : List Byte) : OptDesc :=
  let w := descWord bs 0
  { kind := nbits w 3 0, wFmt := nbits w 7 4, momFmt := nbits w 11 8, sr := w.testBit 12, coreFirst := nbits w 22 16,
    coreCount := nbits w 30 23, ctx := nbits w 34 32, n := nbits (descWord bs 1) 47 0, cpl := descWord bs 7,
    step0 := nbits (descWord bs 11) 31 0, seed := w64 (descWord bs 12) }

/-- R402, R603: the logical cores a descriptor may name. -/
def pairCores (h : Hub) : Nat := if pairJoined h then 128 else 64

/-- R402, R403: does a descriptor break a rule? -/
def optBad (bs : List Byte) (h : Hub) : Bool :=
  let w := descWord bs 0
  let d := parseOpt bs
  let addrOk (i align : Nat) : Bool :=
    let a := descWord bs i
    a % align == 0 && nbits a 63 56 == 0 && nbits a 55 46 == moduleId h
  !(d.kind == 1 || d.kind == 2) || !([4, 6, 7].contains d.wFmt) || !([6, 9].contains d.momFmt) || w.testBit 15 || w.testBit 31 ||
  nbits w 63 35 != 0 || d.coreCount == 0 || decide (pairCores h < d.coreFirst + d.coreCount) ||
  (natRange d.coreFirst d.coreCount).any (fun k => decide (k < 64) && nth h.boot.coreMap k 0xFF == 0xFF) ||
  d.n == 0 || nbits (descWord bs 1) 63 48 != 0 || !addrOk 2 65536 || !addrOk 3 65536 || !addrOk 4 65536 ||
  !(d.kind == 2 || addrOk 5 65536) || !addrOk 6 65536 || !addrOk 7 32 || nbits (descWord bs 11) 63 32 != 0 ||
  descWord bs 13 != 0 || descWord bs 14 != 0 || descWord bs 15 != 0

/-- R386: is a bound context a service context? -/
def serviceBind (b : Word) (h : Hub) : Bool × Hub :=
  if bitOf b 0 && !bitOf b 44 && fld b 31 16 == 0xFFFF then
    match tenantEntry (fld b 43 32) h with
    | (.ok (a, _), h1) => (a.testBit 1, h1)
    | (.error _, h1) => (false, h1)
  else (false, h)

/-- R403: every named context is Ready and a service context. Whether one of the other member of a pair is, is free
(log entry 79). -/
def contextsReady (d : OptDesc) (h : Hub) : Bool × Hub :=
  (natRange d.coreFirst d.coreCount).foldl (fun (acc : Bool × Hub) k =>
    if 64 ≤ k then
      let r := fresh acc.2
      (acc.1 && r.1.getLsbD 0, r.2)
    else
    let x := getCtx k d.ctx acc.2
    let s := serviceBind x.bind acc.2
    (acc.1 && x.st == .ready && coreServes k acc.2 && s.1, s.2)) (true, h)

/-- R406: the completion record. -/
def applyRecord (cpl status step done fail code : Nat) (h : Hub) : Hub :=
  let bs := bytesLE 8 (status + mkFld 63 32 step) ++ bytesLE 8 (mkFld 31 0 done + mkFld 63 32 fail) ++
    bytesLE 8 h.devTime ++ bytesLE 8 code
  (storeWrite cpl bs false 0 h).getD (poolFull h)

/-- R387: offset of a context's work block. -/
def workBlock (ctx : Nat) : Nat := 0x160000 + 0x4000 * ctx

/-- R387: a dispatcher starts a service context (log entry 17 for the starter). -/
def dispatchCtx (k c : Nat) (block : List Byte) (h : Hub) : Hub :=
  let h1 := spWrite k (workBlock c) block h
  let x := getCtx k c h1
  let r := fresh h1
  startCtx k c x.entry [w64 (workBlock c), nth x.args 1 0, nth x.args 2 0, nth x.args 3 0] (fld r.1 17 0) r.2

/-- R404: the conversions per element that draw a random value. -/
def drawsPer (d : OptDesc) : Nat := if d.sr ∧ d.momFmt = 6 then (if d.kind = 1 then 3 else 2) else 1

/-- R404: one core's share: first chunk and count. -/
def applyShare (d : OptDesc) (j : Nat) : Nat × Nat :=
  let c := ceilDiv d.n 16384
  (j * c / d.coreCount, (j + 1) * c / d.coreCount - j * c / d.coreCount)

/-- R404: one core is started. -/
def startShare (d : OptDesc) (bs : List Byte) (s k first n : Nat) (h : Hub) : Hub :=
  let x := getCtx k d.ctx h
  let h1 := putCtx k d.ctx { x with seed := mixRandom d.seed (w64 s), src := w64 (drawsPer d * (16384 * first)) } h
  let t := (s + 2 ^ 32 - d.step0) % 2 ^ 32 + 1
  let head := bytesLE 8 (2 + mkFld 63 32 t) ++ bytesLE 8 (mkFld 31 0 first + mkFld 63 32 n) ++ bs
  dispatchCtx k d.ctx head (spWrite k (workBlock d.ctx + 0x1000) (bytesLE 8 0) h1)

/-- How the share of a core of the other member of a pair ends: a free value, 0 for success (log entry 79). -/
def partnerShare (h : Hub) : Nat × Hub :=
  let r := fresh h
  (fld r.1 7 0, r.2)

/-- R403, R404: an APPLY fires for step s: the submitted apply, or none where submission failed. -/
def applySubmit (busy : Bool) (desc s : Nat) (h : Hub) : Option ApplyRun × Hub :=
  let off := nbits desc 45 0
  if nbits desc 55 46 ≠ moduleId h ∨ !moduleValid h ∨ !inStore off 128 then (none, h)
  else
    let r := storeRead off 128 h
    let bs := r.1.1
    let d := parseOpt bs
    if r.1.2 then (none, r.2)
    else
      let own := nbits d.cpl 55 46 == moduleId h && inStore (nbits d.cpl 45 0) 32
      let fail (st : Nat) (x : Hub) : Option ApplyRun × Hub :=
        (none, if own then applyRecord (nbits d.cpl 45 0) st s 0 0xFFFFFFFF 0 x else x)
      if optBad bs r.2 then fail 2 r.2
      else
        let q := contextsReady d r.2
        if busy || !q.1 then fail 1 q.2
        else
          let go := (List.range d.coreCount).foldl (fun (acc : List (Nat × Nat × Nat × Option Nat) × Hub) j =>
            let p := applyShare d j
            if p.2 = 0 then acc
            else if 64 ≤ d.coreFirst + j then
              let e := partnerShare acc.2
              (acc.1 ++ [(d.coreFirst + j, p.1, p.2, some e.1)], e.2)
            else (acc.1 ++ [(d.coreFirst + j, p.1, p.2, none)], startShare d bs s (d.coreFirst + j) p.1 p.2 acc.2)) ([], q.2)
          (some ⟨s, d.ctx, nbits d.cpl 45 0, go.1⟩, go.2)

/-- R388, R406: how a started context's run has ended: none while it runs; 0 for HALT with EXIT 0; 0x100 for another EXIT;
else its fault code. -/
def runEnd (k c : Nat) (h : Hub) : Option Nat :=
  let x := getCtx k c h
  match x.st with
  | .running | .waiting => none
  | .faulted => some x.fault
  | .free | .ready => if x.exit = 0 then some 0 else some 0x100

/-- R406: the chunks a core counts as done. For a core of the other member of a pair that failed, a free value
(log entry 79). -/
def chunksDone (p : Nat × Nat × Nat × Option Nat) (ctx : Nat) (h : Hub) : Nat :=
  if p.1 < 64 then nbits (spNum p.1 (workBlock ctx + 0x1000) 8 h) 31 0
  else if p.2.2.2 = some 0 then p.2.2.1
  else (Config.freeValue (h.free + p.1)).toNat % (p.2.2.1 + 1)

/-- R406: the record of an apply all of whose contexts have ended. -/
def applyFinish (a : ApplyRun) (h : Hub) : Hub :=
  let bad := a.shares.filter (fun p => p.2.2.2 != some 0)
  let done := (a.shares.map (fun p => chunksDone p a.ctx h)).sum
  let fail := bad.foldl (fun m p => let n := chunksDone p a.ctx h; if n < p.2.2.1 then min m (p.2.1 + n) else m) 0xFFFFFFFF
  let status := if bad = [] then 0 else if bad.any (fun p => p.2.2.2 == some fPoison) then 3 else 4
  let code := match bad with | [] => 0 | p :: _ => (match p.2.2.2 with | some c => if c = 0x100 then 0 else c | none => 0)
  applyRecord a.cpl status a.step done fail code (if a.shares.any (fun p => decide (64 ≤ p.1)) then { h with free := h.free + 128 } else h)

/-- The shares of an apply with the ends seen so far. -/
def applySee (a : ApplyRun) (h : Hub) : ApplyRun :=
  { a with shares := a.shares.map (fun p => match p.2.2.2 with | some _ => p | none => (p.1, p.2.1, p.2.2.1, runEnd p.1 a.ctx h)) }

/-- R219, R225: a firing's work is complete: DONE_LATE where it was reported late; none: it is over. -/
def runComplete (r : DrawerRun) (h : Hub) : Option DrawerRun × Hub :=
  if r.deleted then (none, h)
  else
    match r.lateAt with
    | some t => (none, report repDoneLate r.drawer r.cursor r.dueStep r.reason (min (-1) (slackUs h.devTime t)) 0 r.refused h)
    | none => (some { r with doneAt := some h.devTime }, h)

/-- R406: every apply whose contexts have all ended writes its record; its drawer's work is then complete. -/
def applySettle (h : Hub) : Hub :=
  h.cur.runs.foldl (fun (x : Hub) r =>
    match r.apply with
    | none => setRuns (x.cur.runs ++ [r]) x
    | some a0 =>
      let a := applySee a0 x
      if a.shares.all (fun p => p.2.2.2.isSome) then
        let y := runComplete { r with apply := none } (applyFinish a x)
        match y.1 with
        | some r1 => setRuns (y.2.cur.runs ++ [r1]) y.2
        | none => y.2
      else setRuns (x.cur.runs ++ [{ r with apply := some a }]) x) (setRuns [] h)

/- ### Firing (R222, R227 to R230) -/

/-- A firing of drawer i for due position (step, pos). -/
def newRun (i : Nat) (d : Drawer) (step pos : Nat) (h : Hub) : DrawerRun :=
  let c := getCursor d.cursor h
  let rel := posMove step pos (d.holdLen : Int) c.m
  { drawer := i, cursor := d.cursor, tenant := c.tenant, kind := d.kind, dueStep := step, duePos := pos, relStep := rel.1,
    relPos := rel.2, todo := if d.kind = 4 then [] else natRange d.tile d.count }

/-- R222, R228: drawer i fires; `late`: its due position is reached or passed in the same advance; `passed`: passed. -/
def fireDrawer (i step pos : Nat) (late passed : Bool) (h : Hub) : Hub :=
  match Tab.get? h.cur.drawers i with
  | none => h
  | some d =>
    let busy := drawerBusy i h
    let d1 := { d with fired := d.fired || !d.isRepeat, lastStep := if d.kind = 4 ∧ !(passed && d.drop) then some step else d.lastStep }
    let h1 := count curPage 3 1 { h with cur := { h.cur with drawers := Tab.set h.cur.drawers i d1 } }
    if passed && d.drop then count curPage 5 1 (report repSkipped i d.cursor step 0 0 0 0 h1)
    else
      let r := newRun i d step pos h1
      let c := getCursor d.cursor h1
      let h2 := if d.kind = 1 ∧ d.prewalk then (queuePrewalk c.tenant (fld c.defn 31 16) (fld d.w3 56 0) (ceilDiv d.count 32) h1).2 else h1
      let y : DrawerRun × Hub :=
        if d.kind = 4 then
          let s := applySubmit busy (fld d.w2 55 0) step h2
          match s.1 with
          | some a => ({ r with apply := some a }, s.2)
          | none => (refuseTile 7 { r with doneAt := some h.devTime }, count curPage 7 1 s.2)
        else (r, h2)
      let z : Option DrawerRun × Hub := if late then dueReport { y.1 with doneAt := none } y.2 else (some y.1, y.2)
      let w : Option DrawerRun × Hub :=
        match z.1 with
        | none => z
        | some q => if late && y.1.doneAt.isSome then runComplete q z.2 else z
      match w.1 with
      | some q => setRuns (w.2.cur.runs ++ [q]) w.2
      | none => w.2

/-- A drawer about to fire: trigger and due position relative to the old one, index, due step and position. -/
structure Firing where
  trig : Int
  due : Int
  drawer : Nat
  step : Nat
  pos : Nat
  deriving DecidableEq, Repr

def insertFiring (f : Firing) : List Firing → List Firing
  | [] => [f]
  | g :: t => if f.trig < g.trig ∨ (f.trig = g.trig ∧ f.drawer < g.drawer) then f :: g :: t else g :: insertFiring f t

/-- R227: an APPLY does not fire for a step that is not after its LAST_STEP. -/
def applyAllowed (d : Drawer) (step : Nat) : Bool :=
  d.kind != 4 || (match d.lastStep with | none => true | some s => serialCmp s step 32 == .after)

/-- R222, R227: the firing of drawer i in a forward advance of `dist` from (step, pos), if its trigger is crossed. -/
def crossing (i : Nat) (d : Drawer) (step pos m : Nat) (dist : Int) : Option Firing :=
  if d.isRepeat then
    let k := ((pos : Int) + dist - (d.pos : Int) + (d.lead : Int)).fdiv (m : Int)
    let due := k * (m : Int) + (d.pos : Int) - (pos : Int)
    let s := wrapInt 32 ((step : Int) + k)
    if 0 < due - (d.lead : Int) ∧ applyAllowed d s then some ⟨due - d.lead, due, i, s, d.pos⟩ else none
  else if d.fired then none
  else
    let t := posMove d.step d.pos (-(d.lead : Int)) m
    match posDist step pos t.1 t.2 m with
    | none => none
    | some x => if 0 < x ∧ x ≤ dist ∧ applyAllowed d d.step then some ⟨x, x + d.lead, i, d.step, d.pos⟩ else none

/-- R230: a newly written drawer against the cursor's position: fired at once, passed, or left. -/
def lateEntry (i : Nat) (d : Drawer) (step pos m : Nat) : Option Firing :=
  if d.isRepeat ∨ d.fired then none
  else
    match posDist step pos d.step d.pos m with
    | none => none
    | some x => if x - (d.lead : Int) ≤ 0 ∧ applyAllowed d d.step then some ⟨x - d.lead, x, i, d.step, d.pos⟩ else none

/-- Firings in order of trigger, then index. -/
def sortFirings (l : List Firing) : List Firing := l.foldl (fun a f => insertFiring f a) []

/-- R237: crossings while ENABLE = 0 are kept, the latest of each drawer. -/
def missFirings (c : Nat) (l : List Firing) (h : Hub) : Hub :=
  l.foldl (fun x f => { x with cur := { x.cur with
    missed := x.cur.missed.filter (fun q => q.1 != f.drawer) ++ [(f.drawer, c, f.step, f.pos)] } }) h

/-- R222, R228, R230: fire; an entry due at the cursor itself counts as passed when `entry`. -/
def fireAll (c : Nat) (entry : Bool) (span : Int) (l : List Firing) (h : Hub) : Hub :=
  if enabled curPage h then
    cursorPump (l.foldl (fun x f => fireDrawer f.drawer f.step f.pos (decide (f.due ≤ span))
      (decide (f.due < span) || (entry && decide (f.due = span))) x) h)
  else missFirings c l h

/-- R237: what was crossed while ENABLE was 0 is handled as passed at the next advance. -/
def fireMissed (c : Nat) (h : Hub) : Hub :=
  if enabled curPage h then
    let l := h.cur.missed.filter (fun q => q.2.1 == c)
    cursorPump (l.foldl (fun x q => fireDrawer q.1 q.2.2.1 q.2.2.2 true true x)
      { h with cur := { h.cur with missed := h.cur.missed.filter (fun q => q.2.1 != c) } })
  else h

def drawersOf (c : Nat) (h : Hub) : Tab Drawer := h.cur.drawers.filter (fun e => e.2.cursor == c)

/- ### Advances (R214 to R216) -/

/-- Who advances (R215): through a register, or by a frame. -/
inductive Advancer
  | reg (by_ : Requester)
  | frame (module unit tenant : Nat)
  deriving DecidableEq, Repr

/-- R42, R606: the page's owner or the fabric manager. -/
def ownerAllows (page : Nat) (r : Requester) (h : Hub) : Bool :=
  let o := getReg page 0x38 h
  let m := fld o 1 0
  let me := if h.twin.en then h.twin.role else 0
  match r with
  | .sideband | .fm _ => true
  | .ld p n => m == 1 && fld o 2 2 == p && fld o 3 3 == me && fld o 7 4 == n
  | .agent a u _ => m == 2 && fld o 17 8 == a && fld o 25 18 == u

/-- R215, R239 (log entry 19 for register frames and mode 0b11). -/
def advAllowed (c : Cursor) (a : Advancer) (h : Hub) : Bool :=
  let b := c.bind
  let m := fld b 1 0
  match a with
  | .reg r =>
    ownerAllows curPage r h ||
    (match r with
     | .ld p n => m == 1 && fld b 2 2 == p && fld b 3 3 == (if h.twin.en then h.twin.role else 0) && fld b 7 4 == n
     | .agent x u _ => m == 2 && fld b 17 8 == x && fld b 25 18 == u
     | _ => false)
  | .frame x u t =>
    ownerAllows curPage (.agent x u t) h || (m == 2 && fld b 17 8 == x && fld b 25 18 == u) ||
    (m == 3 && decide (0xC0 ≤ u) && t == c.tenant)

/-- Status codes of an advance: 0 OK, else R261's DETAIL. -/
def advOk : Nat := 0
def advNoCursor : Nat := 1
def advBadPos : Nat := 2
def advDenied : Nat := 3
def advStale : Nat := 4
def advTooFar : Nat := 5

/-- R216: an advance's status, from the cursor's state alone. -/
def advStatus (v : Word) (a : Advancer) (h : Hub) : Nat :=
  let x := getCursor (fld v 5 0) h
  let skip := regFld curPage 0x40 15 0 h
  if x.st = .free then advNoCursor
  else if fld x.defn 15 0 < fld v 31 16 then advBadPos
  else if !advAllowed x a h then advDenied
  else if x.st = .armed then advOk
  else
    match posDist x.step x.pos (fld v 63 32) (fld v 31 16) x.m with
    | none => advTooFar
    | some d =>
      if d = 0 then advOk
      else if d < 0 ∧ !bitOf v 15 then advStale
      else if (skip : Int) < d ∧ skip ≠ 0 ∧ !bitOf v 15 then advTooFar
      else advOk

/-- R216, R222 to R230: an accepted advance takes effect. -/
def advTake (v : Word) (h : Hub) : Hub :=
  let c := fld v 5 0
  let x := getCursor c h
  let s := fld v 63 32
  let p := fld v 31 16
  let x1 := { x with st := .running, step := s, pos := p, lastAdv := h.devTime }
  if x.st = .armed then
    let h1 := putCursor c x1 h
    dueReports c s p (fireAll c true 0 (sortFirings ((drawersOf c h1).filterMap (fun e => lateEntry e.1 e.2 s p x.m))) h1)
  else
    match posDist x.step x.pos s p x.m with
    | none => h
    | some d =>
      let h0 := putCursor c x1 h
      let h1 := fireMissed c { h0 with cur := { h0.cur with moved := h0.cur.moved ++ [(c, x.step, x.pos, d)] } }
      if 0 < d then
        let past (r : HoldRec) : Bool := r.cursor == c &&
          (match posDist r.relStep r.relPos s p x.m with | some k => decide (0 < k) | none => false)
        let h2 := endHolds past h1
        dueReports c s p (fireAll c false d (sortFirings ((drawersOf c h2).filterMap (fun e => crossing e.1 e.2 x.step x.pos x.m d))) h2)
      else h1

/-- R216, R244: an advance: its status and effect. -/
def advance (v : Word) (a : Advancer) (h : Hub) : Nat × Hub :=
  let st := advStatus v a h
  (st, if st = advOk then advTake v (count curPage 0 1 h)
       else if st = advStale then count curPage 1 1 h
       else count curPage 2 1 h)

/-- R215: a write of CURSOR_ADVANCE. -/
def advanceReg (v : Word) (r : Requester) (h : Hub) : Hub :=
  let x := advance v (.reg r) h
  if x.1 = advDenied then raise curPage 18 x.2 else x.2

/- ### Cursor and drawer commands -/

/-- A drawer leaves the table: its holds end, its unbegun work is not begun, and no report follows (R231). -/
def deleteDrawer (i : Nat) (h : Hub) : Hub :=
  let h1 := endHolds (fun r => r.drawer == i) h
  { h1 with cur := { h1.cur with
      drawers := Tab.erase h1.cur.drawers i
      missed := h1.cur.missed.filter (fun q => q.1 != i)
      runs := (h1.cur.runs.map (fun r => if r.drawer = i then { r with deleted := true, todo := [] } else r)).filter
        (fun r => !(r.deleted && r.doneAt.isSome)) } }

/-- R214, R238: CURSOR_CMD on cursor c. -/
def cursorCmd (c op : Nat) (h : Hub) : Hub :=
  let x := getCursor c h
  if op = 1 then
    if x.st = .free then putCursor c { x with st := .armed, step := 0, pos := 0 } h else raise curPage 17 h
  else if op = 2 then
    let h1 := (drawersOf c h).foldl (fun y e => deleteDrawer e.1 y) h
    putCursor c { x with st := .free, step := 0, pos := 0 } (endHolds (fun r => r.cursor == c) h1)
  else h

/-- R239: CURSOR_DEF (false) or CURSOR_BIND (true). -/
def cursorDefWrite (bind : Bool) (c : Nat) (v : Word) (h : Hub) : Hub :=
  let x := getCursor c h
  if x.st ≠ .free then raise curPage 17 h
  else if bind then putCursor c { x with bind := v &&& w64 (masks [(25, 4), (if h.twin.en then 3 else 2, 0)]) } h
  else putCursor c { x with defn := v &&& w64 (masks [(63, 48), (43, 0)]) } h

def setDrawerResult (r : Nat) (h : Hub) : Hub := { h with cur := { h.cur with result := r } }

def stagingWord (j : Nat) (h : Hub) : Word := getReg curPage (0xA0 + 8 * j) h

/-- R218, R221, R230, R231: a drawer write. -/
def drawerWrite (i : Nat) (h : Hub) : Hub :=
  if drawerBusy i h then setDrawerResult 1 h
  else
    let w1 := putFld (stagingWord 1 h) 15 14 0
    let kind := fld w1 57 54
    let w3 := if kind = 4 then putFld (stagingWord 3 h) 63 32 0 else stagingWord 3 h
    let d : Drawer := { w0 := stagingWord 0 h, w1 := w1, w2 := stagingWord 2 h, w3 := w3 }
    let bad := drawerBad d h || (kind == 4 && fld w3 31 0 != 0)
    if bad then setDrawerResult 2 (raise curPage 16 h)
    else
      let h1 := deleteDrawer i h
      let h2 := setDrawerResult 0 { h1 with cur := { h1.cur with drawers := Tab.set h1.cur.drawers i d } }
      let x := getCursor d.cursor h2
      if x.st = .running ∨ x.st = .stalled then
        match lateEntry i d x.step x.pos x.m with
        | some f => fireAll d.cursor true 0 [f] h2
        | none => h2
      else h2

/-- R218, R241: an entry as it reads, engine fields included. -/
def drawerWords (i : Nat) (d : Drawer) (h : Hub) : List Word :=
  [d.w0, putBit (putBit d.w1 15 (d.fired && !d.isRepeat)) 14 (drawerBusy i h), d.w2,
   if d.kind = 4 then putFld d.w3 63 32 (d.lastStep.getD 0) else d.w3]

/-- R231, R241: a drawer read. -/
def drawerRead (i : Nat) (h : Hub) : Hub :=
  match Tab.get? h.cur.drawers i with
  | none => setDrawerResult 3 h
  | some d =>
    if drawerBusy i h then setDrawerResult 1 h
    else
      let ws := drawerWords i d h
      setDrawerResult 0 ((List.range 4).foldl (fun x j => putReg curPage (0xA0 + 8 * j) (nth ws j 0) x) h)

/-- R231: a drawer delete. -/
def drawerDelete (i : Nat) (h : Hub) : Hub :=
  match Tab.get? h.cur.drawers i with
  | none => setDrawerResult 3 h
  | some _ => setDrawerResult 0 (deleteDrawer i h)

/-- R241: CURSOR_DRAWER_CMD. -/
def drawerCmd (v : Nat) (h : Hub) : Hub :=
  let i := nbits v 11 0
  let op := nbits v 31 30
  if op = 1 then drawerWrite i h else if op = 2 then drawerRead i h else if op = 3 then drawerDelete i h else h

/-- R225: a fired drawer's work completes. -/
def drawerWorkDone (i : Nat) (h0 : Hub) : Hub :=
  let h := cursorPump h0
  let ready (r : DrawerRun) : Bool := r.drawer == i && r.todo.isEmpty && r.wait.isEmpty && r.apply.isNone && r.doneAt.isNone
  match takeFirst ready h.cur.runs with
  | none => h
  | some (r, rest) =>
    let y := runComplete r (setRuns rest h)
    cursorPump (match y.1 with | some r1 => setRuns (y.2.cur.runs ++ [r1]) y.2 | none => y.2)

/-- R214: no accepted advance for IDLE_LIMIT ms. -/
def cursorIdle (c : Nat) (h : Hub) : Hub :=
  let x := getCursor c h
  let lim := fld x.defn 63 48
  if x.st = .running ∧ lim ≠ 0 ∧ x.lastAdv + msToNs lim ≤ h.devTime then
    raiseEvent curPage 2 (count curPage 8 1 (endHolds (fun r => r.cursor == c) (putCursor c { x with st := .stalled } h)))
  else h

/-- R242: POP. -/
def reportPop (h : Hub) : Hub := { h with cur := { h.cur with reports := h.cur.reports.drop 1 } }

/-- R214, R109: a reset of the module. -/
def cursorReset (h : Hub) : Hub := { endHolds (fun _ => true) h with cur := {} }

/- ### Views -/

def cursorCode : CursorState → Nat
  | .free => 0 | .armed => 1 | .running => 2 | .stalled => 3

/-- R238 to R242: the CURSOR page's registers that show the engine's state. -/
def cursorView (off : Nat) (h : Hub) : Option Nat :=
  let x := getCursor (regFld curPage 0x44 5 0 h) h
  if off = 0x48 then some x.defn.toNat
  else if off = 0x50 then some x.bind.toNat
  else if off = 0x58 then some (mkFld 63 32 x.step + mkFld 31 16 x.pos + cursorCode x.st)
  else if off = 0xC4 then some (mkFld 31 28 h.cur.result + h.cur.drawers.length)
  else if off = 0xD0 then some (match h.cur.reports with | [] => 0 | r :: _ => r.w0.toNat)
  else if off = 0xD8 then some (match h.cur.reports with | [] => 0 | r :: _ => r.w1.toNat)
  else if off = 0xE0 then some (mkFld 22 16 h.cur.reports.length)
  else none

end Sys2Proof.Machine
end

