-- ==== Sys2Proof/Machine/Cloak.lean ====
section
/-!
DEFINITION. The Cloakroom (R409 to R440) and attention requests (R391 to R396): tickets, operations, pushes, handover,
mirrors, dispatch. The payload of a mirror operation, which the spec does not lay out, is the ticket ID and the 64 bytes
of the entry (log entry 20).
-/
namespace Sys2Proof.Machine

def clPage : Nat := 0xB8

def setCloak (c : Cloak) (h : Hub) : Hub := { h with cloak := c }

/- ### Ticket IDs (R409) -/

def tidOf (index home mirror mslot gen : Nat) : Nat :=
  mkFld 19 0 index + mkFld 29 20 home + mkFld 39 30 mirror + mkFld 55 40 mslot + mkFld 63 56 gen

def tidIndex (id : Nat) : Nat := nbits id 19 0
def tidHome (id : Nat) : Nat := nbits id 29 20
def tidMirror (id : Nat) : Nat := nbits id 39 30
def tidMslot (id : Nat) : Nat := nbits id 55 40
def tidGen (id : Nat) : Nat := nbits id 63 56

/- ### Entries (R412) -/

def ticketCode : TicketState → Nat
  | .free => 0 | .held => 1 | .offered => 2 | .releasing => 3 | .mirror => 4 | .probing => 5

def ticketWords (t : Ticket) : List Nat :=
  [mkFld 3 0 (ticketCode t.st) + mkFld 11 4 t.gen + mkFld 12 12 (bit01 t.mirrored) + mkFld 13 13 (bit01 t.spilled) +
     mkFld 27 16 t.tenant + mkFld 31 28 t.fmt + mkFld 63 32 t.epoch,
   mkFld 9 0 t.ownerM + mkFld 17 10 t.ownerU + mkFld 27 18 t.takerM + mkFld 35 28 t.takerU,
   mkFld 47 0 t.deadline + mkFld 63 48 t.refs,
   mkFld 31 0 t.maxTokens + mkFld 47 32 t.layersM1 + mkFld 55 48 t.headsM1 + mkFld 57 56 t.d,
   mkFld 28 0 t.runBase + mkFld 63 32 t.runTiles,
   mkFld 9 0 t.mirrorModule + mkFld 25 10 t.mslot + mkFld 54 26 t.mirrorRun,
   mkFld 56 0 t.notify, mkFld 47 0 t.created]

def ticketBytes (t : Ticket) : List Byte := ((ticketWords t).map (bytesLE 8)).flatten

def cloakTable (mir : Bool) (h : Hub) : Nat := mkFld 45 16 (regFld clPage (if mir then 0x58 else 0x50) 45 16 h)

def getTicket (mir : Bool) (i : Nat) (h : Hub) : Ticket :=
  Tab.getD (if mir then h.cloak.mirrors else h.cloak.tickets) i { gen := h.cloak.genBase }

/-- R548: a ticket's entry does not read poisoned. -/
def ticketUsable (mir : Bool) (i : Nat) (h : Hub) : Bool := !anyPoison (cloakTable mir h + 64 * i) 64 h

/-- The entry as the Cloakroom holds it. -/
def keepTicket (mir : Bool) (i : Nat) (t : Ticket) (h : Hub) : Hub :=
  if mir then { h with cloak := { h.cloak with mirrors := Tab.set h.cloak.mirrors i t } }
  else { h with cloak := { h.cloak with tickets := Tab.set h.cloak.tickets i t } }

/-- R412: the entry and its 64 bytes of the table. -/
def putTicket (mir : Bool) (i : Nat) (t : Ticket) (h : Hub) : Hub :=
  ownWrite (cloakTable mir h + 64 * i) (ticketBytes t) (keepTicket mir i t h)

/-- R548: a change that is not an operation on the ticket leaves a poisoned entry as it is in memory. -/
def amendTicket (mir : Bool) (i : Nat) (t : Ticket) (h : Hub) : Hub :=
  if ticketUsable mir i h then putTicket mir i t h else keepTicket mir i t h

/- ### Layout of a ticket (R389, R414) -/

def kvElem (fmt : Nat) : Nat := if fmt = 6 then 2 else 1
def headDim (d : Nat) : Nat := 64 <<< d

/-- Tokens per tile. -/
def kvTokens (d fmt : Nat) : Nat := 32768 / (headDim d * kvElem fmt)

def Ticket.n (t : Ticket) : Nat := kvTokens t.d t.fmt
def Ticket.heads (t : Ticket) : Nat := t.headsM1 + 1
def Ticket.layers (t : Ticket) : Nat := t.layersM1 + 1
def Ticket.l (t : Ticket) : Nat := ceilDiv t.maxTokens t.n
def Ticket.bitmap (t : Ticket) : Nat := 8 * ceilDiv t.layers 64
def Ticket.lt (t : Ticket) : Nat := ceilDiv (t.bitmap + t.layers * t.heads * (t.l + 1) * 4) 65536
def Ticket.runLen (t : Ticket) : Nat := t.lt + t.layers * t.heads * t.l

/-- Byte offset, from the run's start, of the list record of (layer, head). -/
def Ticket.record (t : Ticket) (layer head : Nat) : Nat := t.bitmap + (layer * t.heads + head) * (t.l + 1) * 4

/-- Run tile of KV tile (layer, head, k). -/
def Ticket.kvTile (t : Ticket) (layer head k : Nat) : Nat := t.lt + (layer * t.heads + head) * t.l + k

def Ticket.base (t : Ticket) : Nat := 65536 * t.runBase

/-- R390, R414: the list area of a new ticket. -/
def listArea (t : Ticket) : List Byte :=
  List.replicate t.bitmap 0#8 ++
  ((List.range (t.layers * t.heads)).map (fun i =>
    bytesLE 4 0 ++ ((List.range t.l).map (fun k => bytesLE 4 (t.runBase + t.lt + i * t.l + k))).flatten)).flatten

/-- R415: the list tiles are allocated and written; none: POOL_FULL. -/
def writeLists (t : Ticket) (h : Hub) : Option Hub :=
  ((natRange t.runBase t.lt).foldl (fun (x : Option Hub) k => x.bind (allocFresh k 2 t.tenant)) (some h)).bind
    (storeWrite t.base (listArea t) false t.tenant)

def tokenCount (t : Ticket) (layer head : Nat) (h : Hub) : Nat × Hub :=
  let r := storeRead (t.base + t.record layer head) 4 h
  (ofBytesLE r.1.1, r.2)

def setTokenCount (t : Ticket) (layer head n : Nat) (h : Hub) : Hub :=
  (storeWrite (t.base + t.record layer head) (bytesLE 4 n) false t.tenant h).getD (poolFull h)

def readyBit (t : Ticket) (layer : Nat) (h : Hub) : Bool × Hub :=
  let r := storeRead (t.base + layer / 8) 1 h
  ((ofBytesLE r.1.1).testBit (layer % 8), r.2)

def readyByte (t : Ticket) (layer : Nat) (h : Hub) : Nat × Hub :=
  let r := storeRead (t.base + layer / 8) 1 h
  (ofBytesLE r.1.1 ||| 2 ^ (layer % 8), r.2)

def setReady (t : Ticket) (layer : Nat) (h : Hub) : Hub :=
  let b := readyByte t layer h
  (storeWrite (t.base + layer / 8) (bytesLE 1 b.1) false t.tenant b.2).getD (poolFull b.2)

/-- Runs in use: of tickets and of mirror copies. -/
def arenaUsed (h : Hub) : List (Nat × Nat) :=
  ((h.cloak.tickets ++ h.cloak.mirrors).filter (fun (e : Nat × Ticket) => e.2.st != .free)).map (fun e => (e.2.runBase, e.2.runTiles))
    |>.foldl (fun l r => insertRun r l) []

/-- R415: first fit in the arena. -/
def arenaFind (n : Nat) (h : Hub) : Option Nat :=
  let a := getReg clPage 0x60 h
  firstFit n (fld a 28 0 + fld a 60 32) (fld a 28 0) (arenaUsed h)

/-- The next free index after the last taken (R411): one more than the entries listed are enough to look at. -/
def nextIndex (h : Hub) : Option Nat :=
  ((natRange (h.cloak.lastIndex + 1) (min 1048576 (h.cloak.tickets.length + 1))).find? (fun k => (getTicket false (k % 1048576) h).st == .free)).map (· % 1048576)

/-- The lowest free mirror slot. -/
def freeSlot (h : Hub) : Option Nat := (natRange 0 (min 65536 (h.cloak.mirrors.length + 1))).find? (fun k => (getTicket true k h).st == .free)

/- ### Finding a ticket (R410, R411) -/

inductive CloakFind
  | here (mir : Bool) (i : Nat) (t : Ticket)
  | lost
  | away (module : Nat)
  /-- a mirror copy: its home -/
  | copy (i : Nat) (t : Ticket)
  deriving DecidableEq, Repr

def cloakFind (id : Nat) (h : Hub) : CloakFind :=
  let me := moduleId h
  if tidMirror id = me ∧ tidHome id ≠ me then
    let t := getTicket true (tidMslot id) h
    if t.st = .free ∨ t.gen ≠ tidGen id ∨ !ticketUsable true (tidMslot id) h then .lost
    else if t.st = .mirror ∨ t.st = .probing then .copy (tidMslot id) t
    else if t.st = .releasing then .lost
    else .here true (tidMslot id) t
  else if tidHome id = me then
    let t := getTicket false (tidIndex id) h
    if t.st = .free ∨ t.gen ≠ tidGen id then (if tidMirror id ≠ me then .away (tidMirror id) else .lost)
    else if t.st = .releasing ∨ !ticketUsable false (tidIndex id) h then .lost
    else .here false (tidIndex id) t
  else .away (tidHome id)

/-- R563: the entry that a ticket ID names is read, where an injection may be pending. -/
def ticketRead (id : Nat) (h : Hub) : Hub :=
  if tidMirror id = moduleId h ∧ tidHome id ≠ moduleId h then meetInjection (cloakTable true h + 64 * tidMslot id) 64 h
  else if tidHome id = moduleId h then meetInjection (cloakTable false h + 64 * tidIndex id) 64 h
  else h

/- ### Answers (R416, R417) -/

def ucLost : Nat := 1
def ucRetry : Nat := 2
def ucNotReady : Nat := 3
def ucBadDesc : Nat := 4
def ucBadRange : Nat := 5
def ucPoison : Nat := 6
def ucPatternFault : Nat := 7
def ucNoService : Nat := 8
def ucNotOwner : Nat := 9
def ucEpoch : Nat := 0xA
def ucBadState : Nat := 0xB
def ucFull : Nat := 0xC
def ucMirrorFail : Nat := 0xD
def ucSourceFault : Nat := 0xE

/-- A completion from the Cloakroom. -/
def cloakAnswer (f : Frame) (status detail aux op0 op1 : Nat) (h0 : Hub) : Hub :=
  let h := if status = stDenied then meterAdd f.tenant 7 1 h0 else h0
  let h1 := if status = stUnit ∧ detail = ucRetry then count clPage 8 1 h
    else if status = stUnit ∧ detail = ucLost then count clPage 9 1 h else h
  sendFrame { completionOf f status detail aux false [] h1 with operand0 := op0, operand1 := op1 } h1

/-- R417: OPERAND0 as the entry stands. -/
def entryOperand (t : Ticket) : Nat :=
  mkFld 31 0 t.epoch + mkFld 35 32 (ticketCode t.st) + mkFld 45 36 t.ownerM + mkFld 53 46 t.ownerU

def unitAnswer (f : Frame) (detail : Nat) (h : Hub) : Hub := cloakAnswer f stUnit detail 0 0 0 h

/- ### Frames to mirrors and agents -/

def mirrorNone : Nat := 0xFFFFFFFF

/-- A mirror frame of an entry. -/
def mirrorFrame (t : Ticket) (aux : Nat) : Frame :=
  { dstModule := t.mirrorModule, dstUnit := 0x83, srcUnit := 0x83, opcode := 0x11, tenant := t.tenant, aux := aux, len := 72,
    payload := bytesLE 8 t.tid ++ ticketBytes t }

/-- A store frame into the mirror's run. -/
def mirrorStore (t : Ticket) (off : Nat) (bs : List Byte) : Frame :=
  { dstModule := t.mirrorModule, dstUnit := 0x80, srcUnit := 0x83, opcode := 2, tenant := t.tenant,
    addr := mkFld 55 46 t.mirrorModule + 65536 * t.mirrorRun + off, len := bs.length, payload := bs }

/-- R431: the home's mirror is given up: cleared, a drop sent. -/
def dropMirror (mir : Bool) (i : Nat) (note : Bool) (h : Hub) : Hub :=
  let t := getTicket mir i h
  if !t.mirrored then h
  else
    let h1 := amendTicket mir i { t with mirrored := false } h
    let h2 := match issueRemote (mirrorFrame t 0x23) (.mirror i mirrorNone 0x23) h1 with | .ok x => x | .error _ => h1
    if note then count clPage 11 1 (raiseEvent clPage 1 h2) else h2

/-- R431: send one change to the mirror for operation `op`: true where it is on its way. -/
def mirrorSend (i op : Nat) (f : Frame) (h : Hub) : Bool × Hub :=
  match issueRemote f (.mirror i op 0x21) h with
  | .ok h1 => (true, h1)
  | .error _ => (false, dropMirror false i true h)

/-- Send a list of changes, stopping where the mirror is lost; how many are on their way. -/
def mirrorSends (i op : Nat) : List Frame → Hub → Nat × Hub
  | [], h => (0, h)
  | f :: fs, h =>
    match mirrorSend i op f h with
    | (true, h1) => let r := mirrorSends i op fs h1; (r.1 + 1, r.2)
    | (false, h1) => (0, h1)

/-- R431: a tile, as a TILE_WRITE of 17 parts with one tag into the mirror's run. -/
def mirrorTile (i op : Nat) (t : Ticket) (k : Nat) (hd payload : List Byte) (h : Hub) : Bool × Hub :=
  let part (j : Nat) (bs : List Byte) : Frame :=
    { dstModule := t.mirrorModule, dstUnit := 0x80, srcUnit := 0x83, opcode := 6, tenant := t.tenant,
      addr := mkFld 55 46 t.mirrorModule + 65536 * (t.mirrorRun + k), len := bs.length, aux := j, payload := bs }
  match mirrorSend i op (part 16 hd) h with
  | (false, h1) => (false, h1)
  | (true, h1) =>
    let tag := match h1.outstanding.getLast? with | some o => o.frame.tag | none => 0
    (true, (List.range 16).foldl (fun x j =>
      let f := part j (sliceBytes payload (4096 * j) 4096)
      sendFrame { f with srcModule := moduleId x, tag := tag, plevel := 2, issueTime := x.devTime % 2 ^ 48, scarry := scarryOf f.payload } x) h1)

/-- R427: the handover record to the offerer (log entry 21 for the frame's TC and ASID). -/
def notifyOffer (t : Ticket) (module unit outcome epoch : Nat) (h : Hub) : Hub :=
  let bs := bytesLE 8 t.tid ++ bytesLE 8 (mkFld 7 0 outcome + mkFld 63 32 epoch)
  let f : Frame := { dstModule := module, dstUnit := unit, srcUnit := 0x83, opcode := 2, tenant := t.tenant, addr := t.notify,
                     len := 16, payload := bs }
  match issueRemote f .notify h with
  | .ok h1 => h1
  | .error _ => raise clPage 17 h

/- ### References and release (R418, R429) -/

/-- R429: the ticket's tiles and run go, GEN advances, the entry is Free. -/
def ticketFree (mir : Bool) (i : Nat) (h : Hub) : Hub :=
  let t := getTicket mir i h
  let h1 := (natRange t.runBase t.runTiles).foldl (fun x k => freeFinish k x) (dropMirror mir i false h)
  count clPage 1 1 (putTicket mir i { gen := (t.gen + 1) % 256 } h1)

def addRef (mir : Bool) (i : Nat) (h : Hub) : Hub :=
  let t := getTicket mir i h
  putTicket mir i { t with refs := t.refs + 1 } h

def dropRef (mir : Bool) (i : Nat) (h : Hub) : Hub :=
  let t := getTicket mir i h
  let h1 := amendTicket mir i { t with refs := t.refs - 1 } h
  if t.st = .releasing ∧ t.refs ≤ 1 then ticketFree mir i h1 else h1

/- ### Admitted operations -/

def findOp (n : Nat) (h : Hub) : Option CloakOp := h.cloak.ops.find? (fun o => o.n == n)
def putOp (o : CloakOp) (h : Hub) : Hub :=
  setCloak { h.cloak with ops := h.cloak.ops.map (fun p => if p.n = o.n then o else p) } h
def addOp (o : CloakOp) (h : Hub) : Hub := setCloak { h.cloak with ops := h.cloak.ops ++ [o], nextOp := h.cloak.nextOp + 1 } h
def removeOp (n : Nat) (h : Hub) : Hub := setCloak { h.cloak with ops := h.cloak.ops.filter (fun o => o.n != n) } h

/-- An operation completes and gives back its reference. -/
def endOp (o : CloakOp) (status detail : Nat) (h : Hub) : Hub :=
  let t := getTicket o.inMirror o.index h
  dropRef o.inMirror o.index (cloakAnswer o.frame status detail 0 (entryOperand t) 0 (removeOp o.n h))

/- ### Pushes (R420 to R423) -/

/-- R423: does a push to the layer that was admitted before operation n still run? -/
def pushBefore (mir : Bool) (i layer n : Nat) (h : Hub) : Bool :=
  h.cloak.ops.any (fun o => o.kind == .push && o.inMirror == mir && o.index == i && o.layer == layer && decide (o.n < n))

/-- R423: ready bits whose earlier pushes have all completed. -/
def settleReady (h : Hub) : Hub :=
  let still (q : Bool × Nat × Nat × Nat) : Bool := pushBefore q.1 q.2.1 q.2.2.1 q.2.2.2 h
  let go := h.cloak.readies.filter (fun q => !still q)
  go.foldl (fun x q =>
      let t := getTicket q.1 q.2.1 x
      let h1 := setReady t q.2.2.1 x
      if t.mirrored ∧ !q.1 then
        let b := readyByte t q.2.2.1 h1
        (mirrorSend q.2.1 mirrorNone (mirrorStore t (q.2.2.1 / 8) (bytesLE 1 b.1)) b.2).2
      else h1)
    (setCloak { h.cloak with readies := h.cloak.readies.filter still } h)

/-- The new token counts of a push or append, by head. -/
def newCounts (o : CloakOp) (t : Ticket) (h : Hub) : List (Nat × Nat) × Hub :=
  (natRange o.headFirst o.heads).foldl (fun (acc : List (Nat × Nat) × Hub) hd =>
    let c := tokenCount t o.layer hd acc.2
    (acc.1 ++ [(hd, max c.1 o.tokenEnd)], c.2)) ([], h)

/-- R422, R424: the operation's counts are set, and it completes. -/
def completeFill (o : CloakOp) (h : Hub) : Hub :=
  let t := getTicket o.inMirror o.index h
  let cs := newCounts o t h
  let h1 := cs.1.foldl (fun x c => setTokenCount t o.layer c.1 c.2 x) cs.2
  let h2 := if o.kind = .append then count clPage 3 1 h1 else h1
  let h3 := if o.readySent then setReady t o.layer h2
    else if o.setReady && !o.poisoned then setCloak { h2.cloak with readies := h2.cloak.readies ++ [(o.inMirror, o.index, o.layer, o.n)] } h2
    else h2
  settleReady (if o.poisoned then endOp o stUnit ucPoison h3 else endOp o stOk 0 h3)

/-- R422, R431: every tile or store is performed: the counts, and the ready bit where no earlier push holds it, go to the
mirror first, then the operation completes. -/
def finishFill (o : CloakOp) (h : Hub) : Hub :=
  let t := getTicket o.inMirror o.index h
  if o.fail ≠ 0 then settleReady (endOp o (o.fail / 256) (o.fail % 256) h)
  else if t.mirrored ∧ !o.finishing then
    let cs := newCounts o t h
    let now := o.setReady && !o.poisoned && !pushBefore o.inMirror o.index o.layer o.n h
    let b := readyByte t o.layer cs.2
    let ready := if now then [mirrorStore t (o.layer / 8) (bytesLE 1 b.1)] else []
    let r := mirrorSends o.index o.n (cs.1.map (fun c => mirrorStore t (t.record o.layer c.1) (bytesLE 4 c.2)) ++ ready)
      (if now then b.2 else cs.2)
    let o1 := { o with finishing := true, readySent := now, waits := r.1 }
    if r.1 = 0 then completeFill o1 (putOp o1 r.2) else putOp o1 r.2
  else completeFill o h

/-- Nothing is outstanding for the operation: it goes on. -/
def checkFill (n : Nat) (h : Hub) : Hub :=
  match findOp n h with
  | none => h
  | some o =>
    if o.running && o.reads == 0 && o.waits == 0 && o.todo.isEmpty then finishFill o h else h

/-- R421: send block reads while fewer than 16 are outstanding. -/
def pushReads : Nat → CloakOp → Hub → CloakOp × Hub
  | 0, o, h => (o, h)
  | fuel + 1, o, h =>
    match o.todo with
    | [] => (o, h)
    | (p, b) :: rest =>
      if 16 ≤ o.reads then (o, h)
      else
        let src := match Tab.get? o.tiles p with | some x => x.src | none => 0
        let f : Frame := { dstModule := o.frame.srcModule, dstUnit := o.frame.srcUnit, srcUnit := 0x83, opcode := 1, tc := o.frame.tc,
                           tenant := o.frame.tenant, asid := o.frame.asid, addr := src + 4096 * b, len := 4096 }
        match issueRemote f (.push o.n (16 * p + b)) h with
        | .ok h1 => pushReads fuel { o with todo := rest, reads := o.reads + 1 } h1
        | .error _ => ({ o with todo := [], fail := if o.fail = 0 then stUnit * 256 + ucSourceFault else o.fail }, h)

/-- R421: pushes start in order within PUSH_INFLIGHT. -/
def startPushes : Nat → Hub → Hub
  | 0, h => h
  | fuel + 1, h =>
    let pushes := h.cloak.ops.filter (fun o => o.kind == .push)
    if max 1 (regFld clPage 0x40 7 0 h) ≤ (pushes.filter (·.running)).length then h
    else
      match pushes.find? (fun o => !o.running) with
      | none => h
      | some o =>
        let r := pushReads 17 { o with running := true } h
        startPushes fuel (checkFill o.n (putOp r.1 r.2))

/-- R421, R422: a tile whose 16 blocks are in is written whole. -/
def pushTile (o : CloakOp) (p : Nat) (x : PushTile) (h : Hub) : CloakOp × Hub :=
  let t := getTicket o.inMirror o.index h
  let blocks := (List.range 16).map (fun j => Tab.getD x.blocks j ([], true, 0))
  let payload := (blocks.map (fun b => b.1)).flatten
  let mask := (List.range 16).foldl (fun m j => if (nth blocks j ([], true, 0)).2.1 then m ||| 2 ^ j else m) 0
  let bsel := blocks.map (fun b => b.2.2)
  let g : GivenHeader := ⟨t.fmt, 0, 2, bsel, crc32c payload, tselHdrOf bsel⟩
  let o1 := { o with tiles := Tab.erase o.tiles p }
  match tileWrite (t.runBase + x.tile) t.tenant (some g) payload mask (moduleId h) 0x83 h.devTime h with
  | none => ({ o1 with fail := if o.fail = 0 then stPoolFull * 256 else o.fail, todo := [] }, poolFull h)
  | some (bad, h1) =>
    let o2 := { o1 with poisoned := o.poisoned || bad }
    let h2 := count clPage 2 1 (meterAdd t.tenant 1 65536 h1)
    if t.mirrored ∧ !o.inMirror then
      let v := getTile (t.runBase + x.tile) h2
      let r := mirrorTile o.index o.n t x.tile (headerOfTile (t.mirrorRun + x.tile) v) payload h2
      ({ o2 with waits := o2.waits + bit01 r.1 }, r.2)
    else (o2, h2)

/-- R421, R422: a block read of a push completes. -/
def pushBlock (n part status : Nat) (poison : Bool) (scarry : Nat) (data : List Byte) (h : Hub) : Hub :=
  match findOp n h with
  | none => h
  | some o =>
    let o0 := { o with reads := o.reads - 1 }
    let p := part / 16
    let step : CloakOp × Hub :=
      if status ≠ stOk ∧ status ≠ stPoisoned then
        ({ o0 with todo := [], fail := if o.fail = 0 then stUnit * 256 + ucSourceFault else o.fail }, h)
      else
        match Tab.get? o0.tiles p with
        | none => (o0, h)
        | some x =>
          let x1 := { x with blocks := Tab.set x.blocks (part % 16) (sliceBytes data 0 4096, poison, scarry) }
          let o1 := { o0 with tiles := Tab.set o0.tiles p x1 }
          if x1.blocks.length = 16 ∧ o1.fail = 0 then pushTile o1 p x1 h else (o1, h)
    let r := pushReads 17 step.1 step.2
    startPushes 257 (checkFill n (putOp r.1 r.2))

/-- R420: an admitted PUSH. -/
def pushAdmit (f : Frame) (mir : Bool) (i : Nat) (t : Ticket) (h : Hub) : Hub :=
  let w1 := leAt f.payload 8 8
  let w2 := leAt f.payload 16 8
  let w3 := leAt f.payload 24 8
  let layer := nbits w1 47 32
  let hf := nbits w1 55 48
  let hs := nbits w1 63 56 + 1
  let first := nbits w2 31 0
  let cnt := nbits w2 63 32
  let src := nbits w3 56 0
  let tl := ceilDiv cnt t.n
  let counts := (natRange hf (min hs t.heads)).foldl (fun (acc : Bool × Hub) hd =>
    if hd < t.heads then let c := tokenCount t (min layer t.layersM1) hd acc.2; (acc.1 && decide (first ≤ c.1), c.2) else acc) (true, h)
  let bad (d : Nat) : Hub := cloakAnswer f stUnit d 0 (entryOperand t) 0 counts.2
  if t.layersM1 < layer ∨ src % 65536 ≠ 0 ∨ nbits w3 62 57 ≠ 0 then bad ucBadDesc
  else if first % t.n ≠ 0 ∨ !counts.1 ∨ t.maxTokens < first + cnt ∨ t.heads < hf + hs then bad ucBadRange
  else
    let tiles : Tab PushTile := ((List.range hs).map (fun a => (List.range tl).map (fun j =>
      (a * tl + j, (⟨t.kvTile layer (hf + a) (first / t.n + j), src + (a * tl + j) * 65536, []⟩ : PushTile))))).flatten
    let todo := (tiles.map (fun e => (List.range 16).map (fun b => (e.1, b)))).flatten
    let o : CloakOp := { n := h.cloak.nextOp, kind := .push, frame := f, inMirror := mir, index := i, todo := todo, tiles := tiles,
                         layer := layer, headFirst := hf, heads := hs, tokenEnd := first + cnt, setReady := w3.testBit 63 }
    startPushes 257 (addRef mir i (addOp o counts.2))

/- ### APPEND (R424) -/

/-- The stores of one head's token: offset in the run, bytes. -/
def appendStores (t : Ticket) (layer head token : Nat) (bs : List Byte) : List (Nat × List Byte) :=
  let e := kvElem t.fmt
  let dim := headDim t.d
  let at_ := 65536 * t.kvTile layer head (token / t.n)
  let p := token % t.n
  (at_ + p * dim * e, sliceBytes bs 0 (dim * e)) ::
    (List.range dim).map (fun j => (at_ + 32768 + (j * t.n + p) * e, sliceBytes bs (dim * e + j * e) e))

/-- Stores into the run, in order; none: POOL_FULL. -/
def runStores (t : Ticket) (l : List (Nat × List Byte)) (h : Hub) : Option Hub :=
  l.foldl (fun (x : Option Hub) s => x.bind (tenantWrite t.tenant (t.base + s.1) s.2 false)) (some h)

/-- The tiles of an append that are not allocated yet are taken in class KV with the ticket's format (R415). -/
def appendTiles (t : Ticket) (layer hf hs token : Nat) (h : Hub) : Option Hub :=
  (natRange hf hs).foldl (fun (x : Option Hub) hd => x.bind (fun y =>
    let k := t.runBase + t.kvTile layer hd (token / t.n)
    match (getTile k y).st with
    | .free | .void => (allocFresh k 2 t.tenant y).map (fun z => putTile k { getTile k z with format := t.fmt } z)
    | _ => some y)) (some h)

def appendAdmit (f : Frame) (mir : Bool) (i : Nat) (t : Ticket) (h : Hub) : Hub :=
  let w1 := leAt f.payload 8 8
  let layer := nbits w1 47 32
  let hf := nbits w1 55 48
  let hs := nbits w1 63 56 + 1
  let token := leAt f.payload 16 4
  let per := 2 * headDim t.d * kvElem t.fmt
  let counts := (natRange hf (min hs t.heads)).foldl (fun (acc : Bool × Hub) hd =>
    if hd < t.heads then let c := tokenCount t (min layer t.layersM1) hd acc.2; (acc.1 && decide (token = c.1), c.2) else acc) (true, h)
  let bad (d : Nat) : Hub := cloakAnswer f stUnit d 0 (entryOperand t) 0 counts.2
  if t.layersM1 < layer then bad ucBadDesc
  else if t.heads < hf + hs ∨ !counts.1 ∨ t.maxTokens ≤ token then bad ucBadRange
  else
    let l := ((List.range hs).map (fun a => appendStores t layer (hf + a) token (sliceBytes f.payload (24 + a * per) per))).flatten
    match (appendTiles t layer hf hs token counts.2).bind (runStores t l) with
    | none => cloakAnswer f stPoolFull 0 0 (entryOperand t) 0 (poolFull counts.2)
    | some h1 =>
      let o : CloakOp := { n := h1.cloak.nextOp, kind := .append, frame := f, inMirror := mir, index := i, running := true, layer := layer,
                           headFirst := hf, heads := hs, tokenEnd := token + 1 }
      let h2 := addRef mir i (addOp o h1)
      if t.mirrored ∧ !mir then
        let r := mirrorSends i o.n (l.map (fun s => mirrorStore t s.1 s.2)) h2
        checkFill o.n (putOp { o with waits := r.1 } r.2)
      else checkFill o.n h2

/- ### SPILL and FETCH (R425) -/

/-- One KV tile's move: done, refused, or waiting for a transition (true: wait). -/
def moveTile (k : Nat) (up : Bool) (h : Hub) : Bool × Hub :=
  let v := getTile k h
  let refuse (x : Hub) : Bool × Hub := (false, count clPage 12 1 x)
  match v.st with
  | .free | .void | .freeing => (false, h)
  | .promoting | .demoting => (true, h)
  | .lower => if up then (match promoteStart k h with | some h1 => (false, h1) | none => refuse (poolFull h)) else (false, h)
  | .clean => if up then (false, h) else if 0 < v.pins ∨ 0 < v.holds then refuse h else (false, dropToLower k h)
  | .upper =>
    if up then (false, h)
    else if 0 < v.pins ∨ 0 < v.holds then refuse h
    else match demoteStart k false .evict h with | some h1 => (false, h1) | none => refuse (t2Full h)

/-- Moves that wait are tried again. -/
def cloakMoves (h : Hub) : Hub :=
  h.cloak.moves.foldl (fun (x : Hub) m =>
    let r := moveTile m.1 m.2 x
    if r.1 then setCloak { r.2.cloak with moves := r.2.cloak.moves ++ [m] } r.2 else r.2) (setCloak { h.cloak with moves := [] } h)

def queueMoves (t : Ticket) (up : Bool) (h : Hub) : Hub :=
  let ks := natRange (t.runBase + t.lt) (t.runTiles - t.lt)
  let rest := h.cloak.moves.filter (fun m => !(ks.contains m.1))
  cloakMoves (setCloak { h.cloak with moves := rest ++ ks.map (fun k => (k, up)) } h)

/- ### Handover (R426 to R428) -/

/-- R431: a change of an entry goes to its mirror before the operation that made it completes. -/
def entryChanged (f : Option Frame) (mir : Bool) (i : Nat) (h : Hub) : Hub :=
  let t := getTicket mir i h
  let answerNow (x : Hub) : Hub := match f with
    | some g => cloakAnswer g stOk 0 0 (entryOperand (getTicket mir i x)) 0 x
    | none => x
  if t.mirrored ∧ !mir then
    let n := h.cloak.nextOp
    match f with
    | some g =>
      let o : CloakOp := { n := n, kind := .handover, frame := g, inMirror := mir, index := i, waits := 1 }
      match mirrorSend i n (mirrorFrame t 0x21) h with
      | (true, h1) => addRef mir i (addOp o h1)
      | (false, h1) => answerNow h1
    | none => (mirrorSend i mirrorNone (mirrorFrame t 0x21) h).2
  else answerNow h

/-- R427: an open offer is resolved. -/
def resolveOffer (mir : Bool) (i outcome module unit : Nat) (h : Hub) : Hub :=
  let t := getTicket mir i h
  let e := (t.epoch + 1) % 2 ^ 32
  let h1 := putTicket mir i { t with st := .held, epoch := e, ownerM := module, ownerU := unit, takerM := 0, takerU := 0, deadline := 0 } h
  notifyOffer t t.ownerM t.ownerU outcome e h1

/-- R427: the deadline of an offer. -/
def offerTimeout (mir : Bool) (i : Nat) (h : Hub) : Hub :=
  let t := getTicket mir i h
  if t.st = .offered ∧ ticketUsable mir i h ∧ t.deadline ≤ h.devTime then
    entryChanged none mir i (count clPage 7 1 (raiseEvent clPage 0 (resolveOffer mir i 2 t.ownerM t.ownerU h)))
  else h

def handoverUs (h : Hub) : Nat := max 100 (regFld clPage 0x48 23 0 h)

/-- R429: RELEASE. -/
def releaseTicket (mir : Bool) (i : Nat) (h : Hub) : Hub :=
  let t := getTicket mir i h
  let h1 := putTicket mir i { t with st := .releasing } h
  if t.refs = 0 then ticketFree mir i h1 else h1

/- ### CREATE (R419, R430) -/

/-- The entry a CREATE asks for. -/
def createTicket (f : Frame) (i base : Nat) (h : Hub) : Ticket :=
  let w := leAt f.payload 0 8
  let t0 : Ticket := {
    st := .held, gen := (getTicket false i h).gen, tenant := f.tenant, fmt := nbits w 29 26, ownerM := f.srcModule,
    ownerU := f.srcUnit, maxTokens := leAt f.payload 8 4, layersM1 := nbits w 15 0, headsM1 := nbits w 23 16, d := nbits w 25 24,
    runBase := base, created := h.devTime % 2 ^ 48, tid := tidOf i (moduleId h) (moduleId h) 0 (getTicket false i h).gen }
  { t0 with runTiles := t0.runLen }

def createBad (f : Frame) (h : Hub) : Bool :=
  let w := leAt f.payload 0 8
  nbits w 25 24 == 3 || !([4, 5, 6].contains (nbits w 29 26)) || nbits w 63 41 != 0 || leAt f.payload 8 4 == 0 ||
  leAt f.payload 12 4 != 0 || (w.testBit 30 && nbits w 40 31 == moduleId h)

/-- A CREATE that is refused after its run was taken leaves nothing allocated. -/
def undoCreate (i : Nat) (h : Hub) : Hub :=
  let t := getTicket false i h
  putTicket false i { gen := t.gen } ((natRange t.runBase t.runTiles).foldl (fun x k => freeFinish k x) h)

def createDone (f : Frame) (i : Nat) (h : Hub) : Hub :=
  let t := getTicket false i h
  cloakAnswer f stOk 0 0 t.tid (mkFld 28 0 t.runBase + mkFld 63 32 t.runTiles) (count clPage 13 1 (count clPage 0 1 h))

def cloakCreate (f : Frame) (h0 : Hub) : Hub :=
  if createBad f h0 then unitAnswer f ucBadDesc h0
  else
    let h := meterAdd f.tenant 6 1 h0
    let need := (createTicket f 0 0 h).runTiles
    match nextIndex h, (if regFld clPage 0x40 63 32 h < need then none else arenaFind need h) with
    | some i, some base =>
      let t := createTicket f i base h
      match writeLists t h with
      | none => cloakAnswer f stPoolFull 0 0 0 0 (poolFull ((natRange t.runBase t.lt).foldl (fun x k => freeFinish k x) h))
      | some h1 =>
        let h2 := putTicket false i t (setCloak { h1.cloak with lastIndex := i } h1)
        let w := leAt f.payload 0 8
        if !w.testBit 30 then createDone f i h2
        else
          let m := nbits w 40 31
          let n := h2.cloak.nextOp
          match issueRemote (mirrorFrame { t with mirrorModule := m } 0x20) (.mirror i n 0x20) h2 with
          | .error _ => unitAnswer f ucMirrorFail (undoCreate i h2)
          | .ok h3 => addOp { n := n, kind := .create, frame := f, inMirror := false, index := i, waits := 1 }
              (putTicket false i { t with mirrorModule := m, refs := 1 } h3)
    | _, _ => unitAnswer f ucFull h

/- ### Mirrors: this module as the mirror (R430 to R432) -/

def entryOf (bs : List Byte) : Ticket :=
  let w i := leAt bs (8 + 8 * i) 8
  { st := if nbits (w 0) 3 0 = 2 then .offered else .held
    gen := nbits (w 0) 11 4, spilled := (w 0).testBit 13, tenant := nbits (w 0) 27 16, fmt := nbits (w 0) 31 28,
    epoch := nbits (w 0) 63 32, ownerM := nbits (w 1) 9 0, ownerU := nbits (w 1) 17 10, takerM := nbits (w 1) 27 18,
    takerU := nbits (w 1) 35 28, deadline := nbits (w 2) 47 0, maxTokens := nbits (w 3) 31 0, layersM1 := nbits (w 3) 47 32,
    headsM1 := nbits (w 3) 55 48, d := nbits (w 3) 57 56, notify := nbits (w 6) 56 0, created := nbits (w 7) 47 0,
    tid := leAt bs 0 8 }

/-- R416: a mirror operation is admitted from unit 0x83 of another module in GSA mode under R134. -/
def mirrorOk (port : Nat) (f : Frame) (h : Hub) : Bool :=
  f.srcUnit == 0x83 && f.srcModule != moduleId h && f.asid == 0xFFFF && ringTrusted port f h

def mirrorCreate (f : Frame) (h : Hub) : Hub :=
  if !regBit clPage 0x40 8 h then cloakAnswer f stDenied 0 0 0 0 h
  else
    let e := entryOf f.payload
    match freeSlot h, arenaFind e.runLen h with
    | some s, some base =>
      let id := tidOf (tidIndex e.tid) (tidHome e.tid) (moduleId h) s e.gen
      let t := { e with st := .mirror, runBase := base, runTiles := e.runLen, mirrorModule := f.srcModule, tid := id }
      match writeLists t h with
      | none => unitAnswer f ucFull (poolFull ((natRange base t.lt).foldl (fun x k => freeFinish k x) h))
      | some h1 => cloakAnswer f stOk 0 0 s base (putTicket true s t h1)
    | _, _ => unitAnswer f ucFull h

def mirrorUpdate (f : Frame) (h : Hub) : Hub :=
  let e := entryOf f.payload
  let i := tidMslot e.tid
  let t := getTicket true i h
  if (t.st = .mirror ∨ t.st = .probing) ∧ t.gen = tidGen e.tid then
    cloakAnswer f stOk 0 0 0 0 (putTicket true i { t with
      epoch := e.epoch, ownerM := e.ownerM, ownerU := e.ownerU, takerM := e.takerM,
      takerU := e.takerU, deadline := e.deadline, notify := e.notify, tenant := e.tenant } h)
  else unitAnswer f ucLost h

def mirrorDrop (f : Frame) (h : Hub) : Hub :=
  let id := leAt f.payload 0 8
  let i := tidMslot id
  let t := getTicket true i h
  if (t.st = .mirror ∨ t.st = .probing) ∧ t.gen = tidGen id then
    let h1 := (natRange t.runBase t.runTiles).foldl (fun x k => freeFinish k x) h
    cloakAnswer f stOk 0 0 0 0 (putTicket true i { gen := (t.gen + 1) % 256 } h1)
  else unitAnswer f ucLost h

/-- R432: the home's answer to a probe. -/
def probeAnswer (f : Frame) (h : Hub) : Hub :=
  let id := leAt f.payload 0 8
  let t := getTicket false (tidIndex id) h
  if tidHome id = moduleId h ∧ t.st ≠ .free ∧ t.gen = tidGen id ∧ ticketUsable false (tidIndex id) h then cloakAnswer f stOk 0 0 0 0 h else unitAnswer f ucLost h

/-- R432: the mirror becomes the home. -/
def mirrorPromote (i : Nat) (h : Hub) : Hub :=
  let t := getTicket true i h
  if t.st = .probing then
    count clPage 10 1 (raiseEvent clPage 2 (amendTicket true i
      { t with st := .held, epoch := (t.epoch + 1) % 2 ^ 32, mirrored := false, takerM := 0, takerU := 0, deadline := 0 } h))
  else h

/-- R432: a request at a mirror copy: RETRY naming the home, and one probe. -/
def mirrorAsked (f : Frame) (i : Nat) (h : Hub) : Hub :=
  let t := getTicket true i h
  let h1 := cloakAnswer f stUnit ucRetry t.mirrorModule 0 0 h
  if t.st = .mirror then
    let h2 := putTicket true i { t with st := .probing } h1
    match issueRemote (mirrorFrame t 0x22) (.mirror i mirrorNone 0x22) h2 with
    | .ok h3 => h3
    | .error _ => mirrorPromote i h2
  else h1

/- ### Attention (R391 to R396) -/

def reqWord (f : Frame) (i : Nat) : Nat := leAt f.payload (8 * i) 8

/-- R391: bytes of one query element; 0 for a reserved format. -/
def queryElem (q : Nat) : Nat := if q = 6 then 2 else if q = 9 then 4 else 0

/-- R392's LEN. -/
def attendLenOk (f : Frame) : Bool :=
  let w := reqWord f 1
  decide (48 ≤ f.payload.length) && f.payload.length == f.len && decide (f.len ≤ 4096) && nbits w 30 29 != 3 && queryElem (nbits w 39 36) != 0 &&
  f.len == 48 + nbits w 28 24 * headDim (nbits w 30 29) * queryElem (nbits w 39 36)

def svcEntry (i : Nat) (h : Hub) : Word := getReg clPage (0x200 + 4 * i) h

/-- The service contexts in service (R392). -/
def svcAny (h : Hub) : Bool := (List.range 64).any (fun i => bitOf (svcEntry i h) 31 && coreServes (fld (svcEntry i h) 9 3) h)

/-- R392: reserved values, and what the ticket records. -/
def attendBadDesc (f : Frame) (t : Ticket) : Bool :=
  let w := reqWord f 1
  let g := nbits w 28 24
  w.testBit 31 || nbits w 47 40 != 0 || nbits (reqWord f 4) 63 32 != 0 || nbits (reqWord f 5) 63 57 != 0 || nbits (reqWord f 5) 5 0 != 0 ||
  g == 0 || decide (16 < g) || nbits w 30 29 != t.d || nbits w 35 32 != t.fmt || decide (t.layersM1 < nbits w 15 0) ||
  decide (t.headsM1 < nbits w 23 16) || nbits (reqWord f 2) 63 32 == 0

def attend (f : Frame) (h0 : Hub) : Hub :=
  if !attendLenOk f then cloakAnswer f stBadRequest 0 0 0 0 h0
  else if !enabled clPage h0 || decide (1024 ≤ h0.cloak.attends.length) then cloakAnswer f stBusy 0 0 0 0 h0
  else if !svcAny h0 then unitAnswer f ucNoService h0
  else
    let h := ticketRead (reqWord f 0) h0
    match cloakFind (reqWord f 0) h with
    | .lost => unitAnswer f ucLost h
    | .away m => cloakAnswer f stUnit ucRetry m 0 0 h
    | .copy i _ => mirrorAsked f i h
    | .here mir i t =>
      if f.tenant ≠ t.tenant then cloakAnswer f stDenied 0 0 0 0 h
      else if attendBadDesc f t then unitAnswer f ucBadDesc h
      else
        let w := reqWord f 1
        let c := tokenCount t (nbits w 15 0) (nbits w 23 16) h
        if c.1 < nbits (reqWord f 2) 31 0 + nbits (reqWord f 2) 63 32 then unitAnswer f ucBadRange c.2
        else
          let h1 := addRef mir i (meterAdd t.tenant 6 1 (count clPage 4 1 c.2))
          setCloak { h1.cloak with attends := h1.cloak.attends ++ [⟨h1.cloak.nextOp, f, mir, i, h1.devTime, .queued⟩], nextOp := h1.cloak.nextOp + 1 } h1

def putAttend (a : AttendReq) (h : Hub) : Hub :=
  setCloak { h.cloak with attends := h.cloak.attends.map (fun b => if b.n = a.n then a else b) } h

/-- An admitted request completes. -/
def endAttend (a : AttendReq) (status detail : Nat) (h : Hub) : Hub :=
  dropRef a.inMirror a.index (cloakAnswer a.frame status detail 0 0 0
    (setCloak { h.cloak with attends := h.cloak.attends.filter (fun b => b.n != a.n) } h))

def attendLayer (a : AttendReq) : Nat := nbits (reqWord a.frame 1) 15 0

/-- R393: is the request's layer ready? -/
def attendReady (a : AttendReq) (h : Hub) : Bool :=
  let t := getTicket a.inMirror a.index h
  (readyBit t (attendLayer a) h).1

/-- R393: WAIT_US passed and the layer is not ready. -/
def attendExpire (n : Nat) (h : Hub) : Hub :=
  match h.cloak.attends.find? (fun a => a.n == n) with
  | none => h
  | some a =>
    if a.st = .queued ∧ !attendReady a h ∧ a.admittedAt + usToNs (nbits (reqWord a.frame 1) 63 48) ≤ h.devTime then
      endAttend a stUnit ucNotReady (count clPage 5 1 h)
    else h

/-- R393: the next Ready service context after the last used. -/
def nextSvc (h : Hub) : Option (Nat × Nat × Nat) :=
  ((natRange (h.cloak.lastSvc + 1) 64).findSome? (fun j =>
    let e := svcEntry (j % 64) h
    let k := fld e 9 3
    if bitOf e 31 && coreServes k h && (getCtx k (fld e 2 0) h).st == .ready then some (j % 64, k, fld e 2 0) else none))

/-- R394: the work block of a request. -/
def attendBlock (a : AttendReq) (t : Ticket) (h : Hub) : List Byte :=
  let f := a.frame
  let first := nbits (reqWord f 2) 31 0
  let cnt := nbits (reqWord f 2) 63 32
  let w := reqWord f 1
  let entry := t.base + t.record (nbits w 15 0) (nbits w 23 16) + 4 * (1 + first / t.n)
  bytesLE 8 (1 + mkFld 63 32 (ceilDiv (first % t.n + cnt) t.n)) ++ sliceBytes f.payload 8 8 ++
  bytesLE 8 (mkFld 31 0 (first % t.n) + mkFld 63 32 cnt) ++ sliceBytes f.payload 24 16 ++
  bytesLE 8 (mkFld 55 46 (moduleId h) + entry) ++ f.payload.drop 48

/-- R393, R394: the first eligible request meets a Ready service context. -/
def attendDispatch (h : Hub) : Hub :=
  match h.cloak.attends.find? (fun a => a.st == .queued && attendReady a h), nextSvc h with
  | some a, some (j, k, c) =>
    let t := getTicket a.inMirror a.index h
    let h1 := putAttend { a with st := .running k c } (setCloak { h.cloak with lastSvc := j } h)
    dispatchCtx k c (attendBlock a t h1) h1
  | _, _ => h

/-- R395: the pieces of a result: none crosses a 4,096-byte boundary of REPLY space. -/
def replyPieces : Nat → Nat → List Byte → List (Nat × List Byte)
  | 0, _, _ => []
  | fuel + 1, a, bs =>
    if bs = [] then []
    else
      let k := min bs.length (4096 - a % 4096)
      (a, bs.take k) :: replyPieces fuel (a + k) (bs.drop k)

/-- R395: the result goes to the requester. -/
def attendReply (a : AttendReq) (k c : Nat) (h : Hub) : Hub :=
  let f := a.frame
  let w := reqWord f 1
  let g := nbits w 28 24
  let n := 4 * headDim (nbits w 30 29) * g + 8 * g
  let off := workBlock c + 0x1000
  let bs := spBytes k off n h
  let r := (replyPieces (n / 4096 + 2) (nbits (reqWord f 5) 56 0) bs).foldl (fun (acc : (Nat × Bool) × Hub) p =>
    let g : Frame := { dstModule := f.srcModule, dstUnit := f.srcUnit, srcUnit := 0x83, opcode := 2, tc := f.tc, tenant := f.tenant, asid := f.asid,
                       addr := p.1, len := p.2.length, payload := p.2,
                       poison := spPoison k (off + (p.1 - nbits (reqWord f 5) 56 0)) p.2.length h }
    match issueRemote g (.attend a.n) acc.2 with
    | .ok h1 => ((acc.1.1 + 1, acc.1.2), h1)
    | .error _ => ((acc.1.1, true), acc.2)) ((0, false), h)
  if r.1.1 = 0 then endAttend a stUnit ucPatternFault r.2
  else putAttend { a with st := .replying r.1.1 r.1.2 } r.2

/-- R395: a WRITE of a result completes. -/
def attendWritten (n status : Nat) (h : Hub) : Hub :=
  match h.cloak.attends.find? (fun a => a.n == n) with
  | none => h
  | some a =>
    match a.st with
    | .replying w bad =>
      let bad1 := bad || status != stOk
      if w ≤ 1 then (if bad1 then endAttend a stUnit ucPatternFault h else endAttend a stOk 0 h)
      else putAttend { a with st := .replying (w - 1) bad1 } h
    | _ => h

/-- R388, R395, R396: requests whose contexts have ended. -/
def attendSettle (h : Hub) : Hub :=
  h.cloak.attends.foldl (fun x a =>
    match a.st with
    | .running k c =>
      match runEnd k c x with
      | none => x
      | some e =>
        if e = fPoison ∨ (getCtx k c x).sawPoison then endAttend a stUnit ucPoison x
        else if e = 0 then attendReply a k c x
        else endAttend a stUnit ucPatternFault x
    | _ => x) h

/-- What follows the end of service contexts: attention results (R395) and optimiser records (R406). -/
def svcSettle (h : Hub) : Hub := applySettle (attendSettle h)

/- ### Operations on a ticket (R416) -/

/-- Bits of a state set: held, offered. -/
def cloakStates (op : Nat) (s : TicketState) : Bool :=
  if op = 0x08 ∨ op = 0x0D then s == .held
  else if op = 0x09 ∨ op = 0x0A ∨ op = 0x0B then s == .offered
  else s == .held || s == .offered

/-- R416's check 1. -/
def cloakLenOk (op : Nat) (f : Frame) : Bool :=
  let n := f.payload.length
  n == f.len &&
  (if op = 0x02 then n == 32
   else if op = 0x03 then decide (24 ≤ n ∧ n ≤ 4096)
   else if op = 0x08 then n == 24
   else n == 16)

/-- R424: LEN of an append against the ticket's geometry. -/
def appendLenOk (f : Frame) (t : Ticket) : Bool :=
  f.len == 24 + (nbits (leAt f.payload 8 8) 63 56 + 1) * 2 * headDim t.d * kvElem t.fmt

/-- R416: check 6: the source is the agent the operation requires. -/
def cloakSource (op : Nat) (f : Frame) (t : Ticket) : Bool :=
  if op = 0x0C then true
  else if op = 0x09 ∨ op = 0x0A then t.st != .offered || (f.srcModule == t.takerM && f.srcUnit == t.takerU)
  else f.srcModule == t.ownerM && f.srcUnit == t.ownerU

/-- R428. -/
def whoOwns (f : Frame) (t : Ticket) (h : Hub) : Hub :=
  let left := if t.st = .offered then (t.deadline - h.devTime) / 1000 else 0
  cloakAnswer f stOk 0 0 (entryOperand t)
    (mkFld 9 0 t.takerM + mkFld 17 10 t.takerU + mkFld 41 18 left + mkFld 42 42 (bit01 t.mirrored) + mkFld 43 43 (bit01 t.spilled)) h

/-- An operation that passed checks 1 to 8. -/
def cloakAct (op : Nat) (f : Frame) (mir : Bool) (i : Nat) (t : Ticket) (h0 : Hub) : Hub :=
  let h := meterAdd t.tenant 6 1 h0
  if op = 0x02 then pushAdmit f mir i t h
  else if op = 0x03 then
    appendAdmit f mir i t h
  else if op = 0x04 ∨ op = 0x05 then
    let t1 := { t with spilled := op == 0x04 }
    cloakAnswer f stOk 0 0 (entryOperand t1) 0 (queueMoves t (op == 0x05) (putTicket mir i t1 h))
  else if op = 0x08 then
    let w := leAt f.payload 8 8
    let n := leAt f.payload 16 8
    if n % 64 ≠ 0 ∨ nbits n 63 57 ≠ 0 ∨ nbits w 63 50 ≠ 0 then cloakAnswer f stUnit ucBadDesc 0 (entryOperand t) 0 h
    else
      entryChanged (some f) mir i (putTicket mir i { t with
        st := .offered, takerM := nbits w 41 32, takerU := nbits w 49 42, notify := n,
        deadline := h.devTime + usToNs (handoverUs h) } h)
  else if op = 0x09 then entryChanged (some f) mir i (count clPage 6 1 (resolveOffer mir i 1 t.takerM t.takerU h))
  else if op = 0x0A then entryChanged (some f) mir i (resolveOffer mir i 3 t.ownerM t.ownerU h)
  else if op = 0x0B then entryChanged (some f) mir i (resolveOffer mir i 4 t.ownerM t.ownerU h)
  else if op = 0x0C then whoOwns f t h
  else
    cloakAnswer f stOk 0 0 (entryOperand { t with st := .releasing }) 0 (releaseTicket mir i h)

/-- R416: an operation on a ticket, with its checks in order. -/
def cloakOp (op : Nat) (f : Frame) (h0 : Hub) : Hub :=
  if !cloakLenOk op f then cloakAnswer f stBadRequest 0 0 0 0 h0
  else if 256 ≤ h0.cloak.ops.length ∨ !enabled clPage h0 then cloakAnswer f stBusy 0 0 0 0 h0
  else
    let h := ticketRead (leAt f.payload 0 8) h0
    match cloakFind (leAt f.payload 0 8) h with
    | .away m => cloakAnswer f stUnit ucRetry m 0 0 h
    | .copy i _ => mirrorAsked f i h
    | .lost => unitAnswer f ucLost h
    | .here mir i t =>
      if op = 0x03 ∧ !appendLenOk f t then cloakAnswer f stBadRequest 0 0 0 0 h
      else if f.tenant ≠ t.tenant then cloakAnswer f stDenied 0 0 0 0 h
      else if !cloakSource op f t then cloakAnswer f stUnit ucNotOwner 0 (entryOperand t) 0 h
      else if op ≠ 0x0C ∧ leAt f.payload 8 4 ≠ t.epoch then cloakAnswer f stUnit ucEpoch 0 (entryOperand t) 0 h
      else if !cloakStates op t.st then cloakAnswer f stUnit ucBadState 0 (entryOperand t) 0 h
      else cloakAct op f mir i t h

/-- R416: a WORK frame at unit 0x83. -/
def cloakFrame (port : Nat) (f : Frame) (h : Hub) : Hub :=
  let op := nbits f.aux 7 0
  if op = 0x01 then attend f h
  else if [0x02, 0x03, 0x04, 0x05, 0x08, 0x09, 0x0A, 0x0B, 0x0C, 0x0D].contains op then cloakOp op f h
  else if op = 0x10 then
    if f.payload.length ≠ 16 ∨ f.len ≠ 16 then cloakAnswer f stBadRequest 0 0 0 0 h
    else if 256 ≤ h.cloak.ops.length ∨ !enabled clPage h then cloakAnswer f stBusy 0 0 0 0 h
    else cloakCreate f h
  else if 0x20 ≤ op ∧ op ≤ 0x23 then
    if !mirrorOk port f h then cloakAnswer f stDenied 0 0 0 0 h
    else if f.payload.length ≠ 72 ∨ f.len ≠ 72 then cloakAnswer f stBadRequest 0 0 0 0 h
    else if op = 0x20 then
      if 256 ≤ h.cloak.ops.length ∨ !enabled clPage h then cloakAnswer f stBusy 0 0 0 0 h else mirrorCreate f h
    else if op = 0x21 then mirrorUpdate f h
    else if op = 0x22 then probeAnswer f h
    else mirrorDrop f h
  else cloakAnswer f stUnsupported 0 0 0 0 h

/-- R430 to R432: a completion of a frame sent to a mirror or a home. -/
def mirrorComplete (i op kind status : Nat) (c : Frame) (h : Hub) : Hub :=
  if kind = 0x20 then
    match findOp op h with
    | none => h
    | some o =>
      if status = stOk then
        let t := getTicket false i h
        let id := tidOf i (moduleId h) t.mirrorModule c.operand0 t.gen
        let h1 := amendTicket false i { t with mirrored := true, mslot := c.operand0, mirrorRun := c.operand1, tid := id, refs := t.refs - 1 } h
        let h2 := createDone o.frame i (removeOp op h1)
        if t.st = .releasing then ticketFree false i h2 else h2
      else unitAnswer o.frame ucMirrorFail (undoCreate i (removeOp op h))
  else if kind = 0x21 then
    let h1 := if status = stOk then h else dropMirror false i true h
    match findOp op h1 with
    | none => h1
    | some o =>
      let o1 := { o with waits := o.waits - 1 }
      if o.kind = .handover then endOp o1 stOk 0 h1 else checkFill op (putOp o1 h1)
  else if kind = 0x22 then
    let t := getTicket true i h
    if t.st ≠ .probing then h
    else if status = stTargetDead ∨ status = stNoRoute ∨ (status = stUnit ∧ c.detail = ucLost) then mirrorPromote i h
    else amendTicket true i { t with st := .mirror } h
  else h

/- ### Forced changes (R436) and registers (R437 to R439) -/

def fmRefuse (r : Nat) (h : Hub) : Hub := raise clPage 18 (setCloak { h.cloak with fmResult := r } h)
def fmOk (h : Hub) : Hub := setCloak { h.cloak with fmResult := 0 } h

/-- R436. A ticket reads Lost at its home only (R411), so an ID whose home is another module and that no mirror
entry here holds is NOT_HOME; DROP_MIRROR of a ticket without a mirror has nothing to drop (log entry 77). -/
def cloakFmCmd (op : Nat) (h0 : Hub) : Hub :=
  let id := (getReg clPage 0x80 h0).toNat
  if op = 0 then h0
  else
    let h := ticketRead id h0
    match cloakFind id h with
    | .lost | .away _ | .copy _ _ => fmRefuse (if tidHome id = moduleId h then 1 else 2) h
    | .here mir i t =>
      let resolved (m u : Nat) (x : Hub) : Hub := if t.st = .offered then resolveOffer mir i 5 m u x else x
      if op = 1 then fmOk (releaseTicket mir i (resolved t.ownerM t.ownerU h))
      else if op = 2 then
        let a := getReg clPage 0x88 h
        let m := fld a 9 0
        let u := fld a 17 10
        let h1 := if t.st = .offered then resolved m u h
          else putTicket mir i { t with epoch := (t.epoch + 1) % 2 ^ 32, ownerM := m, ownerU := u } h
        fmOk (entryChanged none mir i h1)
      else fmOk (if t.mirrored then dropMirror mir i false h else h)

/-- R437: a base or arena register is written only while ENABLE is 0. -/
def cloakBaseWrite (off : Nat) (mask : List (Nat × Nat)) (v : Word) (h : Hub) : Hub :=
  if enabled clPage h then raise clPage 16 h else putReg clPage off (v &&& w64 (masks mask)) h

/-- Largest free run of the arena. -/
def largestFree (lim : Nat) : Nat → List (Nat × Nat) → Nat
  | pos, [] => lim - pos
  | pos, (s, k) :: t => max (s - pos) (largestFree lim (max pos (s + k)) t)

def cloakView (off : Nat) (h : Hub) : Option Nat :=
  let a := getReg clPage 0x60 h
  let used := arenaUsed h
  if off = 0x68 then
    some (mkFld 60 32 (largestFree (fld a 28 0 + fld a 60 32) (fld a 28 0) used) + mkFld 28 0 (fld a 60 32 - (used.map (·.2)).sum))
  else if off = 0x70 then
    some (mkFld 48 32 (h.cloak.mirrors.filter (fun (e : Nat × Ticket) => e.2.st != .free)).length +
      mkFld 20 0 (h.cloak.tickets.filter (fun (e : Nat × Ticket) => e.2.st != .free)).length)
  else if off = 0x90 then some h.cloak.fmResult
  else none

/-- R435: after a reset every entry is Free; `kept`: the tables survived, and GENs advance. -/
def cloakReset (kept : Bool) (h : Hub) : Hub :=
  let a := getReg clPage 0x60 h
  let inArena (t : Nat) : Bool := decide (fld a 28 0 ≤ t ∧ t < fld a 28 0 + fld a 60 32)
  let h1 := ((h.tier.tiles.map (·.1)).filter inArena).foldl (fun x t => freeFinish t x) h
  if kept then
    let bump (l : Tab Ticket) : Tab Ticket := l.map (fun e => (e.1, ({ gen := (e.2.gen + 1) % 256 } : Ticket)))
    let h2 := setCloak { ({} : Cloak) with tickets := bump h.cloak.tickets, mirrors := bump h.cloak.mirrors, lastIndex := h.cloak.lastIndex,
                                           genBase := (h.cloak.genBase + 1) % 256, nextOp := h.cloak.nextOp } h1
    let h3 := h2.cloak.tickets.foldl (fun x e => putTicket false e.1 e.2 x) h2
    h3.cloak.mirrors.foldl (fun x e => putTicket true e.1 e.2 x) h3
  else setCloak { ({} : Cloak) with nextOp := h.cloak.nextOp } h1

end Sys2Proof.Machine
end

