-- ==== Sys2Proof/Machine/Emb.lean ====
section
/-!
DEFINITION. The Embedding Unit (R441 to R465): descriptors, requests in windows, gather, pooled lookup, scatter, the
step-end apply and bucket migration.
-/
namespace Sys2Proof.Machine

def embPage : Nat := 0xC0

def setEmb (e : Emb) (h : Hub) : Hub := { h with emb := e }

/-- R444, R448: completion details of unit 0x84. -/
def udNoTable : Nat := 1
def udBadDesc : Nat := 2
def udStaleStep : Nat := 3
def udSourceFault : Nat := 4

/- ### Descriptors (R441) -/

structure EmbDesc where
  fmt : Nat
  opt : Nat
  sr : Bool
  dim : Nat
  buckets : Nat
  frac : Nat
  tenant : Nat
  cursor : Nat
  applyEn : Bool
  rows : Nat
  applyPos : Nat
  logSize : Nat
  dir : Nat
  dflt : Nat
  log : Nat
  load : Nat
  cpl : Nat
  lr : Lane
  eps : Lane
  seed : Word
  deriving DecidableEq, Repr

/-- The module offset a GSA names. -/
def gsaOff (a : Nat) : Nat := nbits a 45 0

def parseEmb (bs : List Byte) : EmbDesc :=
  let w := descWord bs 0
  let v := descWord bs 1
  { fmt := nbits w 3 0, opt := nbits w 5 4, sr := w.testBit 6, dim := nbits w 18 8, buckets := 2 ^ nbits w 23 19,
    frac := nbits w 29 24, tenant := nbits w 43 32, cursor := nbits w 49 44, applyEn := w.testBit 50,
    rows := nbits v 31 0, applyPos := nbits v 47 32, logSize := 2 ^ nbits v 52 48, dir := gsaOff (descWord bs 2),
    dflt := gsaOff (descWord bs 3), log := gsaOff (descWord bs 4), load := gsaOff (descWord bs 5), cpl := gsaOff (descWord bs 6),
    lr := BitVec.ofNat 32 (nbits (descWord bs 7) 31 0), eps := BitVec.ofNat 32 (nbits (descWord bs 7) 63 32),
    seed := w64 (descWord bs 8) }

/-- R441: does a descriptor break the table, or name another module? -/
def embBad (bs : List Byte) (h : Hub) : Bool :=
  let w := descWord bs 0
  let v := descWord bs 1
  let d := parseEmb bs
  let addrOk (i : Nat) : Bool :=
    let a := descWord bs i
    a % 64 == 0 && nbits a 63 56 == 0 && gsaHere a h
  !([4, 6, 7, 9].contains d.fmt) || w.testBit 7 || decide (d.dim < 16 ∨ 1024 < d.dim) || d.dim % 16 != 0 ||
  decide (16 < nbits w 23 19) || decide (62 < d.frac) || nbits w 31 30 != 0 || nbits w 63 51 != 0 || d.rows == 0 ||
  decide (nbits v 52 48 < 10 ∨ 26 < nbits v 52 48) || nbits v 63 53 != 0 ||
  ((natRange 2 5).any (fun i => !addrOk i)) || ((natRange 10 6).any (fun i => descWord bs i != 0))

def getTable (i : Nat) (h : Hub) : Option EmbTable := Tab.get? h.emb.tables i

def putTable (i : Nat) (t : EmbTable) (h : Hub) : Hub := setEmb { h.emb with tables := Tab.set h.emb.tables i t } h

def EmbTable.d (t : EmbTable) : EmbDesc := parseEmb t.desc

/-- Bytes of an element of a row format. -/
def embElem (fmt : Nat) : Nat := fmtBits fmt / 8

def EmbDesc.rowBytes (d : EmbDesc) : Nat := d.dim * embElem d.fmt

/-- R442: bytes of optimiser state. -/
def EmbDesc.stateBytes (d : EmbDesc) : Nat := if d.opt = 2 then 4 else if d.opt = 3 then 4 * d.dim else 0

/-- R442: offset of the accumulator header in a record. -/
def EmbDesc.hdr (d : EmbDesc) : Nat := ceilDiv (d.rowBytes + d.stateBytes) 8 * 8

/-- R442: record length S. -/
def EmbDesc.size (d : EmbDesc) : Nat :=
  if d.opt = 0 then ceilDiv d.rowBytes 64 * 64 else ceilDiv (d.hdr + 16 + 8 * d.dim) 64 * 64

/-- R443: an entry of the bucket directory: state, peer and base. A poisoned entry reads as Absent, a reserved state too. -/
def dirEntry (d : EmbDesc) (k : Nat) (h : Hub) : (Nat × Nat × Nat) × Hub :=
  let r := ownRead64 (d.dir + 8 * k) h
  let e := if r.1.2 then 0 else r.1.1
  let st := nbits e 3 0
  ((if 4 < st then 0 else st, nbits e 13 4, nbits e 61 16), r.2)

def dirWrite (d : EmbDesc) (k state peer base : Nat) (h : Hub) : Hub :=
  ownWrite (d.dir + 8 * k) (bytesLE 8 (state + mkFld 13 4 peer + mkFld 61 16 base)) h

/-- A write of a record by the unit, with its tenant as owner of a tile it allocates. -/
def recWrite (d : EmbDesc) (off : Nat) (bs : List Byte) (h : Hub) : Hub :=
  (tenantWrite d.tenant off bs false h).getD (poolFull h)

/-- LAST_STEP and LOG_USED in the descriptor's word 9. -/
def tableSave (i : Nat) (t : EmbTable) (h : Hub) : Hub :=
  ownWrite (mkFld 45 15 (regFld embPage 0x40 45 15 h) + 128 * i + 72) (bytesLE 4 t.lastStep ++ bytesLE 4 t.logUsed) (putTable i t h)

/-- R452: a row whose COUNT leaves 0 is logged; a full log only counts. -/
def touchLog (i row : Nat) (h : Hub) : Hub :=
  match getTable i h with
  | none => h
  | some t =>
    let h1 := if t.logUsed < t.d.logSize then recWrite t.d (t.d.log + 8 * t.logUsed) (bytesLE 8 row) h else raise embPage 19 h
    tableSave i { t with logUsed := min (t.logUsed + 1) 0xFFFFFFFF } h1

/- ### Requests -/

def findReq (n : Nat) (h : Hub) : Option EmuReq := h.emb.reqs.find? (fun r => r.n == n)

def putReq (r : EmuReq) (h : Hub) : Hub :=
  setEmb { h.emb with reqs := h.emb.reqs.map (fun x => if x.n = r.n then r else x) } h

def dropReq (n : Nat) (h : Hub) : Hub := setEmb { h.emb with reqs := h.emb.reqs.filter (fun x => x.n != n) } h

/-- A word of a request's payload (R444). -/
def emuWord (f : Frame) (i : Nat) : Nat := leAt f.payload (8 * i) 8

def emuOp (f : Frame) : Nat := nbits f.aux 7 0
def emuCount (f : Frame) : Nat := nbits (emuWord f 0) 63 32
def emuXfmt (f : Frame) : Nat := nbits (emuWord f 0) 11 8

/-- R445: a reserved bit set or a field out of range. -/
def emuBad (f : Frame) (d : EmbDesc) : Bool :=
  let w := emuWord f 0
  let op := emuOp f
  let x := emuXfmt f
  nbits w 31 14 != 0 || emuCount f == 0 || decide (2 ^ 24 < emuCount f) ||
  !(x == 6 || x == 9 || (op == 1 && x == 0)) || nbits (emuWord f 1) 63 57 != 0 || nbits (emuWord f 2) 63 57 != 0 ||
  nbits (emuWord f 3) 63 57 != 0 || emuWord f 7 != 0 || (op == 2 && nbits (emuWord f 6) 31 0 == 0) || (op == 3 && d.opt == 0)

/-- R444: reads and writes at the requester. -/
def emuFrameTo (f : Frame) (opcode a n : Nat) (data : List Byte) (poison : Bool) : Frame :=
  { dstModule := f.srcModule, dstUnit := f.srcUnit, srcUnit := 0x84, opcode := opcode, tc := f.tc, tenant := f.tenant,
    asid := f.asid, addr := a, len := n, payload := data, poison := poison }

/-- R441, R463: an unloaded table whose work is over goes. -/
def tableSettle (i : Nat) (h : Hub) : Hub :=
  match getTable i h with
  | none => h
  | some t =>
    if t.unloading && t.applying.isNone && !(h.emb.reqs.any (fun r => r.table == i)) then
      setEmb { h.emb with tables := Tab.erase h.emb.tables i } h
    else h

def tablesSettle (h : Hub) : Hub := (h.emb.tables.map (·.1)).foldl (fun x i => tableSettle i x) h

/-- R448: a request completes. -/
def endReq (r : EmuReq) (status detail : Nat) (h : Hub) : Hub :=
  let op0 := mkFld 31 0 r.entries + mkFld 63 32 r.notOk
  let op1 := mkFld 31 0 r.maxDups + mkFld 63 32 r.poisons
  let h1 := if status = stUnit ∧ detail = udStaleStep then count embPage 6 1 h else h
  let h2 := tableSettle r.table (dropReq r.n h1)
  if status = stOk then cloakAnswer r.frame status detail 0 op0 op1 h2 else cloakAnswer r.frame status detail 0 0 0 h2

/-- Cut a byte range at 4,096-byte boundaries: offset within the data, address, bytes. -/
def cutRange : Nat → Nat → Nat → Nat → List (Nat × Nat × Nat)
  | 0, _, _, _ => []
  | fuel + 1, off, a, n =>
    if n = 0 then []
    else
      let k := min n (4096 - a % 4096)
      (off, a, k) :: cutRange fuel (off + k) (a + k) (n - k)

def readsOf (kind : EmuKind) (base off n : Nat) : List (EmuKind × Nat × Nat × Nat) :=
  (cutRange (n / 4096 + 2) off (base + off) n).map (fun p => (kind, p.1, p.2.1, p.2.2))

/-- R446: positions of the window under way. -/
def windowLen (r : EmuReq) : Nat := min 65536 (emuCount r.frame - r.pos)

def gradBytes (f : Frame) (d : EmbDesc) : Nat := d.dim * embElem (emuXfmt f)

/-- The reads of the window that starts at position r.pos. -/
def windowReads (r : EmuReq) (d : EmbDesc) : List (EmuKind × Nat × Nat × Nat) :=
  let f := r.frame
  let w := windowLen r
  readsOf .idx (nbits (emuWord f 1) 56 0) (8 * r.pos) (8 * w) ++
  (if emuOp f = 3 then readsOf .grad (nbits (emuWord f 2) 56 0) (gradBytes f d * r.pos) (gradBytes f d * w) else []) ++
  (if emuOp f = 2 ∧ nbits (emuWord f 5) 56 0 ≠ 0 then readsOf .weight (nbits (emuWord f 5) 56 0) (4 * r.pos) (4 * w) else [])

def kindCode : EmuKind → Nat
  | .bag => 0 | .idx => 1 | .grad => 2 | .weight => 3

/-- Send reads, then writes, while fewer than 64 are outstanding; a send that fails ends the request (R448). -/
def emuSend : Nat → EmuReq → Hub → EmuReq × Hub
  | 0, r, h => (r, h)
  | fuel + 1, r, h =>
    if 64 ≤ r.reads + r.writes ∨ r.fail ≠ 0 then (r, h)
    else
      match r.todo with
      | (k, off, a, n) :: t =>
        match issueRemote (emuFrameTo r.frame 1 a n [] false) (.emuRead r.n (kindCode k) off) h with
        | .ok h1 => emuSend fuel { r with todo := t, reads := r.reads + 1 } h1
        | .error _ => ({ r with fail := udSourceFault }, h)
      | [] =>
        match r.outq with
        | (a, bs, p) :: t =>
          match issueRemote (emuFrameTo r.frame 2 a bs.length bs p) (.emuWrite r.n) h with
          | .ok h1 => emuSend fuel { r with outq := t, writes := r.writes + 1 } h1
          | .error _ => ({ r with fail := udSourceFault }, h)
        | [] => (r, h)

/- ### Windows (R446 to R450, R452) -/

/-- Bytes off to off+n−1 of data that came, and whether any was poisoned. -/
def dataAt (t : Tab (Byte × Bool)) (off n : Nat) : List Byte × Bool :=
  let l := (natRange off n).map (fun k => Tab.getD t k (0#8, false))
  (l.map (·.1), l.any (·.2))

/-- The row each position of the window names; none for a padding entry. -/
def windowRows (r : EmuReq) : List (Option Nat) :=
  (List.range (windowLen r)).map (fun i =>
    let w := ofBytesLE (dataAt r.idx (8 * (r.pos + i)) 8).1
    if w.testBit 63 then none else some (nbits w 39 0))

/-- Status codes of R446. -/
def rsOk : Nat := 0
def rsInvalid : Nat := 1
def rsNotHere : Nat := 2
def rsMoved : Nat := 3
def rsPoison : Nat := 4
def rsNonfinite : Nat := 5

/-- One distinct row of a window, as read once: status, peer, record's offset, row bytes. -/
structure RowRead where
  status : Nat
  peer : Nat
  off : Nat
  bytes : List Byte
  deriving DecidableEq, Repr

/-- R460: the bucket is frozen for this request. -/
def frozen (r : EmuReq) (k : Nat) (h : Hub) : Bool :=
  match h.emb.mig with
  | none => false
  | some m => m.table == r.table && m.bucket == k && decide (2 ≤ m.phase) && !m.early.contains r.n

/-- R446: the directory entry and record of a row, read once. -/
def readRow (d : EmbDesc) (x : Option Nat) (h : Hub) : RowRead × Hub :=
  match x with
  | none => (⟨rsInvalid, 0, 0, []⟩, h)
  | some row =>
    let k := row % d.buckets
    let p := row / d.buckets
    if d.rows ≤ p then (⟨rsInvalid, 0, 0, []⟩, h)
    else
      let e := dirEntry d k h
      if e.1.1 = 1 ∨ e.1.1 = 2 then
        let off := e.1.2.2 + p * d.size
        let b := tenantRead d.tenant off d.rowBytes e.2
        (⟨if b.1.2 then rsPoison else rsOk, 0, off, b.1.1⟩, count embPage 1 1 b.2)
      else if e.1.1 = 4 then (⟨rsMoved, e.1.2.1, 0, []⟩, e.2)
      else (⟨rsNotHere, 0, 0, []⟩, e.2)

def readEmbRows : EmbDesc → List (Option Nat) → Hub → List (Option Nat × RowRead) × Hub
  | _, [], h => ([], h)
  | d, x :: xs, h =>
    let a := readRow d x h
    let b := readEmbRows d xs a.2
    ((x, a.1) :: b.1, b.2)

def rowOf (rs : List (Option Nat × RowRead)) (x : Option Nat) : RowRead :=
  ((rs.find? (fun p => p.1 == x)).map (·.2)).getD ⟨rsInvalid, 0, 0, []⟩

/-- A row's elements converted to another format (R449). -/
def convertRow (sf df : Nat) (bs : List Byte) (n : Nat) : List Byte :=
  packElems df ((List.range n).map (fun i => (convert df 0 .nearest (elemVal sf 0 (elemBits sf bs i))).1))

/-- R449: bytes of an output row. -/
def gatherRow (f : Frame) (d : EmbDesc) (bs : List Byte) : List Byte :=
  if emuXfmt f = 0 then bs else convertRow d.fmt (emuXfmt f) bs d.dim

/-- Bytes of an output row's element. -/
def outElem (f : Frame) (d : EmbDesc) : Nat := if emuXfmt f = 0 then embElem d.fmt else embElem (emuXfmt f)

def outRow (f : Frame) (d : EmbDesc) (j : Nat) (bs : List Byte) (poison : Bool) : List (Nat × List Byte × Bool) :=
  (replyPieces (bs.length / 4096 + 2) (nbits (emuWord f 2) 56 0 + j * d.dim * outElem f d) bs).map (fun p => (p.1, p.2, poison))

/-- An element as FP32, exactly. -/
def laneFrom (fmt : Nat) (bs : List Byte) (i : Nat) : Lane := laneOf 0 0 (elemVal fmt 0 (elemBits fmt bs i))

def laneNat (n : Nat) : Lane := laneOf 0 0 (.fin false n 0)

/-- R450: element j of the bag offsets. -/
def bagAt (r : EmuReq) (j : Nat) : Nat := ofBytesLE (dataAt r.bag (4 * j) 4).1

def bagsOf (f : Frame) : Nat := nbits (emuWord f 6) 31 0

/-- R450: a malformed offset. -/
def bagBad (r : EmuReq) : Bool :=
  bagAt r 0 != 0 || bagAt r (bagsOf r.frame) != emuCount r.frame ||
  (List.range (bagsOf r.frame)).any (fun j => decide (bagAt r (j + 1) < bagAt r j))

/-- R450: the row of a bag that is complete, and the next bag. -/
def bagEmit (r : EmuReq) (d : EmbDesc) : EmuReq :=
  let f := r.frame
  let n := bagAt r (r.cur + 1) - bagAt r r.cur
  let acc := if r.acc = [] then List.replicate d.dim 0#32 else r.acc
  let acc := if (emuWord f 0).testBit 12 ∧ 0 < n then acc.map (fun x => laneMul x (Config.vecRecip (laneNat n))) else acc
  let bs := packElems (emuXfmt f) (acc.map (fun x => (convert (emuXfmt f) 0 .nearest (laneVal x)).1))
  { r with cur := r.cur + 1, acc := [], accPoison := false, outq := r.outq ++ outRow f d r.cur bs r.accPoison }

/-- Bags that end at or before a position. -/
def bagsDone (pos : Nat) (d : EmbDesc) : Nat → EmuReq → EmuReq
  | 0, r => r
  | fuel + 1, r =>
    if r.cur < bagsOf r.frame ∧ bagAt r (r.cur + 1) ≤ pos then bagsDone pos d fuel (bagEmit r d) else r

/-- R450: one term. A poisoned weight poisons the bag as a poisoned row does (log entry 24). -/
def poolTerm (d : EmbDesc) (i : Nat) (row : List Byte) (poison : Bool) (r0 : EmuReq) : EmuReq :=
  let r := bagsDone (r0.pos + i) d (bagsOf r0.frame + 1) r0
  let hasW := decide (nbits (emuWord r.frame 5) 56 0 ≠ 0)
  let w := dataAt r.weight (4 * (r.pos + i)) 4
  let wl : Lane := if hasW then laneAt w.1 0 else 0x3F800000#32
  let acc := if r.acc = [] then List.replicate d.dim 0#32 else r.acc
  { r with
    acc := (List.range d.dim).map (fun e => laneAdd (nth acc e 0#32) (laneMul wl (laneFrom d.fmt row e)))
    accPoison := r.accPoison || poison || (hasW && w.2) }

/-- R452: q of an FP32 gradient element; none for a NaN. -/
def embQ (frac : Nat) (v : FVal) : Option Int :=
  let top : Int := ((2 ^ 62 : Nat) : Int)
  match v with
  | .nan => none
  | .inf n => some (if n then -top else top)
  | .fin n m e =>
    let x := e + (frac : Int)
    let a : Nat := if 0 ≤ x then m <<< x.toNat else roundShift .nearestEven m (-x).toNat
    some (signedOf n (min a (2 ^ 62)))

/-- One contribution to a record: R452. The answer is its status. -/
def combine (i row : Nat) (d : EmbDesc) (rd : RowRead) (grad : List Byte) (gPoison : Bool) (xfmt : Nat) (h : Hub) : Nat × Hub :=
  let a := rd.off + d.hdr
  let n := 16 + 8 * d.dim
  let b := tenantRead d.tenant a n h
  if b.1.2 then (rsPoison, b.2)
  else
    let w0 := leAt b.1.1 0 8
    let bound := leAt b.1.1 8 8
    if rd.status = rsPoison ∨ gPoison then (rsPoison, recWrite d a (bytesLE 8 (w0 ||| maskOf 33 33)) b.2)
    else
      let qs := (List.range d.dim).map (fun e => embQ d.frac (elemVal xfmt 0 (elemBits xfmt grad e)))
      let nan := qs.any (·.isNone)
      let q (e : Nat) : Int := (nth qs e none).getD 0
      let mx := (List.range d.dim).foldl (fun m e => max m (q e).natAbs) 0
      let cnt := nbits w0 31 0
      let w1 := mkFld 31 0 (min (cnt + 1) 0xFFFFFFFF) + mkFld 63 32 (nbits w0 63 32) 
      let w2 := if nan then w1 ||| maskOf 32 32 else w1
      let acc := (List.range d.dim).flatMap (fun e =>
        bytesLE 8 (wrapInt 64 (sextNat 64 (leAt b.1.1 (16 + 8 * e) 8) + q e)))
      let h1 := recWrite d a (bytesLE 8 w2 ++ bytesLE 8 (min (bound + mx) 0xFFFFFFFFFFFFFFFF) ++ acc) b.2
      (if nan then rsNonfinite else rsOk, if cnt = 0 then touchLog i row h1 else h1)

/-- R452: the contributions of a window, by ascending position: the positions' statuses. -/
def scatterWindow (r : EmuReq) (d : EmbDesc) (rs : List (Option Nat × RowRead)) : List (Nat × Option Nat) → Hub → List Nat × Hub
  | [], h => ([], h)
  | (i, x) :: t, h =>
    let rd := rowOf rs x
    let g := dataAt r.grad (gradBytes r.frame d * (r.pos + i)) (gradBytes r.frame d)
    let a := if rd.status = rsOk ∨ rd.status = rsPoison then combine r.table (x.getD 0) d rd g.1 g.2 (emuXfmt r.frame) h
      else (rd.status, h)
    let b := scatterWindow r d rs t a.2
    (a.1 :: b.1, b.2)

/-- R446: the default row is read once per request. -/
def needDefault (r : EmuReq) (d : EmbDesc) (h : Hub) : EmuReq × Hub :=
  match r.dflt with
  | some _ => (r, h)
  | none =>
    let b := tenantRead d.tenant d.dflt d.rowBytes h
    ({ r with dflt := some b.1 }, b.2)

/-- A position's row bytes and poison (R446). -/
def servedRow (r : EmuReq) (rd : RowRead) : List Byte × Bool :=
  if rd.status = rsOk then (rd.bytes, false)
  else if rd.status = rsPoison then (rd.bytes, true)
  else r.dflt.getD ([], false)

/-- R459: the counts of positions served per bucket. -/
def loadCounts (r : EmuReq) (d : EmbDesc) (served : List (Option Nat × Nat)) (h : Hub) : Hub :=
  let good := served.filterMap (fun p => if p.2 = rsOk ∨ p.2 = rsPoison then p.1.map (· % d.buckets) else none)
  (dedup good).foldl (fun x k =>
    let n := (good.filter (· == k)).length
    match engAtomic (d.load + 16 * k + (if emuOp r.frame = 3 then 8 else 0)) 8 1 n 0 d.tenant x with
    | some y => y.2
    | none => poolFull x) h

/-- R447: the report entry of one distinct row: its position statuses where they agree, else a free value (log entry 25). -/
def reportEntry (r : EmuReq) (x : Option Nat) (rd : RowRead) (sts : List Nat) (dups first : Nat) (h : Hub) : List Byte × Hub :=
  let s := nth sts 0 rd.status
  let f := if sts.all (· == s) then (s, h) else (fld (fresh h).1 3 0, (fresh h).2)
  (bytesLE 8 (mkFld 39 0 (x.getD 0) + mkFld 43 40 f.1 + mkFld 53 44 (if rd.status = rsMoved then rd.peer else 0)) ++
   bytesLE 8 (mkFld 31 0 dups + mkFld 63 32 (r.pos + first)), f.2)

/-- R447, R448: the report entries of a window and its counts. -/
def reportWindow (rows : List (Option Nat)) (sts : List Nat) (rs : List (Option Nat × RowRead)) (r0 : EmuReq) (h0 : Hub) : EmuReq × Hub :=
  rs.foldl (fun (acc : EmuReq × Hub) p =>
    let r := acc.1
    let ps := (List.zip rows sts).filter (fun q => q.1 == p.1)
    let first := (rows.findIdx? (fun y => y == p.1)).getD 0
    let e := reportEntry r p.1 p.2 (ps.map (·.2)) ps.length first acc.2
    let out := if (emuWord r.frame 0).testBit 13 then
        (replyPieces 3 (nbits (emuWord r.frame 3) 56 0 + 16 * r.entries) e.1).map (fun q => (q.1, q.2, false))
      else []
    ({ r with entries := r.entries + 1, maxDups := max r.maxDups ps.length, outq := r.outq ++ out }, e.2)) (r0, h0)

/-- R446: the window whose data is in is worked. -/
def workWindow (r0 : EmuReq) (d : EmbDesc) (h0 : Hub) : EmuReq × Hub :=
  let f := r0.frame
  let rows := windowRows r0
  let rd := readEmbRows d (dedup rows) h0
  let rs := rd.1
  let isScatter := emuOp f == 3
  let useDflt := !isScatter && rs.any (fun p => p.2.status = rsInvalid ∨ p.2.status = rsNotHere ∨ p.2.status = rsMoved)
  let dr := if useDflt then needDefault r0 d rd.2 else (r0, rd.2)
  let numbered := List.zip (List.range rows.length) rows
  let sc := if isScatter then scatterWindow r0 d rs numbered dr.2 else (rows.map (fun x => (rowOf rs x).status), dr.2)
  let sts := sc.1
  let r1 :=
    if emuOp f = 1 then
      { dr.1 with outq := dr.1.outq ++ numbered.flatMap (fun p =>
          let s := servedRow dr.1 (rowOf rs p.2)
          outRow f d (r0.pos + p.1) (gatherRow f d s.1) s.2) }
    else if emuOp f = 2 then
      let r := numbered.foldl (fun r p => let s := servedRow r (rowOf rs p.2); poolTerm d p.1 s.1 s.2 r) dr.1
      if r.pos + windowLen r = emuCount f then bagsDone (emuCount f) d (bagsOf f + 1) r else r
    else dr.1
  let h1 := loadCounts r1 d (List.zip rows sts) sc.2
  let rp := reportWindow rows sts rs r1 h1
  let bad := (sts.filter (· ≠ rsOk)).length
  let pois := (sts.filter (· == rsPoison)).length
  let served := (rows.filter (fun x => (rowOf rs x).status = rsOk ∨ (rowOf rs x).status = rsPoison)).length
  let reads := (rs.filter (fun p => p.2.status = rsOk ∨ p.2.status = rsPoison)).length
  let dropped := (sts.filter (fun s => s ≠ rsOk ∧ s ≠ rsNonfinite)).length
  let h2 := count embPage 2 (served - reads) (count embPage 0 rows.length rp.2)
  let h3 := if isScatter then count embPage 5 dropped (count embPage 4 (rows.length - dropped) h2)
    else count embPage 3 (rows.length - served) h2
  ({ rp.1 with notOk := rp.1.notOk + bad, poisons := rp.1.poisons + pois, pos := r0.pos + rows.length, idx := [], grad := [], weight := [] }, h3)

/-- A request whose data is all in and whose writes are done goes on: the next window, or its completion. -/
def emuGo : Nat → Nat → Hub → Hub
  | 0, _, h => h
  | fuel + 1, n, h =>
    match findReq n h with
    | none => h
    | some r =>
      match getTable r.table h with
      | none => endReq r stUnit udNoTable h
      | some t =>
        let s := emuSend 128 r h
        let r := s.1
        let h1 := putReq r s.2
        if r.fail ≠ 0 then endReq r stUnit r.fail h1
        else if r.reads + r.writes ≠ 0 ∨ r.todo ≠ [] ∨ r.outq ≠ [] then h1
        else if emuOp r.frame = 2 ∧ !r.bagOk then
          if bagBad r then endReq r stUnit udBadDesc h1
          else emuGo fuel n (putReq { r with bagOk := true, todo := windowReads r t.d } h1)
        else if r.pos = emuCount r.frame then endReq r stOk 0 h1
        else if r.idx = [] then emuGo fuel n (putReq { r with todo := windowReads r t.d } h1)
        else if (windowRows r).any (fun x => match x with | some row => frozen r (row % t.d.buckets) h1 | none => false) then
          putReq { r with stalled := true } h1
        else
          let w := workWindow { r with stalled := false } t.d h1
          emuGo fuel n (putReq w.1 w.2)

/-- Enough fuel for one window's steps; further windows wait for reads. -/
def emuFuel : Nat := 8

/-- R451, R456: may a queued request start? -/
def mayStart (r : EmuReq) (t : EmbTable) : Bool :=
  t.applying.isNone && (emuOp r.frame != 3 || nbits (emuWord r.frame 6) 63 32 == (t.lastStep + 1) % 2 ^ 32)

/-- R456: a queued scatter whose step has passed. -/
def staleReq (r : EmuReq) (t : EmbTable) : Bool :=
  emuOp r.frame == 3 && serialCmp t.lastStep (nbits (emuWord r.frame 6) 63 32) 32 != .after

/-- Queued requests start, and windows that waited for a frozen bucket are tried again. -/
def emuPump (h : Hub) : Hub :=
  h.emb.reqs.foldl (fun x r0 =>
    match findReq r0.n x with
    | none => x
    | some r =>
      match getTable r.table x with
      | none => x
      | some t =>
        if r.started then (if r.stalled then emuGo emuFuel r.n x else x)
        else if staleReq r t then endReq r stUnit udStaleStep x
        else if mayStart r t then
          let first := if emuOp r.frame = 2 then readsOf .bag (nbits (emuWord r.frame 4) 56 0) 0 (4 * (bagsOf r.frame + 1)) else []
          emuGo emuFuel r.n (putReq { r with started := true, todo := first } x)
        else x) h

/-- R445: a request is checked, and admitted or answered. -/
def emuRequest (f : Frame) (h : Hub) : Hub :=
  let i := nbits (emuWord f 0) 7 0
  if f.len ≠ 64 ∨ f.payload.length ≠ 64 then cloakAnswer f stBadRequest 0 0 0 0 h
  else if 64 ≤ h.emb.reqs.length ∨ !enabled embPage h then cloakAnswer f stBusy 0 0 0 0 h
  else
    match getTable i h with
    | none => cloakAnswer f stUnit udNoTable 0 0 0 h
    | some t =>
      if t.unloading then cloakAnswer f stUnit udNoTable 0 0 0 h
      else if f.tenant ≠ t.d.tenant then cloakAnswer f stDenied 0 0 0 0 h
      else if emuBad f t.d then cloakAnswer f stUnit udBadDesc 0 0 0 h
      else
        let step := nbits (emuWord f 6) 63 32
        let stale := emuOp f == 3 && (serialCmp t.lastStep step 32 != .after ||
          (match t.applying with | some s => serialCmp s step 32 != .after | none => false))
        if stale then cloakAnswer f stUnit udStaleStep 0 0 0 (count embPage 6 1 h)
        else
          let r : EmuReq := { n := h.emb.nextReq, frame := f, table := i }
          emuPump (setEmb { h.emb with reqs := h.emb.reqs ++ [r], nextReq := h.emb.nextReq + 1 } (meterAdd f.tenant 6 1 h))

/-- A read of a request completes (R448). -/
def emuReadDone (n kind off status : Nat) (poison : Bool) (data : List Byte) (h : Hub) : Hub :=
  match findReq n h with
  | none => h
  | some r =>
    if status ≠ stOk ∧ status ≠ stPoisoned then endReq r stUnit udSourceFault h
    else
      let put (t : Tab (Byte × Bool)) : Tab (Byte × Bool) :=
        (List.zip (natRange off data.length) data).foldl (fun a p => Tab.set a p.1 (p.2, poison || status == stPoisoned)) t
      let r1 := if kind = 0 then { r with bag := put r.bag } else if kind = 1 then { r with idx := put r.idx }
        else if kind = 2 then { r with grad := put r.grad } else { r with weight := put r.weight }
      emuGo emuFuel n (putReq { r1 with reads := r.reads - 1 } h)

/-- A write of a request completes (R448). -/
def emuWriteDone (n status : Nat) (h : Hub) : Hub :=
  match findReq n h with
  | none => h
  | some r =>
    if status ≠ stOk ∧ status ≠ stPoisoned then endReq r stUnit udSourceFault h
    else emuGo emuFuel n (putReq { r with writes := r.writes - 1 } h)

/- ### Step-end apply (R455 to R458) -/

/-- R456: step s is applied next, or waits while the unit is disabled or an apply runs. -/
def emuFire (i s : Nat) (h : Hub) : Hub :=
  match getTable i h with
  | none => h
  | some t =>
    if enabled embPage h && t.applying.isNone then putTable i { t with applying := some s } h
    else putTable i { t with fires := t.fires ++ [s] } h

/-- A waiting firing of table i starts; one whose step is not after LAST_STEP does not (R455). -/
def emuNextFire (i : Nat) : Nat → Hub → Hub
  | 0, h => h
  | fuel + 1, h =>
    match getTable i h with
    | none => h
    | some t =>
      match t.fires with
      | [] => h
      | s :: rest =>
        if t.applying.isSome || !enabled embPage h then h
        else if serialCmp t.lastStep s 32 == .after then putTable i { t with fires := rest, applying := some s } h
        else emuNextFire i fuel (putTable i { t with fires := rest } h)

/-- R462: the unit is enabled again. -/
def emuResume (h : Hub) : Hub := (h.emb.tables.map (·.1)).foldl (fun x i => emuNextFire i 64 x) h

/-- R455, R227: the step whose due position an advance of `dist` from (step, pos) crosses last. -/
def stepEnd (d : EmbDesc) (lastStep step pos m : Nat) (dist : Int) : Option Nat :=
  let k := ((pos : Int) + dist - (d.applyPos : Int)).fdiv (m : Int)
  let due := k * (m : Int) + (d.applyPos : Int) - (pos : Int)
  let s := wrapInt 32 ((step : Int) + k)
  if 0 < due ∧ due ≤ dist ∧ serialCmp lastStep s 32 = .after then some s else none

/-- R455: the step-end drawers see an accepted advance; while the Cursor Engine is off the latest crossing is kept (R237). -/
def emuSee (c step pos : Nat) (dist : Int) (h : Hub) : Hub :=
  h.emb.tables.foldl (fun (x : Hub) (e : Nat × EmbTable) =>
    match getTable e.1 x with
    | none => x
    | some t =>
      if t.d.applyEn && t.d.cursor == c then
        let s := if 0 < dist then stepEnd t.d t.lastStep step pos (getCursor c x).m dist else none
        if enabled curPage x then
          let x1 := match t.missed with
            | some s0 => emuFire e.1 s0 (putTable e.1 { t with missed := none } x)
            | none => x
          match s with
          | some s1 => emuFire e.1 s1 x1
          | none => x1
        else
          match s with
          | some s1 => putTable e.1 { t with missed := some s1 } x
          | none => x
      else x) h

/-- Every accepted advance since the last look (R455). -/
def emuDrain (h : Hub) : Hub :=
  (h.cur.moved).foldl (fun x a => emuSee a.1 a.2.1 a.2.2.1 a.2.2.2 x) { h with cur := { h.cur with moved := [] } }

/-- What applying one row comes to. -/
inductive RowApply | applied | poisoned | nonfinite | saturated
  deriving DecidableEq, Repr

/-- R457: the new row and state of a record, from its row, state and g. -/
def applyMath (d : EmbDesc) (s row : Nat) (bs : List Byte) (acc : List Byte) : List Byte :=
  let g := (List.range d.dim).map (fun e =>
    let a := sextNat 64 (leAt acc (8 * e) 8)
    laneOf 0 0 (.fin (decide (a < 0)) a.natAbs (-(d.frac : Int))))
  let stAt (e : Nat) : Lane := BitVec.ofNat 32 (leAt bs (d.rowBytes + 4 * e) 4)
  let rowA : Lane :=
    let sum := g.foldl (fun x y => laneAdd x (laneMul y y)) 0#32
    laneAdd (stAt 0) (laneMul sum (Config.vecRecip (laneNat d.dim)))
  let st1 (e : Nat) : Lane := if d.opt = 2 then rowA else laneAdd (stAt e) (laneMul (nth g e 0#32) (nth g e 0#32))
  let u (e : Nat) : Lane :=
    if d.opt = 1 then nth g e 0#32
    else laneMul (nth g e 0#32) (Config.vecRsqrt (laneAdd (st1 (if d.opt = 2 then 0 else e)) d.eps))
  let z := mixRandom d.seed (w64 s)
  let w (e : Nat) : Nat :=
    let x := laneSub (laneFrom d.fmt bs e) (laneMul (u e) d.lr)
    (convert d.fmt 0 (if d.sr ∧ roundsTo 9 d.fmt then .random (mixRandom z (w64 (row * d.dim + e))) else .nearest) (laneVal x)).1
  packElems d.fmt ((List.range d.dim).map w) ++
    (List.range (d.stateBytes / 4)).flatMap (fun e => bytesLE 4 (st1 e).toNat)

/-- R457: one record. -/
def applyRow (d : EmbDesc) (s row off : Nat) (h : Hub) : RowApply × Hub :=
  let b := tenantRead d.tenant off d.size h
  if b.1.2 then (.poisoned, b.2)
  else
    let hd := leAt b.1.1 d.hdr 8
    let bound := leAt b.1.1 (d.hdr + 8) 8
    let clear := List.replicate (16 + 8 * d.dim) 0#8
    let skip (c : RowApply) : RowApply × Hub := (c, recWrite d (off + d.hdr) clear b.2)
    if hd.testBit 33 then skip .poisoned
    else if hd.testBit 32 then skip .nonfinite
    else if 2 ^ 63 ≤ bound then skip .saturated
    else
      let new := applyMath d s row b.1.1 (sliceBytes b.1.1 (d.hdr + 16) (8 * d.dim))
      let pad := sliceBytes b.1.1 new.length (d.hdr - new.length)
      (.applied, recWrite d off (new ++ pad ++ clear) b.2)

/-- The rows of a table to apply: the logged ones, or every record with COUNT > 0 (R456). A logged row whose bucket has
left is the destination's (log entry 26). -/
def touchedRows (d : EmbDesc) (used : Nat) (h : Hub) : List (Nat × Nat) × Hub :=
  if d.opt = 0 then ([], h)
  else if used ≤ d.logSize then
    (List.range used).foldl (fun (acc : List (Nat × Nat) × Hub) j =>
      let r := ownRead64 (d.log + 8 * j) acc.2
      let row := nbits r.1.1 39 0
      let e := dirEntry d (row % d.buckets) r.2
      if !r.1.2 && (e.1.1 = 1 ∨ e.1.1 = 2) then (acc.1 ++ [(row, e.1.2.2 + row / d.buckets * d.size)], e.2) else (acc.1, e.2)) ([], h)
  else
    (List.range d.buckets).foldl (fun (acc : List (Nat × Nat) × Hub) k =>
      let e := dirEntry d k acc.2
      if e.1.1 = 1 ∨ e.1.1 = 2 then
        (List.range d.rows).foldl (fun (a : List (Nat × Nat) × Hub) p =>
          let off := e.1.2.2 + p * d.size
          let c := ownRead64 (off + d.hdr) a.2
          if nbits c.1.1 31 0 ≠ 0 then (a.1 ++ [(k + p * d.buckets, off)], c.2) else (a.1, c.2)) (acc.1, e.2)
      else (acc.1, e.2)) ([], h)

/-- R460: an apply during Copy restarts the copy. -/
def copyRestart (i : Nat) (h : Hub) : Hub :=
  match h.emb.mig with
  | some m => if m.table = i ∧ m.phase = 1 then setEmb { h.emb with mig := some { m with next := 0 } } h else h
  | none => h

/- ### Migration (R460) -/

/-- The bytes of one record, cut into WRITE frames to the destination. -/
def migFrames (d : EmbDesc) (m : EmbMig) (off p : Nat) (h : Hub) : List Frame × Hub :=
  let b := tenantRead d.tenant off d.size h
  let a := mkFld 55 46 m.dest + mkFld 45 0 (m.base + p * d.size)
  ((replyPieces (d.size / 4096 + 2) a b.1.1).map (fun q =>
    { dstModule := m.dest, dstUnit := 0x80, srcUnit := 0x84, opcode := 2, tenant := d.tenant, addr := q.1, len := q.2.length,
      payload := q.2, poison := b.1.2 }), b.2)

/-- R460: a migration ends other than OK. -/
def migFail (result : Nat) (h : Hub) : Hub :=
  match h.emb.mig with
  | none => h
  | some m =>
    let h1 := setEmb { h.emb with mig := none, migResult := result } h
    let h2 := match getTable m.table h1 with
      | some t =>
        let e := dirEntry t.d m.bucket h1
        dirWrite t.d m.bucket 1 0 e.1.2.2 e.2
      | none => h1
    emuPump (raiseEvent embPage 1 (raise embPage 18 h2))

/-- Send frames of the migration; none where one cannot be sent. -/
def migSend (fs : List Frame) (p : Purpose) (h : Hub) : Option Hub :=
  fs.foldl (fun (acc : Option Hub) f => acc.bind (fun x =>
    match issueRemote f p x with
    | .ok y =>
      (match y.emb.mig with
       | some m => some (setEmb { y.emb with mig := some { m with waits := m.waits + 1 } } y)
       | none => some y)
    | .error _ => none)) (some h)

/-- R460, Copy: records are sent while fewer than 64 writes are outstanding. -/
def migCopy : Nat → Hub → Hub
  | 0, h => h
  | fuel + 1, h =>
    match h.emb.mig with
    | none => h
    | some m =>
      match getTable m.table h with
      | none => h
      | some t =>
        if m.phase ≠ 1 ∨ 64 ≤ m.waits ∨ t.d.rows ≤ m.next then h
        else
          let e := dirEntry t.d m.bucket h
          let fs := migFrames t.d m (e.1.2.2 + m.next * t.d.size) m.next e.2
          match migSend fs.1 (.migWrite m.gen) (setEmb { fs.2.emb with mig := some { m with next := m.next + 1 } } fs.2) with
          | some h1 => migCopy fuel h1
          | none => migFail 3 fs.2

/-- R460: START. -/
def migStart (h : Hub) : Hub :=
  let r := getReg embPage 0x50 h
  let i := fld r 7 0
  let k := fld r 23 8
  let refuse := setEmb { h.emb with migResult := 1 } h
  match getTable i h, h.emb.mig with
  | some t, none =>
    if t.d.buckets ≤ k then refuse
    else
      let e := dirEntry t.d k h
      if e.1.1 ≠ 1 then setEmb { e.2.emb with migResult := 1 } e.2
      else
        let f := fresh (dirWrite t.d k 2 (fld r 33 24) e.1.2.2 e.2)
        let m : EmbMig := { table := i, bucket := k, dest := fld r 33 24, phase := 1, next := 0, waits := 0,
                            base := fld f.1 45 6 * 64, early := [], gen := f.2.emb.nextMig }
        migCopy 65 (setEmb { f.2.emb with mig := some m, nextMig := m.gen + 1 } f.2)
  | _, _ => refuse

/-- R460: the copy ends; Freeze begins. -/
def migCopyDone (h : Hub) : Hub :=
  match h.emb.mig with
  | none => h
  | some m =>
    match getTable m.table h with
    | none => h
    | some t =>
      if m.phase = 1 ∧ m.waits = 0 ∧ t.d.rows ≤ m.next ∧ t.applying = none then
        setEmb { h.emb with mig := some { m with phase := 2, early := (h.emb.reqs.filter (fun r => r.started)).map (·.n) } } h
      else h

/-- The cutover frame (log entry 23 for its payload). -/
def cutoverFrame (m : EmbMig) (t : EmbTable) : Frame :=
  { dstModule := m.dest, dstUnit := 0x84, srcUnit := 0x84, opcode := 0x11, tenant := t.d.tenant, aux := 0x20, len := 8,
    payload := bytesLE 8 (mkFld 7 0 m.table + mkFld 23 8 m.bucket + mkFld 63 32 t.lastStep) }

/-- R460: records whose COUNT > 0 are written again, and the cutover is sent. -/
def migFreezeDone (h : Hub) : Hub :=
  match h.emb.mig with
  | none => h
  | some m =>
    match getTable m.table h with
    | none => h
    | some t =>
      let busy := h.emb.reqs.any (fun r => m.early.contains r.n && r.table == m.table && emuOp r.frame == 3)
      if m.phase = 2 ∧ !busy then
        let d := t.d
        let e := dirEntry d m.bucket h
        let h1 := setEmb { e.2.emb with mig := some { m with phase := 3 } } e.2
        let h2 := if d.opt = 0 then some h1 else (List.range d.rows).foldl (fun (acc : Option Hub) p => acc.bind (fun x =>
          let off := e.1.2.2 + p * d.size
          let c := ownRead64 (off + d.hdr) x
          if nbits c.1.1 31 0 ≠ 0 then
            let fs := migFrames d m off p c.2
            migSend fs.1 (.migWrite m.gen) fs.2
          else some c.2)) (some h1)
        match h2.bind (migSend [cutoverFrame m t] (.migCutover m.gen)) with
        | some h3 => h3
        | none => migFail 3 h1
      else h

/-- R460: an answer to a write or to the cutover of migration `gen`. -/
def migAnswer (gen status detail : Nat) (h : Hub) : Hub :=
  match h.emb.mig with
  | none => h
  | some m =>
    if m.gen ≠ gen then h
    else if status ≠ stOk then migFail (if status = stUnit ∧ detail = udStaleStep then 2 else 3) h
    else
      let m1 := { m with waits := m.waits - 1 }
      let h1 := setEmb { h.emb with mig := some m1 } h
      if m1.phase = 1 then migCopy 65 h1
      else if m1.phase = 3 ∧ m1.waits = 0 then
        let h2 := setEmb { h1.emb with mig := none, migResult := 0 } h1
        let h3 := match getTable m.table h2 with
          | some t =>
            let e := dirEntry t.d m.bucket h2
            dirWrite t.d m.bucket 4 m.dest e.1.2.2 e.2
          | none => h2
        emuPump (raiseEvent embPage 1 (count embPage 9 1 h3))
      else h1

/-- R460: a cutover arrives at the destination (log entry 23 for what it is refused with). -/
def cutoverRecv (f : Frame) (h : Hub) : Hub :=
  let w := leAt f.payload 0 8
  let i := nbits w 7 0
  let k := nbits w 23 8
  if f.payload.length ≠ 8 ∨ f.len ≠ 8 then cloakAnswer f stBadRequest 0 0 0 0 h
  else
    match getTable i h with
    | none => cloakAnswer f stUnit udNoTable 0 0 0 h
    | some t =>
      let e := dirEntry t.d k h
      if t.unloading then cloakAnswer f stUnit udNoTable 0 0 0 h
      else if t.d.buckets ≤ k ∨ e.1.1 ≠ 3 then cloakAnswer f stUnit udBadDesc 0 0 0 e.2
      else if nbits w 63 32 ≠ t.lastStep then cloakAnswer f stUnit udStaleStep 0 0 0 e.2
      else
        let h1 := dirWrite t.d k 1 0 e.1.2.2 e.2
        let h2 := if t.d.opt = 0 then h1 else (List.range t.d.rows).foldl (fun x p =>
          let c := ownRead64 (e.1.2.2 + p * t.d.size + t.d.hdr) x
          if nbits c.1.1 31 0 ≠ 0 then touchLog i (k + p * t.d.buckets) c.2 else c.2) h1
        cloakAnswer f stOk 0 0 0 0 h2

/-- R456, R458: no started scatter of the table is left: the apply is done, its record written, held requests released. -/
def emuApplyDone (i : Nat) (h : Hub) : Hub :=
  match getTable i h with
  | none => h
  | some t =>
    match t.applying with
    | none => h
    | some s =>
      if h.emb.reqs.any (fun r => r.table == i && r.started && emuOp r.frame == 3) then h
      else
        let d := t.d
        let rows := touchedRows d t.logUsed h
        let a := rows.1.foldl (fun (acc : List RowApply × Hub) p =>
          let x := applyRow d s p.1 p.2 acc.2
          (acc.1 ++ [x.1], x.2)) ([], rows.2)
        let n (c : RowApply) : Nat := (a.1.filter (· == c)).length
        let skipped := a.1.length - n .applied
        let rec_ := bytesLE 8 (bit01 (decide (0 < skipped)) + mkFld 8 8 (bit01 (decide (d.logSize < t.logUsed))) + mkFld 63 32 s) ++
          bytesLE 8 (mkFld 31 0 (n .applied) + mkFld 63 32 skipped) ++ bytesLE 8 a.2.devTime ++
          bytesLE 8 (mkFld 31 0 (n .saturated) + mkFld 63 32 (n .poisoned))
        let h1 := tableSave i { t with lastStep := s, logUsed := 0, applying := none } (recWrite d d.cpl rec_ a.2)
        let h2 := count embPage 10 1 (count embPage 8 skipped (count embPage 7 (n .applied) h1))
        let h3 := raiseEvent embPage 0 (if 0 < skipped then raiseEvent embPage 2 h2 else h2)
        tablesSettle (emuPump (emuNextFire i 64 (migCopy 65 (copyRestart i h3))))

/- ### Commands (R463) -/

def tableResult (r : Nat) (h : Hub) : Hub := setEmb { h.emb with cmdResult := r } h

def tableMigrating (i : Nat) (h : Hub) : Bool := match h.emb.mig with | some m => m.table == i | none => false

/-- R441: LOAD. -/
def tableLoad (i : Nat) (h : Hub) : Hub :=
  if tableMigrating i h then tableResult 2 h
  else
    let b := storeRead (mkFld 45 15 (regFld embPage 0x40 45 15 h) + 128 * i) 128 h
    if (getTable i h).isSome || b.1.2 || embBad b.1.1 b.2 then raise embPage 17 (tableResult 1 b.2)
    else
      let w := descWord b.1.1 9
      tableResult 0 (putTable i { desc := b.1.1, lastStep := nbits w 31 0, logUsed := nbits w 63 32 } b.2)

/-- R463: UNLOAD. -/
def tableUnload (i : Nat) (h : Hub) : Hub :=
  if tableMigrating i h then tableResult 2 h
  else
    match getTable i h with
    | none => tableResult 0 h
    | some t => tableResult 0 (tableSettle i (putTable i { t with unloading := true } h))

/-- R462, R463: the EMB page's registers that show the unit's state. -/
def embView (off : Nat) (h : Hub) : Option Nat :=
  if off = 0x4C then some (mkFld 31 30 h.emb.cmdResult)
  else if off = 0x5C then some (mkFld 7 4 (match h.emb.mig with | some m => m.phase | none => 0) + mkFld 3 0 h.emb.migResult)
  else none

/-- A reset of the module: tables unloaded, requests gone. -/
def embReset (h : Hub) : Hub := setEmb {} h

end Sys2Proof.Machine
end

