-- ==== Sys2Proof/Machine/Meter.lean ====
section
/-!
DEFINITION. The METER block (R513 to R515, R526): clearing, the snapshot, the occupancy samples.
-/
namespace Sys2Proof.Machine

def meterPage : Nat := 0xE0

def meterSel (h : Hub) : Nat := regFld meterPage 0x40 11 0 h

/-- R513: counter i of a tenant as it reads. -/
def meterValue (m : Meter) (i : Nat) : Nat := nth m.raw i 0 / meterUnit i

/-- R526: CLEAR zeroes the selected tenant's counters. -/
def meterClear (h : Hub) : Hub := { h with meter := { h.meter with tenants := Tab.erase h.meter.tenants (meterSel h) } }

/-- R515: SNAPSHOT takes every tenant's counters; no effect while one is being written. -/
def meterSnapshot (h : Hub) : Hub :=
  if h.meter.snap.isSome then h
  else { h with meter := { h.meter with snap := some h.meter.tenants, stamp := h.devTime % 2 ^ 48 } }

/-- The eight counters of one tenant in order. -/
def meterBytes (m : Meter) : List Byte := (List.range 8).flatMap (fun i => bytesLE 8 (meterValue m i))

/-- The 256 KiB of a snapshot from tenant t on. -/
def snapBytes (s : Tab Meter) (t n : Nat) : List Byte := (natRange t n).flatMap (fun k => meterBytes (Tab.getD s k {}))

/-- R515: the copy ends: tenant t's entry at offset 64t, by tiles of 1,024 tenants. -/
def snapshotDone (h : Hub) : Hub :=
  match h.meter.snap with
  | none => h
  | some s =>
    let base := mkFld 45 16 (regFld meterPage 0x90 45 16 h)
    let h1 := [0, 1, 2, 3].foldl (fun x k =>
      match storeWrite (base + 65536 * k) (snapBytes s (1024 * k) 1024) false 0 x with
      | some y => y
      | none => poolFull x) h
    raiseEvent meterPage 0 { h1 with meter := { h1.meter with snap := none } }

/-- R513: slots by owner, each ms; granules by owner, each second. -/
def meterSample (h : Hub) : Hub :=
  let ms := h.devTime / 1000000
  let sec := h.devTime / 1000000000
  let h1 :=
    if h.meter.ms < ms then
      (h.tier.tiles.filter (fun t => holdsSlot t.2.st)).foldl (fun x t => meterAdd t.2.owner 3 1 x)
        { h with meter := { h.meter with ms := ms } }
    else h
  if h1.meter.sec < sec then
    h1.tier.tiles.foldl (fun x t => match t.2.run with | some (_, n) => meterAdd t.2.owner 4 n x | none => x)
      { h1 with meter := { h1.meter with sec := sec } }
  else h1

/-- R513: n ns of a context Running or Waiting. -/
def meterContexts (n : Nat) (h : Hub) : Hub :=
  h.cores.foldl (fun x c =>
    c.2.ctxs.foldl (fun y k => if k.2.st = .running ∨ k.2.st = .waiting then meterAdd k.2.tenant 5 n y else y) x) h

/-- R514, R109: a cold reset zeroes the counters, a warm one keeps them; a snapshot under way ends unwritten. -/
def meterReset (cold : Bool) (h : Hub) : Hub :=
  { h with meter := if cold then {} else { h.meter with snap := none } }

/-- R526. -/
def meterView (off : Nat) (h : Hub) : Option Nat :=
  if 0x48 ≤ off ∧ off < 0x88 then some (meterValue (Tab.getD h.meter.tenants (meterSel h) {}) ((off - 0x48) / 8))
  else if off = 0x98 then some (mkFld 63 63 (bit01 h.meter.snap.isSome) + mkFld 47 0 h.meter.stamp)
  else none

end Sys2Proof.Machine
end

