-- ==== Sys2Proof/Machine/Defect.lean ====
section
/-!
DEFINITION. The defect map and core numbering (R103 to R106, R125 to R127), kept in the Armoire and applied at the next
bring-up (R94).
-/
namespace Sys2Proof.Machine

def defectPage : Nat := 0x338

/-- R103: an entry. -/
def defectEntry (kind source loc : Nat) : Word := w64 (mkFld 63 60 kind + mkFld 59 58 source + mkFld 47 0 loc)

/-- R104: a location is laid out as its kind says and names something that exists. -/
def locOk (kind loc : Nat) : Bool :=
  if kind = 1 then decide (loc ≤ 71)
  else if kind = 2 then decide (loc < 2 ^ 9 ∧ nbits loc 8 4 ≤ 23)
  else if kind = 3 then decide (loc < 2 ^ 10 ∧ nbits loc 4 0 ≤ 27 ∧ nbits loc 9 6 ≤ 8)
  else if kind = 4 then decide (loc < 2 ^ 32)
  else if kind = 5 then decide (loc < 2 ^ 31)
  else if kind = 6 then decide (loc ≤ 7)
  else false

/-- R571: lines of an update that fail their verification are remapped to spare lines while there are any. -/
def verifyLines (h : Hub) : Hub :=
  let a := h.armoire
  let n := a.lineFails.headD 0
  let h1 := { h with armoire := { a with spareFree := a.spareFree - n, lineFails := a.lineFails.drop 1 } }
  if n = 0 then h1
  else
    let h2 := count 0x310 1 (min n a.spareFree) h1
    let h3 := if a.spareFree - n < 1024 then raise 0x310 19 h2 else h2
    if a.spareFree < n then raise 0x310 16 h3 else h3

/-- R570: a region of the Armoire is updated. -/
def armTouch (region : Nat) (h : Hub) : Hub :=
  verifyLines { h with armoire := { h.armoire with updates := Tab.modify h.armoire.updates region 0 (· + 1) } }

def setDefects (l : List Word) (h : Hub) : Hub := armTouch 4 { h with armoire := { h.armoire with defect := l } }

/-- Does the map list a location already, from any source? -/
def defectListed (kind loc : Nat) (h : Hub) : Bool := h.armoire.defect.any (fun w => fld w 63 60 == kind && fld w 47 0 == loc)

/-- R106: an entry is added, or refused with DEFECT_FULL. -/
def defectPut (w : Word) (h : Hub) : Hub :=
  if 1024 ≤ h.armoire.defect.length then raise defectPage 16 h else setDefects (h.armoire.defect ++ [w]) h

/-- An entry the module makes itself; a location listed already is not entered again. -/
def defectNote (kind source loc : Nat) (h : Hub) : Hub :=
  if defectListed kind loc h then h else defectPut (defectEntry kind source loc) h

/-- R126: DEFECT_CTRL OP 0b01. -/
def defectAdd (h : Hub) : Hub :=
  let s := getReg defectPage 0x58 h
  if locOk (fld s 63 60) (fld s 47 0) then defectPut (defectEntry (fld s 63 60) 3 (fld s 47 0)) h else raise defectPage 17 h

/-- R106, R126: DEFECT_CTRL OP 0b10. An index that names no entry has nothing to remove (DEDUCED: refused). -/
def defectRemove (h : Hub) : Hub :=
  let i := regFld defectPage 0x48 9 0 h
  match h.armoire.defect[i]? with
  | none => raise defectPage 17 h
  | some w => if fld w 59 58 = 0 then raise defectPage 17 h else setDefects (h.armoire.defect.eraseIdx i) h

/-- R105: physical cores that the map does not list, in order. -/
def goodCores (defects : List Word) : List Nat :=
  (List.range 72).filter (fun c => !defects.any (fun w => fld w 63 60 == 1 && fld w 47 0 == c))

/-- R105: physical core of each logical core; 0xFF none. -/
def assignCores (defects : List Word) : List Nat :=
  (List.range 64).map (fun k => nth (goodCores defects) k 0xFF)

/-- R105: physical core of each bench slot; 0xFF none. -/
def assignBench (defects : List Word) : List Nat :=
  (List.range 8).map (fun j => nth (goodCores defects) (64 + j) 0xFF)

/-- R105: the assignment from the map as it stands. -/
def renumber (h : Hub) : Hub :=
  let b := assignBench h.armoire.defect
  { h with boot := { h.boot with coreMap := assignCores h.armoire.defect, benchMap := b },
           bench := (List.range 8).map (fun j => (j, if nth b j 0xFF = 0xFF then BenchState.empty else .ready)) }

/-- Bytes 8k to 8k+7 of a map as a register shows them. -/
def mapWord (m : List Nat) (k : Nat) : Nat := ((List.range 8).map (fun j => mkFld (8 * j + 7) (8 * j) (nth m (8 * k + j) 0xFF))).sum

/-- R125, R126: the DEFECT page's read-only registers. -/
def defectView (off : Nat) (h : Hub) : Option Nat :=
  if off = 0x44 then some h.armoire.defect.length
  else if off = 0x50 then some (nth h.armoire.defect (regFld defectPage 0x48 9 0 h) 0).toNat
  else if 0x80 ≤ off ∧ off < 0xC0 then some (mapWord h.boot.coreMap ((off - 0x80) / 8))
  else if off = 0xC0 then some (mapWord h.boot.benchMap 0)
  else none

end Sys2Proof.Machine
end

