-- ==== Sys2Proof/Machine/CoreCtl.lean ====
section
/-!
DEFINITION. Pattern loads (R354), fencing of a logical core and the bench (R358, R359, R366), and the registers of core
and bench pages (R362 to R366).
-/
namespace Sys2Proof.Machine

def benchPage (j : Nat) : Nat := 0x240 + j
def getBench (j : Nat) (h : Hub) : BenchState := Tab.getD h.bench j .empty
def putBench (j : Nat) (b : BenchState) (h : Hub) : Hub := { h with bench := Tab.set h.bench j b }

/- ### Pattern loads (R354) -/

def loadFails (k result : Nat) (h : Hub) : Hub :=
  raise (corePage k) 17 (putCore k { getCore k h with load := none, loadResult := result } h)

/-- R354, R363: CORE_PAT_CMD with OP 0b01. -/
def patLoad (k v : Nat) (h : Hub) : Hub :=
  let c := getCore k h
  let off := nbits v 25 13
  let n := max 1 (nbits v 12 0)
  let ctx := regFld (corePage k) 0x48 2 0 h
  if c.load.isSome then cmdRefused k h
  else if 8192 < off + n then loadFails k 4 h
  else if (getCtx k ctx h).st = .free then loadFails k 5 h
  else
    putCore k { c with load := some { ctx := ctx, addr := regFld (corePage k) 0xA0 56 0 h, off := off, count := n,
                                      crc := regFld (corePage k) 0xAC 31 0 h } } h

/-- R363: the result of a load a read of which failed. A read that completes with a status no RESULT code names leaves a
value that is not stated, so free. -/
def loadCause (code : Nat) (h : Hub) : Nat × Hub :=
  if code = fXlate then (2, h)
  else if code = fTargetDead then (6, h)
  else
    let r := fresh h
    (1 + r.1.toNat % 15, r.2)

/-- R354: the reads of a load, in order: bytes, or the RESULT that ends it. -/
def loadRead (k : Nat) (x : Ctx) : List (Nat × Nat × Nat) → Hub → Except Nat (List Byte) × Hub
  | [], h => (.ok [], h)
  | (a, _, n) :: t, h =>
    match localRead k x x.asid a n h with
    | (.error e, h1) => let r := loadCause e.1 h1; (.error r.1, r.2)
    | (.ok (bs, p), h1) =>
      if p then (.error 3, h1)
      else
        match loadRead k x t h1 with
        | (.error e, h2) => (.error e, h2)
        | (.ok bs2, h2) => (.ok (bs ++ bs2), h2)

/-- R354: pattern words from `off` on take 8 bytes each. -/
def patWrite (off : Nat) : Nat → List Byte → Tab Word → Tab Word
  | 0, _, t => t
  | n + 1, bs, t => patWrite (off + 1) n (bs.drop 8) (Tab.set t off (w64 (ofBytesLE (bs.take 8))))

/-- R354: the reads of a load have completed. -/
def patLoadDone (k : Nat) (h : Hub) : Hub :=
  match (getCore k h).load with
  | none => h
  | some l =>
    let b := (getCtx k l.ctx h).bind
    let x : Ctx := { tenant := fld b 43 32, asid := fld b 31 16 }
    match loadRead k x (cutRow (l.count / 512 + 2) l.addr 0 (8 * l.count)) h with
    | (.error r, h1) => loadFails k r h1
    | (.ok bs, h1) =>
      if crc32c bs ≠ l.crc then loadFails k 1 h1
      else
        let c := getCore k h1
        putCore k { c with load := none, loadResult := 0, pat := patWrite l.off l.count bs c.pat,
                           badWords := c.badWords.filter (fun w => decide (w < l.off ∨ l.off + l.count ≤ w)) } h1

/- ### Fencing (R358) -/

/-- R358: a fence request: the core drains, its contexts fault FENCED. -/
def coreDrain (k : Nat) (byRas : Bool) (h : Hub) : Hub :=
  let c := getCore k h
  if c.st ≠ .inService then (if byRas then putCore k { c with byRas := true } h else h)
  else
    (List.range 8).foldl (fun x i => stopCtx k i fFenced x)
      (putCore k { c with st := .draining, byRas := byRas, drainAt := h.devTime } h)

/-- The lowest-numbered Ready bench slot from j on. -/
def readySlot (j : Nat) (h : Hub) : Option Nat := (natRange j (8 - j)).find? (fun s => getBench s h == .ready)

/-- R358, R359: substitution of a Fenced core starts on the first Ready slot from j on. -/
def substStart (k j : Nat) (h : Hub) : Hub :=
  match readySlot j h with
  | none => h
  | some s => putBench s .testing (putCore k { getCore k h with st := .substituting, slot := some s } h)

/-- R358, R364: a core enters Fenced. -/
def coreFenced (k : Nat) (h : Hub) : Hub :=
  let h1 := raiseEvent (corePage k) 17 (putCore k { getCore k h with st := .fenced, slot := none } h)
  if regBit (corePage k) 0x44 1 h1 then substStart k 0 h1 else h1

/-- R358: every context is Faulted or Free, or the dead-target bound has passed. -/
def coreDrained (k : Nat) (h : Hub) : Bool :=
  let c := getCore k h
  c.st == .draining &&
  ((List.range 8).all (fun i => let s := (getCtx k i h).st; s == .faulted || s == .free) ||
   decide (c.drainAt + deadBound h ≤ h.devTime))

def coreDrainDone (k : Nat) (h : Hub) : Hub := if coreDrained k h then coreFenced k h else h

/-- R358: UNFENCE of a command fence. -/
def coreUnfence (k : Nat) (h : Hub) : Hub :=
  let c := getCore k h
  if c.st = .fenced ∧ c.byRas = false then putCore k { c with st := .inService } h else h

/-- R358: CORE_CFG.SUBSTITUTE. -/
def coreSubstitute (k : Nat) (h : Hub) : Hub := if (getCore k h).st = .fenced then substStart k 0 h else h

/-- R358, R363: a write of CORE_CFG: the fence first, then SUBSTITUTE (DESIGN CHOICE: the spec gives no order). -/
def coreCfgWrite (k : Nat) (v : Word) (h : Hub) : Hub :=
  let h1 := putReg (corePage k) 0x44 (v &&& w64 (masks [(31, 16), (1, 0)])) h
  let h2 := if bitOf v 0 then coreDrain k false h1 else coreUnfence k h1
  if bitOf v 2 then coreSubstitute k h2 else h2

/-- R359: a context after a substitution: Free; the page keeps its values. -/
def freedCtx (x : Ctx) : Ctx :=
  { x with st := .free, bind := putBit x.bind 0 false, wait := none, fence := [], marks := [], signals := [], ending := none }

/-- R359: the bench core passes: the logical core is remapped and cleared. -/
def substPass (k j : Nat) (h : Hub) : Hub :=
  let c := getCore k h
  let old := nth h.boot.coreMap k 0xFF
  let new := nth h.boot.benchMap j 0xFF
  let b := h.boot
  let b1 := { b with coreMap := listSet b.coreMap k new, benchMap := listSet b.benchMap j (if c.byRas then 0xFF else old) }
  let h1 := putBench j (if c.byRas then .empty else .ready) { h with boot := b1 }
  let h2 := if c.byRas ∧ old ≠ 0xFF then defectNote 1 2 old h1 else h1
  let a := scratchAddr k 0
  let h3 := { h2 with mem := memClear h2.mem a 0x180000, poison := h2.poison.filter (fun p => decide (p < a / 64 ∨ (a + 0x180000) / 64 ≤ p)) }
  let c1 := getCore k h3
  let c2 : Core := { c1 with st := .inService, byRas := false, slot := none, pat := [], badWords := [], sems := [], retained := none,
                             buf0 := [], buf1 := [], mq := [], vq := [], q0 := [], q1 := [],
                             ctxs := c1.ctxs.map (fun e => (e.1, freedCtx e.2)) }
  count (corePage k) 12 1 (raiseEvent (corePage k) 16 (putCore k c2 h3))

/-- R359: the bench core fails: it is entered in the defect map, and the next Ready slot is tried. -/
def substFail (k j : Nat) (h : Hub) : Hub :=
  let h1 := putBench j .failed (defectNote 1 2 (nth h.boot.benchMap j 0xFF) h)
  match readySlot (j + 1) h1 with
  | some _ => substStart k (j + 1) h1
  | none => raiseEvent (corePage k) 17 (putCore k { getCore k h1 with st := .fenced, slot := none } h1)

/-- R359: the self-test of a substitution ends. -/
def substDone (k : Nat) (pass : Bool) (h : Hub) : Hub :=
  match (getCore k h).st, (getCore k h).slot with
  | .substituting, some j => if pass then substPass k j h else substFail k j h
  | _, _ => h

/- ### The bench (R366) -/

/-- R366: CORE_BENCH_CMD.TEST of a Ready slot. -/
def benchTest (j : Nat) (h : Hub) : Hub := if getBench j h = .ready then putBench j .testing h else h

/-- Is a slot on test for a substitution, not for its own command? -/
def slotTaken (j : Nat) (h : Hub) : Bool := h.cores.any (fun e => e.2.st == .substituting && e.2.slot == some j)

/-- R366: the test of a slot ends. -/
def benchTestDone (j : Nat) (pass : Bool) (h : Hub) : Hub :=
  if getBench j h = .testing ∧ !slotTaken j h then putBench j (if pass then .ready else .failed) h else h

/- ### Registers -/

/-- R357, R363: CORE_FAULT_CTRL.POP. -/
def coreFaultPop (k : Nat) (h : Hub) : Hub := putCore k { getCore k h with faults := (getCore k h).faults.drop 1 } h

def coreStCode : CoreState → Nat
  | .inService => 0 | .draining => 1 | .fenced => 2 | .substituting => 3

def ctxStCode : CtxState → Nat
  | .free => 0 | .ready => 1 | .running => 2 | .waiting => 3 | .faulted => 4

def ctxLive (x : Ctx) : Bool := x.st == .running || x.st == .waiting

/-- R362 to R365: what a core page's registers show. -/
def coreView (k off : Nat) (h : Hub) : Option Nat :=
  let c := getCore k h
  let x := getCtx k (regFld (corePage k) 0x48 2 0 h) h
  if off = 0x40 then
    some (mkFld 17 16 (coreStCode c.st) + mkFld 15 15 (bit01 c.intSat) + mkFld 14 8 (c.ctxs.filter (fun e => ctxLive e.2)).length +
      mkFld 7 0 (nth h.boot.coreMap k 0xFF))
  else if off = 0x50 then some x.bind.toNat
  else if off = 0x58 then some x.entry
  else if 0x60 ≤ off ∧ off < 0x80 then some (nth x.args ((off - 0x60) / 8) 0).toNat
  else if off = 0x80 then some x.seed.toNat
  else if off = 0x88 then some x.src.toNat
  else if off = 0x98 then some (mkFld 63 48 x.exit + mkFld 47 40 x.fault + mkFld 19 16 (ctxStCode x.st) + mkFld 12 0 x.pc)
  else if off = 0xB0 then some (mkFld 31 31 (bit01 c.load.isSome) + mkFld 3 0 c.loadResult)
  else if off = 0xC0 then some (match c.faults with | f :: _ => f.w0.toNat | [] => 0)
  else if off = 0xC8 then some (match c.faults with | f :: _ => f.w1.toNat | [] => 0)
  else if off = 0xD0 then some (mkFld 20 16 c.faults.length)
  else if 0x108 ≤ off ∧ off < 0x200 then some (if ctxLive x then 0 else (nth x.regs ((off - 0x108) / 8) 0).toNat)
  else if 0x400 ≤ off ∧ off < 0x500 then some (semVal k ((off - 0x400) / 4) h)
  else none

/-- R363: writes of a context's own registers. SRC is written only when the context is not Running or Waiting. -/
def ctxRegWrite (k off : Nat) (v : Word) (h : Hub) : Hub :=
  let i := regFld (corePage k) 0x48 2 0 h
  let x := getCtx k i h
  if off = 0x58 then putCtx k i { x with entry := fld v 12 0 } h
  else if 0x60 ≤ off ∧ off < 0x80 then putCtx k i { x with args := listSet x.args ((off - 0x60) / 8) v } h
  else if off = 0x80 then putCtx k i { x with seed := v } h
  else if off = 0x88 then (if ctxLive x then h else putCtx k i { x with src := v } h)
  else h

def benchCode : BenchState → Nat
  | .empty => 0 | .ready => 1 | .testing => 2 | .failed => 3

/-- R366: CORE_BENCH_INFO. -/
def benchView (j off : Nat) (h : Hub) : Option Nat :=
  if off = 0x40 then some (mkFld 9 8 (benchCode (getBench j h)) + mkFld 7 0 (nth h.boot.benchMap j 0xFF)) else none

/-- R119: physical cores in service. -/
def coresGood (h : Hub) : Nat :=
  ((List.range 64).filter (fun k => nth h.boot.coreMap k 0xFF != 0xFF && !((getCore k h).byRas))).length +
  ((List.range 8).filter (fun j => nth h.boot.benchMap j 0xFF != 0xFF && getBench j h != .failed)).length

/-- R109: every core returns to its reset values. -/
def coresReset (h : Hub) : Hub := { h with cores := [] }

end Sys2Proof.Machine
end

