-- ==== Sys2Proof/Machine/Cxl.lean ====
section
/-!
DEFINITION. The CXL ports (R98, R493 to R505, R522 to R524, R538): CXL.mem requests, extents, mailbox commands, binding
of logical devices, host-port resets.
-/
namespace Sys2Proof.Machine

/- ### Mailbox return codes (CXL 3.1; log entry 32) -/

def mbSuccess : Nat := 0x00
def mbInvalidInput : Nat := 0x02
def mbUnsupported : Nat := 0x03
def mbExhausted : Nat := 0x1D

/-- R497: DPA of region 0 is 0 to 32 TiB − 1, in blocks of 64 MiB. -/
def dcRegionBytes : Nat := 2 ^ 45
def blockBytes64 : Nat := 2 ^ 26

/- ### CXL.mem (R496, R499, R501) -/

/-- R495: the committed decoder of a logical device that holds an HPA. -/
def decodeHpa (p n hpa : Nat) (h : Hub) : Option Nat :=
  let d := getLd p n h
  ([d.dec0, d.dec1].find? (fun c => c.committed && decide (c.base ≤ hpa ∧ hpa < c.base + c.size))).map
    (fun c => c.dpa + (hpa - c.base))

/-- What the extent check says of a CXL.mem request: why it is refused (the cause of R523), or its extent. -/
inductive CxlCheck
  | refused (cause : Nat) (dpa : Option Nat)
  | fenced
  | go (extent off dpa : Nat)
  deriving DecidableEq, Repr

/-- R98, R493, R498, R499, R501, R522, R560. -/
def cxlCheck (p n hpa : Nat) (write : Bool) (h : Hub) : CxlCheck :=
  if h.ras.fence ≠ .serving ∧ h.boot.phase = .ready then .fenced
  else
    let dpa := decodeHpa p n hpa h
    if !memActive h then .refused 5 dpa
    else if !enabled (cxlPage p) h || !(getLd p n h).en then .refused 1 dpa
    else
      match dpa with
      | none => .refused 1 none
      | some a =>
        match (getCxl p h).extents.find? (fun e =>
            e.2.ld == n && (e.2.st == .active || e.2.st == .recalled || e.2.st == .draining) &&
            decide (e.2.dpaBlk ≤ a / blockBytes64 ∧ a / blockBytes64 < e.2.dpaBlk + e.2.count)) with
        | none => .refused 1 (some a)
        | some (i, e) =>
          if e.st = .draining then .refused 2 (some a)
          else if !(if write then e.w else e.r) then .refused 3 (some a)
          else .go i (e.offBlk * blockBytes64 + (a - e.dpaBlk * blockBytes64)) a

/-- R513: a request refused under R501 is charged to the logical device's tenant. -/
def cxlDenied (p n cause : Nat) (h : Hub) : Hub :=
  meterAdd (getLd p n h).tenant 7 1 (if cause = 5 then count (cxlPage p) 4 1 h else h)

/-- A DPA to record: one that no decoder gave is not stated. -/
def dropDpa (dpa : Option Nat) (h : Hub) : Nat × Hub :=
  match dpa with
  | some a => (a, h)
  | none => let r := fresh h; (r.1.toNat % 2 ^ 45, r.2)

/-- An accepted request goes on to leases and its shaper; a host's first store allocates for tenant 0 (R182). -/
def cxlGo (p n tag i off dpa : Nat) (f : Frame) (en : List Bool) (h : Hub) : Hub :=
  let q := newReq h
  afterStu { id := q.1, src := .cxl p n tag i,
             frame := { f with len := 64, operand0 := dpa, asid := 0xFFFF }, off := off, enables := en } q.2

/-- MemRd and MemRdData. -/
def memRd (p n hpa tag : Nat) (h0 : Hub) : Hub :=
  let h := count (cxlPage p) 0 1 h0
  let a := hpa - hpa % 64
  match cxlCheck p n a false h with
  | .fenced => memData p n tag (poisonPattern 64) true h
  | .refused cause _ => memData p n tag (poisonPattern 64) true (cxlDenied p n cause h)
  | .go i off dpa => cxlGo p n tag i off dpa { opcode := 1 } [] h

/-- MemWr and MemWrPtl; `en` is empty where every byte is written. -/
def memWr (p n hpa tag : Nat) (data : List Byte) (en : List Bool) (poison : Bool) (h0 : Hub) : Hub :=
  let h := count (cxlPage p) 1 1 h0
  let a := hpa - hpa % 64
  match cxlCheck p n a true h with
  | .fenced => memCmp p n tag h
  | .refused cause d =>
    let x := dropDpa d h
    memCmp p n tag (cxlDrop p n cause x.1 (cxlDenied p n cause x.2))
  | .go i off dpa => cxlGo p n tag i off dpa { opcode := 2, payload := data, scarry := scarryOf data, poison := poison } en h

/- ### Extents (R497 to R500) -/

/-- An extent as the fabric manager or a host names it: DPA, length, tag bytes 0 to 7. -/
def extEnd (e : Extent) : Nat := e.dpaBlk + e.count

/-- R497: the entry an extent of an add becomes; none where it breaks the rule. -/
def parseExtent (n dpa len : Nat) (tag : Word) : Option Extent :=
  let off := fld tag 45 0
  if dpa % blockBytes64 ≠ 0 ∨ len % blockBytes64 ≠ 0 ∨ len = 0 ∨ dcRegionBytes < dpa + len ∨ fld tag 61 46 ≠ 0 ∨
     off % blockBytes64 ≠ 0 ∨ storeEnd < off + len then none
  else some { st := .pending, ld := n, r := bitOf tag 63, w := bitOf tag 62, dpaBlk := dpa / blockBytes64,
              count := len / blockBytes64, offBlk := off / blockBytes64 }

def extOverlap (a b : Extent) : Bool :=
  a.ld == b.ld && a.st != .unused && b.st != .unused && decide (a.dpaBlk < extEnd b ∧ b.dpaBlk < extEnd a)

/-- No two of a list overlap. -/
def noneOverlap : List Extent → Bool
  | [] => true
  | e :: t => !t.any (extOverlap e) && noneOverlap t

def allSome {α : Type} : List (Option α) → Option (List α)
  | [] => some []
  | none :: _ => none
  | some a :: t => (allSome t).map (a :: ·)

/-- The lowest n free entries of a port's 4,096. -/
def freeExtents : Nat → Nat → Nat → Tab Extent → List Nat
  | 0, _, _, _ => []
  | fuel + 1, i, n, t =>
    if n = 0 ∨ 4096 ≤ i then []
    else match t with
      | (k, e) :: t' =>
        if i < k then i :: freeExtents fuel (i + 1) (n - 1) ((k, e) :: t')
        else if e.st = .unused ∧ e.owed = none then i :: freeExtents fuel (i + 1) (n - 1) t'
        else freeExtents fuel (i + 1) n t'
      | [] => i :: freeExtents fuel (i + 1) (n - 1) []

/-- A record of a Dynamic Capacity event log of a logical device: 0 add, 1 release, 2 forced release (log entry 32). -/
def ldRecord (p n kind dpa len : Nat) (h : Hub) : Hub :=
  let d := getLd p n h
  putLd p n { d with events := d.events ++ [⟨d.nextHandle, kind, n, dpa, len, 0⟩], nextHandle := d.nextHandle + 1 } h

def extRecord (p n kind : Nat) (e : Extent) (h : Hub) : Hub :=
  ldRecord p n kind (e.dpaBlk * blockBytes64) (e.count * blockBytes64) h

/-- An extent's new state, with EXT_CHANGE. -/
def setExtSt (p i : Nat) (st : ExtState) (h : Hub) : Hub :=
  let e := getExt p i h
  raiseEvent (cxlPage p) 1 (putExt p i { e with st := st, drainAt := if st = .draining then h.devTime else e.drainAt } h)

/-- R498, R499: an extent enters Draining, and leaves it at once where nothing is counted. -/
def startDrain (p i : Nat) (h : Hub) : Hub := drainCheck p (setExtSt p i .draining h)

def mailbox (p n : Nat) (cmd : String) (rc : Nat) (payload : List Nat) (h : Hub) : Hub :=
  emit (.mailbox p n cmd rc payload) h

/-- R497: Initiate Dynamic Capacity Add. Logical device 16 stands for the FM-owned one in answers. -/
def dcAdd (p n : Nat) (exts : List (Nat × Nat × Word)) (h : Hub) : Hub :=
  let say (rc : Nat) (x : Hub) : Hub := mailbox p 16 "INITIATE_DYNAMIC_CAPACITY_ADD" rc [] x
  match allSome (exts.map (fun e => parseExtent n e.1 e.2.1 e.2.2)) with
  | none => say mbInvalidInput h
  | some l =>
    if !(getLd p n h).en || !noneOverlap (l ++ (((getCxl p h).extents.map (·.2)).filter (fun e => e.st != .unused))) then
      say mbInvalidInput h
    else
      let idx := freeExtents 4097 0 l.length (getCxl p h).extents
      if idx.length < l.length then say mbExhausted h
      else
        say mbSuccess ((idx.zip l).foldl (fun x q =>
          extRecord p n 0 q.2 (raiseEvent (cxlPage p) 1 (putExt p q.1 q.2 x))) h)

/-- The extents of a logical device in one of some states that a list of DPA ranges names. -/
def namedExtents (p n : Nat) (sts : List ExtState) (ranges : List (Nat × Nat)) (exact : Bool) (h : Hub) : List (Nat × Extent) :=
  (getCxl p h).extents.filter (fun e =>
    e.2.ld == n && sts.contains e.2.st &&
    ranges.any (fun r =>
      let a := e.2.dpaBlk * blockBytes64
      let k := e.2.count * blockBytes64
      if exact then r.1 == a && r.2 == k else decide (r.1 ≤ a ∧ a + k ≤ r.1 + r.2)))

/-- R498: Add Dynamic Capacity Response. -/
def dcResponse (p n : Nat) (ranges : List (Nat × Nat)) (h : Hub) : Hub :=
  let listed := (namedExtents p n [.pending] ranges true h).map (·.1)
  let pend := ((getCxl p h).extents.filter (fun e => e.2.ld == n && e.2.st == .pending)).map (·.1)
  mailbox p n "ADD_DYNAMIC_CAPACITY_RESPONSE" mbSuccess []
    (pend.foldl (fun x i => if listed.contains i then setExtSt p i .active x else extentUnused p i 0 x) h)

/-- R498, R499: a host's Release Dynamic Capacity; it completes when its extents enter Draining. -/
def dcRelease (p n : Nat) (ranges : List (Nat × Nat)) (h : Hub) : Hub :=
  let l := namedExtents p n [.active, .recalled] ranges false h
  let h1 := mailbox p n "RELEASE_DYNAMIC_CAPACITY" mbSuccess [] (l.foldl (fun x e => setExtSt p e.1 .draining x) h)
  drainCheck p h1

/-- R498: Initiate Dynamic Capacity Release. -/
def dcInitRelease (p n : Nat) (forced : Bool) (ranges : List (Nat × Nat)) (h : Hub) : Hub :=
  let l := namedExtents p n [.pending, .active, .recalled] ranges false h
  let one (x : Hub) (e : Nat × Extent) : Hub :=
    if e.2.st = .pending then extentUnused p e.1 0 x
    else
      let y := extRecord p n (if forced then 2 else 1) e.2 x
      if forced then setExtSt p e.1 .draining y
      else if e.2.st = .active then setExtSt p e.1 .recalled y else y
  mailbox p 16 "INITIATE_DYNAMIC_CAPACITY_RELEASE" mbSuccess [] (drainCheck p (l.foldl one h))

/-- Requests that wait leave their queues; one whose transaction has started leaves only the transaction. -/
def withdrawReqs (f : Req → Bool) (h : Hub) : List Req × Hub :=
  let l := (reqsInFlight h).filter f
  let keep (r : Req) : Bool := !f r
  let h1 := { h with
    stu := { h.stu with waiting := h.stu.waiting.filter keep }
    shapers := h.shapers.map (fun s =>
      let q := s.2.queue.filter keep
      (s.1, { s.2 with queue := q }))
    coh := { h.coh with
      waiting := h.coh.waiting.filter keep
      txs := h.coh.txs.map (fun x => if f x.req then { x with req := { x.req with src := .backSnoop } } else x) } }
  (l, h1)

/-- R499: the answer to a withdrawn request. -/
def withdrawn (r : Req) (h : Hub) : Hub :=
  match r.src with
  | .cxl p n tag _ =>
    if r.frame.turned then h
    else if r.frame.opcode = 1 then memData p n tag (poisonPattern 64) true h else memCmp p n tag h
  | .pool c _ _ _ => pouWithdraw c h
  | _ => h

/-- R499: 50 us after entry to Draining. -/
def drainTimeout (p i : Nat) (h : Hub) : Hub :=
  let e := getExt p i h
  let n := drainCount p i h
  if e.st ≠ .draining ∨ h.devTime < e.drainAt + 50000 ∨ n = 0 then h
  else
    let w := withdrawReqs (ofExtent p i) h
    let h1 := count (cxlPage p) 5 n (w.1.foldl (fun x r => withdrawn r x) w.2)
    extentUnused p i n (raise (cxlPage p) 17 h1)

/-- R500: Quiescing takes every Draining extent to Unused; its record is owed. -/
def drainQuiesce (p : Nat) (h : Hub) : Hub :=
  ((getCxl p h).extents.filter (fun e => e.2.st == .draining)).foldl (fun x e =>
    putExt p e.1 { e.2 with st := .unused, owed := some (drainCount p e.1 h) } x) h

/-- R500: the records owed are written at Ready. -/
def drainOwed (p : Nat) (h : Hub) : Hub :=
  (getCxl p h).extents.foldl (fun x e =>
    match e.2.owed with
    | some n => extentUnused p e.1 n x
    | none => x) h

/-- R500: a cold reset takes every extent to Unused and writes no record. -/
def extentsCold (h : Hub) : Hub :=
  { h with cxl0 := { h.cxl0 with extents := [] }, cxl1 := { h.cxl1 with extents := [] } }

/- ### Mailbox and FM API (R495, R503, R538) -/

/-- R495: Get Event Records: the Dynamic Capacity log's records, oldest first, as handle, kind, DPA, length, withdrawn. -/
def eventWords (l : List DcRecord) : List Nat := l.flatMap (fun r => [r.handle, r.kind, r.ld, r.dpa, r.len, r.withdrawn])

/-- Logical device 16 names the FM-owned logical device. -/
def getEventRecords (p n : Nat) (h : Hub) : Hub :=
  mailbox p n "GET_EVENT_RECORDS" mbSuccess (eventWords (if n = 16 then (getCxl p h).fmEvents else (getLd p n h).events)) h

def clearEventRecords (p n : Nat) (handles : List Nat) (h : Hub) : Hub :=
  let keep (r : DcRecord) : Bool := !handles.contains r.handle
  let h1 :=
    if n = 16 then (let c := getCxl p h; putCxl p { c with fmEvents := c.fmEvents.filter keep } h)
    else (let d := getLd p n h; putLd p n { d with events := d.events.filter keep } h)
  mailbox p n "CLEAR_EVENT_RECORDS" mbSuccess [] h1

/-- The extent list a host or the fabric manager reads: DPA, length, tag bytes 0 to 7. -/
def extentWords (p n : Nat) (sts : List ExtState) (h : Hub) : List Nat :=
  ((getCxl p h).extents.filter (fun e => e.2.ld == n && sts.contains e.2.st)).flatMap (fun e =>
    [e.2.dpaBlk * blockBytes64, e.2.count * blockBytes64,
     mkFld 63 63 (bit01 e.2.r) + mkFld 62 62 (bit01 e.2.w) + e.2.offBlk * blockBytes64])

/-- R503: thresholds from the two percentages; all six fields are kept. -/
def setQosControl (p control moderate severe interval basis collection : Nat) (h : Hub) : Hub :=
  if 100 < moderate ∨ 100 < severe then mailbox p 16 "SET_QOS_CONTROL" mbInvalidInput [] h
  else
    let c := getCxl p h
    let r := getReg (cxlPage p) 0x48 h
    h |> putCxl p { c with qosControl := [control, moderate, severe, interval, basis, collection] }
      |> putReg (cxlPage p) 0x48 (putFld (putFld r 19 10 (moderate * 1023 / 100)) 29 20 (severe * 1023 / 100))
      |> mailbox p 16 "SET_QOS_CONTROL" mbSuccess []

/-- R503: the average of the backlog over an interval the spec does not state: a free value no higher than the backlog has been. -/
def getQosStatus (p n : Nat) (h : Hub) : Hub :=
  let r := fresh h
  mailbox p 16 "GET_QOS_STATUS" mbSuccess [r.1.toNat % ((getLd p n h).qosHigh + 1)] r.2

/-- R504: the backlog is looked at once a tick. -/
def qosSample (h : Hub) : Hub :=
  [0, 1].foldl (fun x p => (getCxl p x).lds.foldl (fun y l =>
    let w := backlog p l.1 y
    if l.2.qosHigh < w then putLd p l.1 { l.2 with qosHigh := w } y else y) x) h

/-- R538: a fraction's rate in MB/s. -/
def rateOf (f : Nat) : Nat := f * 64000 / 256

/-- R538: the fraction that a rate reads as. -/
def fractionOf (v : Nat) : Nat := min 255 (v * 256 / 64000)

/-- R537, R538: the fractions of logical devices n, n+1 …. -/
def setQosBw (limit : Bool) (p n : Nat) (fs : List Nat) (h : Hub) : Hub :=
  let go (x : Hub) (e : Nat × Nat) : Hub :=
    let d := getLd p (n + e.1) x
    let s := getShaper d.shaper x
    let f := e.2 % 256
    let s1 := if limit then { s with limit := rateOf (if f = 0 then 256 else f) } else { s with alloc := rateOf f }
    shaperReset d.shaper (putShaper d.shaper s1
      (putLd p (n + e.1) (if limit then { d with limitF := some f } else { d with allocF := some f }) x))
  let l := ((List.range fs.length).zip fs).filter (fun e => decide (n + e.1 < 16))
  mailbox p 16 (if limit then "SET_QOS_BW_LIMIT" else "SET_QOS_ALLOCATED_BW") mbSuccess [] (l.foldl go h)

def getQosBw (limit : Bool) (p n k : Nat) (h : Hub) : Hub :=
  let val (i : Nat) : Nat :=
    let d := getLd p i h
    let s := getShaper d.shaper h
    if limit then (match d.limitF with | some f => f | none => fractionOf s.limit)
    else (match d.allocF with | some f => f | none => fractionOf s.alloc)
  mailbox p 16 (if limit then "GET_QOS_BW_LIMIT" else "GET_QOS_ALLOCATED_BW") mbSuccess
    (((natRange n k).filter (fun i => decide (i < 16))).map val) h

/-- R495: a decoder commit: interleave ways 1, multiples of 256 MiB, inside region 0. -/
def decoderCommit (p n which base size dpa ways : Nat) (h : Hub) : Hub :=
  let ok := ways = 1 ∧ base % 2 ^ 28 = 0 ∧ size % 2 ^ 28 = 0 ∧ 0 < size ∧ dpa + size ≤ dcRegionBytes
  if ok then
    let d := getLd p n h
    let c : Decoder := ⟨base, size, dpa, true⟩
    putLd p n (if which = 0 then { d with dec0 := c } else { d with dec1 := c }) h
  else raise (cxlPage p) 18 h

/- The answers R495 names. Fields that CXL 3.1 lays out and the spec gives no value for are free values or left to the
payload's receiver (log entry 32). -/

/-- R495: the module holds no persistent memory; its volatile capacity is not stated. -/
def identifyMemory (p n : Nat) (h : Hub) : Hub :=
  let r := fresh h
  mailbox p n "IDENTIFY_MEMORY_DEVICE" mbSuccess [r.1.toNat, r.1.toNat, 0] r.2

/-- R495: one region: its base, length and block size. -/
def dcRegionWords : List Nat := [0, dcRegionBytes, blockBytes64]

/-- R495, R497: one region, the extents a port supports, and those free. -/
def getDcConfig (p n : Nat) (h : Hub) : Hub :=
  mailbox p n "GET_DYNAMIC_CAPACITY_CONFIGURATION" mbSuccess
    (1 :: dcRegionWords ++ [4096, (freeExtents 4097 0 4096 (getCxl p h).extents).length]) h

/-- R495: the extents a host has accepted and not released. -/
def getDcExtents (p n : Nat) (h : Hub) : Hub :=
  mailbox p n "GET_DYNAMIC_CAPACITY_EXTENT_LIST" mbSuccess (extentWords p n [.active, .recalled] h) h

/-- R493: 16 logical devices; a size the spec does not state. -/
def getLdInfo (p : Nat) (h : Hub) : Hub :=
  let r := fresh h
  mailbox p 16 "GET_LD_INFO" mbSuccess [r.1.toNat, 16] r.2

/-- R503: the fields that Set QoS Control stored. -/
def getQosControl (p : Nat) (h : Hub) : Hub := mailbox p 16 "GET_QOS_CONTROL" mbSuccess (getCxl p h).qosControl h

/-- R495: 16 hosts, one region each, add by the prescriptive policy (code 2 of CXL 3.1), blocks of 64 MiB. -/
def getDcdInfo (p : Nat) (h : Hub) : Hub := mailbox p 16 "GET_DCD_INFO" mbSuccess [16, 1, 2, blockBytes64] h

def getHostDcConfig (p n : Nat) (h : Hub) : Hub :=
  if n < 16 then mailbox p 16 "GET_HOST_DC_REGION_CONFIGURATION" mbSuccess (n :: 1 :: dcRegionWords) h
  else mailbox p 16 "GET_HOST_DC_REGION_CONFIGURATION" mbInvalidInput [] h

/-- R495: block size 64 MiB only, of region 0. -/
def setDcConfig (p n region blockSize : Nat) (h : Hub) : Hub :=
  mailbox p 16 "SET_DC_REGION_CONFIGURATION"
    (if n < 16 ∧ region = 0 ∧ blockSize = blockBytes64 then mbSuccess else mbInvalidInput) [] h

/-- R495: a logical device's extents that its host holds. -/
def getDcRegionExtents (p n : Nat) (h : Hub) : Hub :=
  if n < 16 then
    mailbox p 16 "GET_DC_REGION_EXTENT_LISTS" mbSuccess (n :: extentWords p n [.active, .recalled] h) h
  else mailbox p 16 "GET_DC_REGION_EXTENT_LISTS" mbInvalidInput [] h

/-- A CXL.mem request, a mailbox or a decoder of a port is reached over its link (R93, R98). -/
def overCxl (p : Nat) (f : Hub → Hub) (h : Hub) : Hub := if (getCxl p h).up then f h else h

/- ### Registers of the CXLP page (R505, R523) -/

/-- R523: a write of CXLP_LD: EN 0 while an extent is not Unused is refused; a newly bound shaper is reset (R537). -/
def ldWrite (p : Nat) (v : Word) (h : Hub) : Hub :=
  let n := regFld (cxlPage p) 0x4C 3 0 h
  let d := getLd p n h
  if !bitOf v 63 && (getCxl p h).extents.any (fun e => e.2.ld == n && e.2.st != .unused) then raise (cxlPage p) 19 h
  else
    let s := fld v 7 0
    let d1 := { d with en := bitOf v 63, tenant := fld v 43 32, shaper := s }
    if s = d.shaper then putLd p n d1 h
    else shaperReset s (putLd p n { d1 with allocF := none, limitF := none } h)

/-- R505: a write of CXLP_CFG. -/
def openWrite (p : Nat) (v : Word) (h : Hub) : Hub :=
  let was := regBit (cxlPage p) 0x44 0 h
  let h1 := putReg (cxlPage p) 0x44 (w64 (fld v 0 0)) h
  if was && !bitOf v 0 then
    (dedup ((List.range 16).map (fun n => (getLd p n h1).shaper))).foldl (fun x s => shaperReset s x) h1
  else h1

/-- R98, R523: the page's read-only registers that show the port's state. -/
def cxlView (p off : Nat) (h : Hub) : Option Nat :=
  let c := getCxl p h
  if off = 0x40 then
    some (mkFld 10 7 (if c.up then c.width else 0) + mkFld 6 3 (if c.up then c.rate else 0) + mkFld 2 2 (bit01 c.ide) +
      mkFld 1 1 (bit01 (memActive h)) + mkFld 0 0 (bit01 c.up))
  else if off = 0x50 then
    let d := getLd p (regFld (cxlPage p) 0x4C 3 0 h) h
    some (mkFld 63 63 (bit01 d.en) + mkFld 43 32 d.tenant + mkFld 7 0 d.shaper)
  else if off = 0x60 then
    let e := getExt p (regFld (cxlPage p) 0x58 11 0 h) h
    let code := match e.st with | .unused => 0 | .pending => 1 | .active => 2 | .recalled => 3 | .draining => 4
    some (if code = 0 then 0 else mkFld 63 60 code + mkFld 59 56 e.ld + mkFld 55 55 (bit01 e.r) + mkFld 54 54 (bit01 e.w) +
      mkFld 38 20 e.dpaBlk + mkFld 19 0 e.count)
  else if off = 0x68 then
    let i := regFld (cxlPage p) 0x58 11 0 h
    let e := getExt p i h
    some (if e.st = .unused then 0 else mkFld 63 48 (drainCount p i h) + mkFld 19 0 e.offBlk)
  else none

/- ### Link (R92, R93, R98, R500) -/

/-- R93, R500: answers to what the port had accepted are discarded. -/
def discardPort (p : Nat) (h : Hub) : Hub :=
  let m (r : Req) : Req :=
    match r.src with
    | .cxl q _ _ _ => if q = p then { r with frame := { r.frame with turned := true } } else r
    | _ => r
  { h with
    stu := { h.stu with waiting := h.stu.waiting.map m }
    shapers := h.shapers.map (fun s => (s.1, { s.2 with queue := s.2.queue.map m }))
    coh := { h.coh with waiting := h.coh.waiting.map m, txs := h.coh.txs.map (fun x => { x with req := m x.req }) } }

/-- R319: the leases of a port's logical devices return to Idle. -/
def portLeases (p : Nat) (h : Hub) : Hub :=
  (h.coh.leases.filter (fun e =>
    match e.2.holder with
    | .ld m q _ => e.2.st == .held && q == p && m == (if h.twin.en then h.twin.role else 0)
    | _ => false)).foldl (fun x e => leaseIdle e.1 x) h

def clearIde (p : Nat) (h : Hub) : Hub :=
  putCxl p { getCxl p h with ide := false } h

/-- R93: a host-port reset; `perst`: by PERST_N going low. -/
def hostPortReset (p : Nat) (perst : Bool) (h : Hub) : Hub :=
  let h1 := if perst then { h with pins := if p = 0 then { h.pins with perst0N := false } else { h.pins with perst1N := false } } else h
  let h2 := clearIde p (portLeases p (discardPort p h1))
  putCxl p { getCxl p h2 with up := false, width := 0, rate := 0 } h2

/-- R98: PERST_N returns high. -/
def perstRelease (p : Nat) (h : Hub) : Hub :=
  { h with pins := if p = 0 then { h.pins with perst0N := true } else { h.pins with perst1N := true } }

/-- R95, R98: the phases past Clocking in which a port trains and answers configuration requests. -/
def pastClocking (h : Hub) : Bool := [.testing, .restoring, .ready, .quiescing].contains h.boot.phase

def perstHigh (p : Nat) (h : Hub) : Bool := if p = 0 then h.pins.perst0N else h.pins.perst1N

/-- R65, R98: training ends at x8 or x4 and a rate of CXLP_LINK.RATE. -/
def cxlLinkUp (p : Nat) (x4 : Bool) (rate : Nat) (h : Hub) : Hub :=
  if perstHigh p h && pastClocking h && !(getCxl p h).up && decide (1 ≤ rate ∧ rate ≤ 6) then
    putCxl p { getCxl p h with up := true, width := if x4 then 4 else 8, rate := rate } h
  else h

/-- R98: a configuration request is answered; what configuration space holds is PCIe's and CXL's to say, so a read brings
a value nothing constrains. -/
def cxlConfig (p n : Nat) (write : Bool) (h : Hub) : Hub :=
  if !perstHigh p h || !pastClocking h then h
  else if write then emit (.cxlIo p n 0) h
  else let r := fresh h; emit (.cxlIo p n (r.1.toNat % 2 ^ 32)) r.2

end Sys2Proof.Machine
end

