-- ==== Sys2Proof/Machine/Links.lean ====
section
/-!
DEFINITION. Yumer ports as links: leaving Ready (R254), lane retirement (R63, R64), acknowledgements, replays and credits
(R251, R252), and the registers of a PORT page (R287).
-/
namespace Sys2Proof.Machine

def portPage (p : Nat) : Nat := 0x10 + p

/-- R254: the frames on a port's queue when it leaves Ready: a client port's are discarded, a ring port's requeued. -/
def losePortQueue (p : Nat) (h : Hub) : Hub :=
  let mine := h.egress.filter (fun q => q.egress == p)
  let h1 := { h with egress := h.egress.filter (fun q => q.egress != p) }
  mine.foldl (fun x q =>
    if isRingPort p then sendRing raise q.ingress (decide (p < 2)) { q.frame with hops := q.frame.hops - 1 } x
    else count (portPage p) 10 1 (dropFrame p true .portDown q.frame x)) h1

/-- A link starts again: no frame outstanding, no credit, no partner known. -/
def linkClear (o : Port) : Port :=
  { o with txSeq := 0, rxSeq := 0, discarding := false, replay := [], credits := List.replicate 8 0,
           granted := List.replicate 8 0, deficit := List.replicate 8 0, rrNext := 0, partnerV := false, level := 0,
           syncTx := 0, syncRx := 0, syncHops := 0xFF }

/-- R312: the domain agents attached to a port of this module, by its binding, are lost with the link. -/
def loseAgentsOf (p : Nat) (h : Hub) : Hub :=
  let ks := (h.coh.agents.filter (fun a =>
    a.2.st == .active && a.2.module == moduleId h && agentPort a.2.unit h == some p)).map (·.1)
  ks.foldl (fun x k => loseAgent k 1 x) h

/-- A port goes to a training state; leaving Ready is R254, R312, LINK_DOWN and PORT_LINK_DOWNS; what follows
leaves the port in that state. -/
def portTo (p : Nat) (st : PortState) (h : Hub) : Hub :=
  let o := getPort p h
  let o1 := { linkClear o with st := st, since := h.clock }
  if o.st = .ready then
    let x := loseAgentsOf p (losePortQueue p (count (portPage p) 11 1 (raise (portPage p) 16 (putPort p o1 h))))
    putPort p { getPort p x with st := st } x
  else putPort p o1 h

/-- R99: transmitters off. -/
def portOff (p : Nat) (h : Hub) : Hub := if (getPort p h).st = .disabled then h else portTo p .disabled h

/-- R99, R286: a Disabled port enters Detect. -/
def portStart (p : Nat) (h : Hub) : Hub :=
  if (getPort p h).st = .disabled ∧ enabled (portPage p) h = true then portTo p .detect h else h

/-- R103, R104: the location of a lane; direction 0 transmit, 1 receive. -/
def laneLoc (p dir lane : Nat) : Nat := mkFld 4 0 p + mkFld 5 5 dir + mkFld 9 6 lane

/-- R63, R64, R288: a lane of a direction with none retired is retired and entered in the defect map. -/
def retireLane (p : Nat) (rx : Bool) (lane : Nat) (h : Hub) : Hub :=
  let o := getPort p h
  let o1 := if rx then { o with rxRetired := some lane } else { o with txRetired := some lane }
  let src := if o.wasReady then 2 else 1
  raise (portPage p) 17 (defectNote 3 src (laneLoc p (bit01 rx) lane) (putPort p o1 h))

/-- R64, R99: what the failing lanes of one direction lead to. -/
inductive DirOutcome | pass | retire (lane : Nat) | retry | second
  deriving DecidableEq, Repr

def dirOutcome (retired : Option Nat) (fails : List Nat) : DirOutcome :=
  match retired, dedup (fails.filter (fun l => decide (l ≤ 8) && retired != some l)) with
  | _, [] => .pass
  | some _, _ => .second
  | none, [l] => .retire l
  | none, _ => .retry

/-- Both directions: `second` first, since it takes the port out of service. -/
def portOutcome (o : Port) (tx rx : List Nat) : DirOutcome × DirOutcome := (dirOutcome o.txRetired tx, dirOutcome o.rxRetired rx)

/-- R64, R99, R123: to Retry; a second lane failure sets PORT_FAIL. -/
def portRetry (p : Nat) (second : Bool) (h : Hub) : Hub :=
  let h1 := portTo p .retry h
  let h2 := putPort p { getPort p h1 with secondFail := second } h1
  if second then raise 0x330 22 h2 else h2

/-- R63: retire what the outcomes name. -/
def retireOutcome (p : Nat) (r : DirOutcome × DirOutcome) (h : Hub) : Hub :=
  let h1 := match r.1 with | .retire l => retireLane p false l h | _ => h
  match r.2 with | .retire l => retireLane p true l h1 | _ => h1

def badOutcome (d : DirOutcome) : Bool := d == .retry || d == .second
def secondOutcome (d : DirOutcome) : Bool := d == .second

/- ### Replay and credits (R251, R252) -/

/-- R251: a frame is acknowledged by a SEQ at or after it. -/
def ackedBy (ack seq : Nat) : Bool :=
  match serialCmp seq ack 16 with
  | .equal => true
  | .after => true
  | _ => false

/-- Send the kept frames that satisfy a test once more (R251). -/
def replayFrames (p : Nat) (due : SentFrame → Bool) (h : Hub) : Hub :=
  let o := getPort p h
  let n := (o.replay.filter due).length
  let o1 := { o with replay := o.replay.map (fun s =>
    if due s then { s with sentAt := h.devTime, replays := s.replays + 1 } else s) }
  let h1 := count (portPage p) 6 n (putPort p o1 h)
  (o.replay.filter due).foldl (fun x s => emit (.frame p s.frame) x) h1

/-- R251: a port whose frame has been replayed four times drops its link. -/
def replayLimit (p : Nat) (h : Hub) : Hub :=
  if (getPort p h).replay.any (fun s => decide (4 ≤ s.replays)) then portTo p .detect (raise (portPage p) 19 h) else h

/-- R251: frames unacknowledged 20 us after sending. -/
def replayTimeout (p : Nat) (h : Hub) : Hub :=
  if (getPort p h).st ≠ .ready then h
  else replayLimit p (replayFrames p (fun s => decide (s.sentAt + usToNs 20 ≤ h.devTime)) h)

/-- R251, R252: a LINK_CTRL frame arrives. -/
def linkCtrl (p ack : Nat) (replayFrom : Option Nat) (credits : List Nat) (h : Hub) : Hub :=
  let o := getPort p h
  if o.st ≠ .ready then h
  else
    let o1 := { o with replay := o.replay.filter (fun s => !ackedBy ack s.frame.seq),
                       credits := (List.range 8).map (fun c => nth o.credits c 0 + nth credits c 0) }
    let h1 := putPort p o1 h
    let h2 := match replayFrom with
      | some s => replayLimit p (replayFrames p (fun q => ackedBy q.frame.seq s) h1)
      | none => h1
    drainPort p h2.egress.length h2

/-- R252, R268: cells of ingress port p and class c that may still be granted: the reserve, less what is held there and
what is granted and not yet used (DEDUCED). -/
def grantable (p c : Nat) (h : Hub) : Nat := 132 - reserveUsed p c h - nth (getPort p h).granted c 0

/-- R251, R252: a receiver acknowledges and grants. -/
def linkCtrlSend (p : Nat) (h : Hub) : Hub :=
  let o := getPort p h
  if o.st ≠ .ready then h
  else
    let g := (List.range 8).map (fun c => grantable p c h)
    let o1 := { o with granted := (List.range 8).map (fun c => nth o.granted c 0 + nth g c 0) }
    emit (.linkCtrl p ((o.rxSeq + 65535) % 65536) (if o.discarding then some o.rxSeq else none) g) (putPort p o1 h)

/-- R251: what a receiver does with the SEQ of a good frame. -/
inductive SeqCheck | take | discard
  deriving DecidableEq, Repr

/-- R251: a frame in sequence is taken; one already taken is discarded; a gap asks for a replay. -/
def seqCheck (p seq : Nat) (h : Hub) : SeqCheck × Hub :=
  let o := getPort p h
  if seq = o.rxSeq then (.take, putPort p { o with rxSeq := (o.rxSeq + 1) % 65536, discarding := false } h)
  else if o.discarding || ackedBy o.rxSeq seq then (.discard, h)
  else (.discard, emit (.linkCtrl p ((o.rxSeq + 65535) % 65536) (some o.rxSeq) (List.replicate 8 0)) (putPort p { o with discarding := true } h))

/-- R251: a frame that fails its checks is discarded, and a replay is asked for from it. -/
def askReplay (p : Nat) (h : Hub) : Hub :=
  let o := getPort p h
  if o.discarding then h
  else emit (.linkCtrl p ((o.rxSeq + 65535) % 65536) (some o.rxSeq) (List.replicate 8 0)) (putPort p { o with discarding := true } h)

/- ### Registers (R119, R287) -/

/-- R119, R287: a port is up for traffic. -/
def portOkBits (h : Hub) : Nat := ((List.range 28).map (fun p => if portReady p h then 2 ^ p else 0)).sum

/-- R287: what a PORT page shows. -/
def portView (p off : Nat) (h : Hub) : Option Nat :=
  let o := getPort p h
  let lane (l : Option Nat) : Nat := match l with | some k => 16 + k | none => 0
  if off = 0x48 then some (mkFld 12 8 (lane o.rxRetired) + mkFld 4 0 (lane o.txRetired))
  else if off = 0x50 then
    some (if o.partnerV then mkFld 15 15 1 + mkFld 14 14 (bit01 o.partnerVkm) + mkFld 13 10 o.partnerLevel +
      mkFld 9 0 (if o.partnerVkm then o.partnerModule else 0) else 0)
  else if off = 0x58 then
    some (if isRingPort p then 0 else (putFld (getReg (portPage p) 0x58 h) 33 32 (if bindMode p h = 2 then 2 else regFld (portPage p) 0x58 33 32 h)).toNat)
  else none

/-- R291, R290: what the SWITCH pages show. -/
def switchView (sub off : Nat) (h : Hub) : Option Nat :=
  if sub = 0 ∧ off = 0x58 then some (mkFld 52 32 (bufUsed h) + mkFld 20 0 (sharedFree h))
  else if sub = 1 ∧ 0x40 ≤ off ∧ off < 0xC0 then some (mkFld 20 0 (queueCells ((off - 0x40) / 4) h))
  else none

end Sys2Proof.Machine
end

