-- ==== Sys2Proof/Machine/Ring.lean ====
section
/-!
DEFINITION. The ring bypass (R74 to R91): path states, closing conditions, RING_CTRL, sensed positions, optical power, and
the RING page's registers (R84 to R91, R295, R296).
-/
namespace Sys2Proof.Machine

def ringPage : Nat := 0x348

def getPath (i : PathId) (h : Hub) : RingPath := match i with | .a => h.pathA | .b => h.pathB
def putPath (i : PathId) (p : RingPath) (h : Hub) : Hub := match i with | .a => { h with pathA := p } | .b => { h with pathB := p }
def otherPath (i : PathId) : PathId := match i with | .a => .b | .b => .a

/-- The path's East port and West port. -/
def pathPorts (i : PathId) : List Nat := match i with | .a => [0, 2] | .b => [1, 3]

def pathOf (p : Nat) : PathId := if p % 2 = 0 then .a else .b

/-- R84: JOIN_EN of a path. -/
def joinEn (i : PathId) (h : Hub) : Bool := regBit ringPage 0x40 (match i with | .a => 0 | .b => 1) h

/-- R74: does a closing condition hold? -/
def closingCond (h : Hub) : Bool :=
  !(h.pins.pgOut && h.pins.modRstN && h.pins.bypassForceN && h.pins.thermTripN) || regBit ringPage 0x40 3 h ||
  h.ras.fence != .serving || h.boot.phase == .held || h.boot.phase == .failed

/-- R91: every change of drive counts. -/
def setDrive (i : PathId) (d : Bool) (h : Hub) : Hub :=
  if (getPath i h).drive = d then h else count ringPage 0 1 (putPath i { getPath i h with drive := d } h)

/-- What a path's new state means to its ports (R76) and counters (R89, R91): the ports train only in Loopback and Joining,
and run in Joined. -/
def pathExits (i : PathId) (old st : PathState) (h : Hub) : Hub :=
  let h2 := if old = .joined ∧ st ≠ .joined then count ringPage (match i with | .a => 1 | .b => 2) 1 h else h
  let h3 := if old = .joining ∧ st ≠ .joined then raise ringPage 18 h2 else h2
  if st = .joined then h3
  else
    let h4 := (pathPorts i).foldl (fun x p => portOff p x) h3
    if st = .loopback ∨ st = .joining then (pathPorts i).foldl (fun x p => portStart p x) h4 else h4

/-- The path enters a state; what follows leaves the path's own record as entered. -/
def pathTo (i : PathId) (st : PathState) (h : Hub) : Hub :=
  let o := getPath i h
  let n : RingPath := { o with st := st, since := h.clock, qual := o.qual && st != .bypassed }
  putPath i n (pathExits i o.st st (putPath i n h))

/-- R77: drive removed; Closing, or Bypassed if the switches are sensed closed. -/
def pathClose (i : PathId) (h : Hub) : Hub :=
  let h1 := setDrive i false h
  pathTo i (if (getPath i h1).sense then .closing else .bypassed) h1

/-- States that a closing condition ends (R77). -/
def closable (st : PathState) : Bool :=
  st == .loopback || st == .qualified || st == .opening || st == .joining || st == .joined

/-- R74, R77: a closing condition acts on a path. -/
def pathCondition (i : PathId) (h : Hub) : Hub :=
  if closingCond h && closable (getPath i h).st then pathClose i h else h

/-- R74: both paths; what path B's closing does leaves path A's record as it was. -/
def closePaths (h : Hub) : Hub :=
  let h1 := pathCondition .a h
  putPath .a (getPath .a h1) (pathCondition .b h1)

/-- R76: JOIN_EN = 0. -/
def pathUnjoin (i : PathId) (h : Hub) : Hub :=
  match (getPath i h).st with
  | .loopback | .qualified | .refused => pathTo i .bypassed h
  | .opening | .joining | .joined => pathTo i .closing (setDrive i false h)
  | .bypassed | .closing => h

/-- R76, R84: JOIN_EN of each path as RING_CTRL now stands. -/
def pathsObeyJoin (h : Hub) : Hub :=
  let f (i : PathId) (x : Hub) : Hub := if joinEn i x then x else pathUnjoin i x
  f .b (f .a h)

/-- R84: a write of RING_CTRL. -/
def ringCtrlWrite (v : Word) (h : Hub) : Hub :=
  closePaths (pathsObeyJoin (putReg ringPage 0x40 (v &&& w64 0xB) h))

/-- R560: entry to a fence clears the join enables; R115 loads them. -/
def setJoinEn (a b : Bool) (h : Hub) : Hub :=
  pathsObeyJoin (putReg ringPage 0x40 (putBit (putBit (getReg ringPage 0x40 h) 0 a) 1 b) h)

/-- R601: CLOSE_CMD. -/
def setCloseCmd (h : Hub) : Hub := closePaths (putReg ringPage 0x40 (putBit (getReg ringPage 0x40 h) 3 true) h)

/-- R76: Bypassed to Loopback. -/
def pathStart (i : PathId) (h : Hub) : Hub :=
  if (getPath i h).st = .bypassed ∧ joinEn i h = true ∧ moduleValid h = true ∧ h.boot.phase = .ready ∧ closingCond h = false then
    pathTo i .loopback h
  else h

/-- R76: both ports of a path in Loopback have qualified. -/
def loopPass (i : PathId) (h : Hub) : Hub :=
  if (getPath i h).st = .loopback ∧ (pathPorts i).all (fun p => (getPort p h).st == .ready) then
    pathTo i .qualified (putPath i { getPath i h with qual := true } h)
  else h

/-- R76, R114: Loopback fails. -/
def loopFail (i : PathId) (h : Hub) : Hub :=
  if (getPath i h).st = .loopback then raise ringPage 17 (pathTo i .refused h) else h

/-- R76, R77: Qualified to Opening; path A first where both are Qualified. -/
def pathOpen (i : PathId) (h : Hub) : Hub :=
  let o := (getPath (otherPath i) h).st
  if (getPath i h).st = .qualified ∧ o ≠ .opening ∧ o ≠ .joining ∧ ¬(i = .b ∧ o = .qualified) ∧ closingCond h = false ∧
      joinEn i h = true then
    setDrive i true (pathTo i .opening h)
  else h

/-- R76: the switches are sensed open. -/
def sensedOpen (i : PathId) (h : Hub) : Hub :=
  let h1 := putPath i { getPath i h with sense := true } h
  if (getPath i h1).st = .opening then pathTo i .joining h1 else h1

/-- R76: the switches are sensed closed. -/
def sensedClosed (i : PathId) (h : Hub) : Hub :=
  let h1 := putPath i { getPath i h with sense := false } h
  if (getPath i h1).st = .closing then pathTo i .bypassed h1 else h1

/-- R76: not sensed open 10 ms after the drive. -/
def openingTimeout (i : PathId) (h : Hub) : Hub :=
  let p := getPath i h
  if p.st = .opening ∧ p.sense = false ∧ p.since + msToNs 10 ≤ h.clock then
    raise ringPage 16 (pathTo i .closing (setDrive i false h))
  else h

/-- R76: both ports passed. -/
def joinPass (i : PathId) (h : Hub) : Hub :=
  if (getPath i h).st = .joining ∧ (pathPorts i).all (fun p => (getPort p h).st == .ready) then pathTo i .joined h else h

/-- R76: 10 s in Joining. -/
def joiningTimeout (i : PathId) (h : Hub) : Hub :=
  let p := getPath i h
  if p.st = .joining ∧ p.since + msToNs 10000 ≤ h.clock then pathTo i .closing (setDrive i false h) else h

/-- R76, R90: not sensed closed within 10 ms. -/
def closingTimeout (i : PathId) (h : Hub) : Hub :=
  let p := getPath i h
  if p.st = .closing ∧ p.sense = true ∧ p.since + msToNs 10 ≤ h.clock then raise ringPage 16 h else h

/-- R99: does a ring port's path let it train? -/
def pathTrains (p : Nat) (h : Hub) : Bool :=
  let s := (getPath (pathOf p) h).st
  s == .loopback || s == .joining || s == .joined

/-- A signed byte in units of 0.1 dBm (R87). -/
def powerOf (b : Nat) : Int := sextNat 8 b

/-- R87, R88: the received power of each ring port. -/
def rxPowerUpdate (bs : List Nat) (h : Hub) : Hub :=
  let h1 := (List.range 4).foldl (fun x p => putPort p { getPort p x with rxPower := nth bs p 0x80 % 256 } x) h
  let low := (List.range 4).any (fun p =>
    let s := (getPath (pathOf p) h1).st
    (s == .joining || s == .joined) && decide (powerOf (getPort p h1).rxPower < powerOf (regFld ringPage 0x5C 7 0 h1)))
  if low then raise ringPage 19 h1 else h1

def pathCode : PathState → Nat
  | .bypassed => 0 | .loopback => 1 | .qualified => 2 | .opening => 3 | .joining => 4 | .joined => 5 | .closing => 6 | .refused => 7

def pathBits (p : RingPath) : Nat := pathCode p.st * 16 + bit01 p.sense * 8 + bit01 p.drive * 4 + bit01 p.qual * 2

/-- R85: RING_PATH. -/
def ringPathView (h : Hub) : Nat := mkFld 16 16 (bit01 (!h.pins.bypassForceN)) + pathBits h.pathB * 256 + pathBits h.pathA

/-- R86: a neighbour is known while its path is Joining or Joined. -/
def neighbourOf (p : Nat) (h : Hub) : Nat :=
  let o := getPort p h
  let s := (getPath (pathOf p) h).st
  if o.partnerV && o.partnerVkm && (s == .joining || s == .joined) then 0x8000 + o.partnerModule % 1024 else 0

/-- R282: a write of RING_FEATURE_FLOOR; LEVEL_MAX stays. -/
def floorWrite (v : Word) (h : Hub) : Hub :=
  if 2 < fld v 3 0 then raise ringPage 22 h else putReg ringPage 0x100 (w64 (0x200 + fld v 3 0)) h

/-- R296: the selected route entry; an entry naming this module is ignored. -/
def routeWrite (v : Word) (h : Hub) : Hub :=
  { h with routes := Tab.set h.routes (regFld ringPage 0x108 9 0 h) { v := bitOf v 31, port := fld v 6 2, kind := fld v 1 0 } }

/-- R83, R296: what the RING page shows. -/
def ringView (off : Nat) (h : Hub) : Option Nat :=
  if off = 0x48 then some (ringPathView h)
  else if off = 0x50 then some (neighbourOf 3 h * 2 ^ 48 + neighbourOf 1 h * 2 ^ 32 + neighbourOf 2 h * 2 ^ 16 + neighbourOf 0 h)
  else if off = 0x58 then
    some (((List.range 4).map (fun p => (getPort p h).rxPower * 2 ^ (8 * p))).sum)
  else if off = 0x10C then
    let r := Tab.getD h.routes (regFld ringPage 0x108 9 0 h) {}
    some (mkFld 31 31 (bit01 r.v) + mkFld 6 2 r.port + mkFld 1 0 r.kind)
  else none

end Sys2Proof.Machine
end

