-- ==== Sys2Proof/Machine/Fence.lean ====
section
/-!
DEFINITION. Fencing the module (R553, R560), and a Twinset pair's states, breaks and frames (R596 to R610) as one member
sees them.
-/
namespace Sys2Proof.Machine

def rasPage : Nat := 0x300
def twinPage : Nat := 0x340

def fenceCode : FenceState → Nat
  | .serving => 0 | .fenced => 1 | .fatal => 2

/-- R565: RAS_FENCE. -/
def rasFence (h : Hub) : Nat := mkFld 7 4 h.ras.cause + fenceCode h.ras.fence

/-- R583: the schedule runs by the calendar, which is set and not stale; else by power-on hours. -/
def fittingByCalendar (h : Hub) : Bool := h.time.calSet && !h.time.calStale

/-- R583: power-on hours of the last cycle plus 24 times the period. -/
def fittingNextPoh (h : Hub) : Nat := h.fitting.startPoh + 24 * regFld 0x318 0x40 31 24 h

/-- R583, R593: a scheduled cycle is due. -/
def fittingDue (h : Hub) : Bool :=
  regFld 0x318 0x40 31 24 h != 0 &&
  (if fittingByCalendar h then decide (h.fitting.next ≤ h.time.calSeconds) else decide (fittingNextPoh h ≤ h.time.poh))

/-- R593: FITTING_STATUS. -/
def fittingStatus (h : Hub) : Nat :=
  let f := h.fitting
  mkFld 63 60 f.phase + mkFld 59 56 f.result + mkFld 55 48 f.permit +
    mkFld 31 16 (nth f.floors h.boot.oppoint 0) + mkFld 15 0 f.vcore

/-- R584: a cycle under way is abandoned; it runs again where one is due. -/
def fittingAbandon (h : Hub) : Hub :=
  if h.fitting.phase = 0 then h
  else
    let h1 := { h with fitting := { h.fitting with phase := 0, result := 1, late := fittingDue h } }
    logEvent 0x0D (bytesLE 8 (fittingStatus h1)) (raiseEvent 0x318 0 h1)

/-- R560: contexts fault FENCED. -/
def stopAllCores (h : Hub) : Hub :=
  h.cores.foldl (fun x e => (List.range 8).foldl (fun y c => stopCtx e.1 c fFenced y) x) h

/-- R560: RAS_FENCE.STATE changes: reported and logged. -/
def setFence (st : FenceState) (cause : Nat) (h : Hub) : Hub :=
  let h1 := { h with ras := { h.ras with fence := st, cause := cause } }
  logEvent 0x06 (bytesLE 4 (rasFence h1)) (raiseEvent rasPage 3 h1)

/-- R560, R584: what entry to a fence does to the module. -/
def fenceEffects (h : Hub) : Hub := stopAllCores (fittingAbandon (closePaths (setJoinEn false false h)))

/-- R560: a command fence. -/
def commandFence (h : Hub) : Hub := if h.ras.fence = .serving then fenceEffects (setFence .fenced 1 h) else h

/-- R560: UNFENCE of a command fence. -/
def commandUnfence (h : Hub) : Hub := if h.ras.fence = .fenced then setFence .serving 0 h else h

/-- R553, R560: the module becomes FatalFenced; a later fault changes nothing. -/
def fatalFence (cause : Nat) (h : Hub) : Hub :=
  if h.ras.fence = .fatal then h else fenceEffects (setFence .fatal cause (raise rasPage 16 h))

/- ### The pair -/

def twinCode : TwinMode → Nat
  | .single => 0 | .linking => 1 | .syncing => 2 | .joined => 3 | .broken => 4 | .refused => 5

def phaseCode : Phase → Nat
  | .held => 0 | .ledger => 1 | .clocking => 2 | .testing => 3 | .restoring => 4 | .ready => 5 | .quiescing => 6 | .failed => 7

/-- R610: MIN_LINKS and HB_US as they act. -/
def minLinks (h : Hub) : Nat := max 1 (min 8 (fld h.twin.cfg 27 24))
def hbNs (h : Hub) : Nat := usToNs (max 5 (fld h.twin.cfg 15 0))

/-- R598: kinds of TWIN_CTRL, in the order R598 lists them. -/
def ctrlFence : Nat := 0
def ctrlUnfence : Nat := 1
def ctrlWarm : Nat := 2
def ctrlBreak : Nat := 3
def ctrlAgentLoss : Nat := 4
def ctrlLease : Nat := 5

/-- R599: VALID follows the pair's state. -/
def twinTo (st : TwinMode) (cause : Nat) (h : Hub) : Hub :=
  let h1 := { h with twin := { h.twin with st := st, cause := cause, since := h.clock } }
  putReg 0 0x50 (putBit (getReg 0 0x50 h1) 31 (st == .joined || (st == .single && !h1.twin.en && h1.armoire.moduleId.isSome))) h1

/-- R601: the pair breaks. -/
def twinBreak (cause : Nat) (h : Hub) : Hub :=
  if h.twin.st ≠ .joined then h
  else
    twinTo .broken cause h
      |> setCloseCmd
      |> fatalFence 6
      |> raise twinPage 16
      |> count twinPage 5 1
      |> bridgeAll 0x63 [ctrlBreak]

/-- R553, R602: a fault that cannot be contained fences the module, and breaks its pair. -/
def moduleFatal (cause : Nat) (h : Hub) : Hub := twinBreak 5 (fatalFence cause h)

/-- R599: entry to Refused. -/
def twinRefuse (cause : Nat) (h : Hub) : Hub := raise twinPage 17 (twinTo .refused cause h)

/-- R599: the fields a hello exchanges: role, stored module ID, VERSION.STEP (R32: 1), profile, floor. -/
def helloFields (h : Hub) : List Nat :=
  [h.twin.role, (h.armoire.moduleId).getD 0x400, 1, h.boot.pool * 16 + h.boot.oppoint, regFld 0x348 0x100 3 0 h]

/-- R606: the registers that are mirrored. -/
def mirroredReg (page off : Nat) : Bool :=
  (page == 0xA0 && (off == 0x40 || off == 0x48)) || (page == 0x60 && (off == 0x40 || off == 0x48 || decide (0x100 ≤ off ∧ off < 0x200))) ||
  (page == 1 && off == 0x48) || (page == 0x348 && (off == 0x100 || off == 0x104 || off == 0x10C))

/-- R599: Linking to Syncing once enough bridge ports are Ready. -/
def twinLinks (h : Hub) : Hub :=
  if h.twin.st = .linking ∧ minLinks h ≤ (readyBridges h).length then bridgeAll 0x60 (helloFields h) (twinTo .syncing 0 h) else h

/-- R599: the phase reaches Ready with EN = 1. -/
def twinReady (h : Hub) : Hub :=
  if h.twin.en ∧ h.twin.st = .single then twinLinks (twinTo .linking 0 h) else h

/-- R599, R610: the pair is Joined. -/
def twinJoin (h : Hub) : Hub :=
  count twinPage 4 1 (raiseEvent twinPage 0 { (twinTo .joined 0 h) with twin := { (twinTo .joined 0 h).twin with hbAt := h.clock } })

/-- R599, R600: a hello: equal fields but for the role, which is the other one. -/
def helloEqual (fields : List Nat) (h : Hub) : Bool :=
  match helloFields h, fields with
  | a :: as, b :: bs => a != b && as == bs
  | _, _ => false

/-- R600: too few bridge ports are left, or a port left Ready while Joined. -/
def twinPortLost (h : Hub) : Hub :=
  if h.twin.st ≠ .joined then h
  else
    let h1 := raiseEvent twinPage 1 h
    if h.twin.inPairWarm ∨ minLinks h ≤ (readyBridges h1).length then h1 else twinBreak 1 h1

/-- A port leaves Ready: the pair looks at its bridge. -/
def portDrop (p : Nat) (st : PortState) (h : Hub) : Hub :=
  let h1 := portTo p st h
  if (getPort p h).st = .ready ∧ bindMode p h = 2 ∧ h.twin.en = true then twinPortLost h1 else h1

/-- R598, R600, R602: a heartbeat of the partner; a pair warm reset ends when both report Ready. -/
def twinHeartbeat (phase fence state : Nat) (h : Hub) : Hub :=
  let h1 := { h with twin := { h.twin with hbAt := h.clock, partnerPhase := phase, partnerFence := fence, partnerState := state } }
  if h1.twin.st ≠ .joined then h1
  else if fence = 2 ∨ state = 4 then twinBreak 3 h1
  else if !h1.twin.inPairWarm && [0, 1, 2, 3, 7].contains phase then twinBreak 4 h1
  else if h1.twin.inPairWarm ∧ h1.boot.phase = .ready ∧ phase = 5 then
    let h2 := { h1 with twin := { h1.twin with inPairWarm := false } }
    if minLinks h2 ≤ (readyBridges h2).length then h2 else twinBreak 1 h2
  else h1

/-- R598: a heartbeat sent on each Ready bridge port. -/
def twinHeartbeatSend (h : Hub) : Hub :=
  if h.twin.en then bridgeAll 0x61 [phaseCode h.boot.phase, fenceCode h.ras.fence, twinCode h.twin.st] h else h

/-- R600: no heartbeat for HB_US. -/
def twinHeartbeatTimeout (h : Hub) : Hub :=
  if h.twin.st = .joined ∧ !(h.twin.inPairWarm && h.boot.phase != .ready) ∧ h.twin.hbAt + hbNs h ≤ h.clock then twinBreak 2 h else h

/-- R599: 10 s in Linking. -/
def twinLinkingTimeout (h : Hub) : Hub :=
  if h.twin.st = .linking ∧ h.twin.since + msToNs 10000 ≤ h.clock then twinRefuse 7 h else h

/-- R599: 100 ms in Syncing. -/
def twinSyncingTimeout (h : Hub) : Hub :=
  if h.twin.st = .syncing ∧ h.twin.since + msToNs 100 ≤ h.clock then twinRefuse 7 h else h

/-- R610: a write of TWIN_CFG takes effect at the next cold reset. -/
def twinCfgWrite (v : Word) (h : Hub) : Hub :=
  if h.twin.st = .single ∨ h.twin.st = .broken ∨ h.twin.st = .refused then
    putReg twinPage 0x40 (v &&& w64 (masks [(31, 30), (27, 24), (15, 0)])) h
  else raise twinPage 18 h

/-- R609, R610: what the TWIN page shows. -/
def twinView (off : Nat) (h : Hub) : Option Nat :=
  if off = 0x44 then
    some (mkFld 31 28 (twinCode h.twin.st) + mkFld 27 24 h.twin.cause +
      mkFld 23 16 (((List.range 8).map (fun i => if h.twin.en && portReady (nth bridgePorts i 0) h then 2 ^ i else 0)).sum))
  else if off = 0x48 then some h.twin.partnerSerial
  else none

/-- R602: FENCE and UNFENCE of a pair act on both members. -/
def nipiebFence (h : Hub) : Hub :=
  let h1 := commandFence h
  if h.twin.st = .joined then bridgeOne 0x63 [ctrlFence] h1 else h1

def nipiebUnfence (h : Hub) : Hub :=
  let h1 := commandUnfence h
  if h.twin.st = .joined ∧ h.ras.fence = .fenced then bridgeOne 0x63 [ctrlUnfence] h1 else h1

end Sys2Proof.Machine
end

