-- ==== Sys2Proof/Machine/Train.lean ====
section
/-!
DEFINITION. Training and qualification of Yumer ports (R63, R64, R99 to R101, R114, R280, R287, R559, R597).
-/
namespace Sys2Proof.Machine

/-- R96, R611: phases in which a client port may start; a ring port needs its path (R76). -/
def portMayStart (p : Nat) (h : Hub) : Bool :=
  if isRingPort p then pathTrains p h else h.boot.phase == .testing || h.boot.phase == .restoring || h.boot.phase == .ready

/-- R99: Disabled to Detect. -/
def detectStart (p : Nat) (h : Hub) : Hub := if portMayStart p h then portStart p h else h

/-- R99: a partner's signal on at least 8 lanes per direction. -/
def partnerDetected (p tx rx : Nat) (h : Hub) : Hub :=
  if (getPort p h).st = .detect ∧ 8 ≤ tx ∧ 8 ≤ rx then portTo p .equalise h else h

/-- R63, R64, R99: equalisation ends; the lanes named failed to adapt. -/
def equaliseDone (p : Nat) (txFail rxFail : List Nat) (h : Hub) : Hub :=
  let o := getPort p h
  if o.st ≠ .equalise then h
  else
    let r := portOutcome o txFail rxFail
    if secondOutcome r.1 || secondOutcome r.2 then portRetry p true h
    else if badOutcome r.1 || badOutcome r.2 then portRetry p false h
    else portTo p .laneMap (retireOutcome p r h)

/-- R101: the stored training record of a port fits its lane map and its partner. -/
def recordFits (p module : Nat) (h : Hub) : Bool :=
  match Tab.get? h.armoire.training p with
  | none => false
  | some r => r.partnerModule == module && r.txRetired == (getPort p h).txRetired && r.rxRetired == (getPort p h).rxRetired

/-- R108, R124: a port trained on the cold path during a warm bring-up, counted once. -/
def noteFallback (p module : Nat) (h : Hub) : Hub :=
  if h.boot.warm && !(getPort p h).wasReady && !recordFits p module h then count 0x330 2 1 h else h

/-- The partner is known (R99, R287): the lower of both levels is in use. -/
def learnPartner (p : Nat) (vkm : Bool) (level module : Nat) (h : Hub) : Hub :=
  let h1 := portTo p .qualify h
  putPort p { getPort p h1 with partnerV := true, partnerVkm := vkm, partnerLevel := level, partnerModule := module,
                                level := min 2 level } h1

/-- R99, R114, R280, R597: LaneMap ends. `ownPort`: the partner is this module itself, by that port; `role`: the partner's
Twinset role. -/
def laneMapDone (p : Nat) (vkm : Bool) (level module role : Nat) (ownPort : Option Nat) (h : Hub) : Hub :=
  let o := getPort p h
  if o.st ≠ .laneMap then h
  else if regBit (portPage p) 0x40 1 h then
    let h1 := portTo p .qualify h
    putPort p { getPort p h1 with level := 2 } h1
  else if isRingPort p && (getPath (pathOf p) h).st == .loopback then
    (match ownPort with
     | some q =>
       if q ≠ p ∧ pathOf q = pathOf p ∧ q < 4 then learnPartner p true level (moduleId h) h
       else loopFail (pathOf p) h
     | none => loopFail (pathOf p) h)
  else if level + 1 < 2 ∨ 3 < level then portRetry p false (raise (portPage p) 20 h)
  else if bindMode p h = 2 ∧ h.twin.en = true then
    if h.armoire.moduleId = some module ∧ role ≠ h.twin.role ∧ vkm = true then learnPartner p true level module (noteFallback p module h)
    else portRetry p false h
  else if vkm && moduleValid h && module == moduleId h then portRetry p false (raise 0x330 23 h)
  else learnPartner p vkm level module (noteFallback p module h)

/-- R101: at Ready a port stores its record. -/
def storeRecord (p : Nat) (h : Hub) : Hub :=
  let o := getPort p h
  let r : TrainRecord := ⟨o.partnerModule, o.txRetired, o.rxRetired⟩
  if Tab.get? h.armoire.training p = some r then h
  else armTouch 6 { h with armoire := { h.armoire with training := Tab.set h.armoire.training p r } }

/-- R99: a port is Ready. -/
def portIsReady (p : Nat) (h : Hub) : Hub :=
  let o := getPort p h
  let h1 := putPort p { o with st := .ready, since := h.clock, wasReady := true, secondFail := false } h
  let h2 := if regBit (portPage p) 0x40 1 h then h1 else storeRecord p h1
  twinLinks h2

/-- R100: the soak ends; the lanes named failed. -/
def soakEnd (p : Nat) (txFail rxFail : List Nat) (h : Hub) : Hub :=
  let o := getPort p h
  if o.st ≠ .qualify then h
  else
    let r := portOutcome o txFail rxFail
    if secondOutcome r.1 || secondOutcome r.2 then portRetry p true h
    else if badOutcome r.1 || badOutcome r.2 then portRetry p false h
    else if r.1 = .pass ∧ r.2 = .pass then portIsReady p h
    else
      let n := (if r.1 = .pass then 0 else 1) + (if r.2 = .pass then 0 else 1)
      portTo p .equalise (retireOutcome p r (count 0x330 3 n h))

/-- R99: a Ready port loses its link. -/
def linkLoss (p : Nat) (h : Hub) : Hub := if (getPort p h).st = .ready then portDrop p .detect h else h

/-- R99: 1 s in Retry. -/
def retryExpiry (p : Nat) (h : Hub) : Hub :=
  let o := getPort p h
  if o.st = .retry ∧ o.since + msToNs 1000 ≤ h.clock then
    if o.secondFail then
      portTo p .disabled (putReg (portPage p) 0x10 (putBit (getReg (portPage p) 0x10 h) 0 false) h)
    else portTo p .detect h
  else h

/-- R287: a write of PORT_CFG; a change of NEAR_LOOP takes a port that is not Disabled to Detect. -/
def portCfgWrite (p : Nat) (v : Word) (h : Hub) : Hub :=
  let old := regBit (portPage p) 0x40 1 h
  let put (x : Hub) : Hub := putReg (portPage p) 0x40 (v &&& w64 3) x
  if bitOf v 1 = old ∨ (getPort p h).st = .disabled then put h else put (portDrop p .detect h)

/-- R20, R99: a PORT page's ENABLE goes to 0. -/
def portDisable (p : Nat) (h : Hub) : Hub := if (getPort p h).st = .disabled then h else portDrop p .disabled h

/-- R559, R555: a lane crosses the in-service limit, by error ratio or (`uncorr`) uncorrectable codewords. The lane is recorded, and retired while RAS_CFG.AUTO_LANE is 1. -/
def laneBer (p : Nat) (rx : Bool) (lane : Nat) (uncorr : Bool) (h : Hub) : Hub :=
  let o := getPort p h
  if o.st ≠ .ready ∨ 8 < lane ∨ (if rx then o.rxRetired else o.txRetired) = some lane then h
  else
    let loc := laneLoc p (bit01 rx) lane
    let h1 := histAdd 3 loc uncorr h
    let h2 := if enabled rasPage h then
        { h1 with armoire := { h1.armoire with history := h1.armoire.history.map (fun r => if r.kind = 3 ∧ r.loc = loc then { r with perm := true } else r) } }
      else h1
    if !enabled rasPage h || !regBit rasPage 0x40 3 h then h2
    else if (if rx then o.rxRetired else o.txRetired).isSome then portDrop p .retry h2 |>
        (fun x => raise 0x330 22 (putPort p { getPort p x with secondFail := true } x))
    else portDrop p .equalise (retireLane p rx lane (raiseEvent rasPage 2 (count rasPage 5 1 h2)))

/-- R251: a port's replay limit may drop its link; a bridge port's loss is the pair's matter. -/
def replayExpiry (p : Nat) (h : Hub) : Hub :=
  let h1 := replayTimeout p h
  if (getPort p h).st = .ready ∧ (getPort p h1).st ≠ .ready ∧ bindMode p h = 2 ∧ h.twin.en = true then twinPortLost h1 else h1

/-- R109: every port starts again after a reset of the module; retired lanes stay with the stored lane map (R64). -/
def portsReset (h : Hub) : Hub :=
  (List.range 28).foldl (fun x p =>
    let o := getPort p x
    let o1 : Port := { st := .disabled, since := x.clock, txRetired := o.txRetired, rxRetired := o.rxRetired, rxPower := o.rxPower }
    if o.st = .ready then count (portPage p) 11 1 (putPort p o1 x) else putPort p o1 x) { h with egress := [] }

/-- R64, R94: the lanes the defect map lists, as loaded in Clocking. -/
def loadLanes (h : Hub) : Hub :=
  h.armoire.defect.foldl (fun x w =>
    if fld w 63 60 = 3 then
      let p := fld w 4 0
      let o := getPort p x
      if bitOf w 5 then putPort p { o with rxRetired := some (fld w 9 6) } x
      else putPort p { o with txRetired := some (fld w 9 6) } x
    else x)
    ((List.range 28).foldl (fun x p => putPort p { getPort p x with txRetired := none, rxRetired := none } x) h)

end Sys2Proof.Machine
end

