-- ==== Sys2Proof/Machine/Time.lean ====
section
/-!
DEFINITION. The time base (R233 to R235, R263), the calendar and power-on hours (R236), the persistent counters (R572), and
the TIME page (R245).
-/
namespace Sys2Proof.Machine

def timePage : Nat := 1

/-- R234: ports that send and take sync frames: Joined ring ports and bridge ports, Ready. -/
def syncPort (p : Nat) (h : Hub) : Bool :=
  portReady p h && ((isRingPort p && (getPath (pathOf p) h).st == .joined) || bindMode p h == 2)

def syncEn (h : Hub) : Bool := regBit timePage 0x48 0 h

/-- R245, R606: MASTER; member 1's reads 0. -/
def masterEn (h : Hub) : Bool := regBit timePage 0x48 1 h && !(h.twin.en && h.twin.role == 1)

/-- R234: the port offering the lowest hop count, the lowest port among equals; member 1 takes time over the bridge only. -/
def bestSync (h : Hub) : Option Nat :=
  let ports := (List.range 28).filter (fun p =>
    syncPort p h && (getPort p h).syncHops != 0xFF && !(h.twin.en && h.twin.role == 1 && bindMode p h != 2))
  ports.foldl (fun (b : Option Nat) p =>
    match b with
    | none => some p
    | some q => if (getPort p h).syncHops < (getPort q h).syncHops then some p else some q) none

/-- R263: the sender's time runs ahead by this much. -/
def syncOffset (t1 t2 t3 t4 : Nat) : Int := (((t2 : Int) - t1) + ((t3 : Int) - t4)) / 2

/-- R234: how a module corrects itself. -/
def correct (off : Int) (h : Hub) : Hub :=
  let t := h.time
  if !t.locked then
    if 0 < off then { h with devTime := h.devTime + off.toNat, time := { t with locked := true, slewForward := 0, slewBack := 0 } }
    else { h with time := { t with locked := true, slewForward := 0, slewBack := (-off).toNat } }
  else if 10000 < off then
    raise timePage 17 { h with devTime := h.devTime + off.toNat, time := { t with slewForward := 0, slewBack := 0 } }
  else if 0 ≤ off then { h with time := { t with slewForward := off.toNat, slewBack := 0 } }
  else { h with time := { t with slewForward := 0, slewBack := (-off).toNat } }

/-- R235: the state after a sync is taken: a MASTER module acts as master once locked. -/
def syncState (hops : Nat) (h : Hub) : Hub :=
  if masterEn h then { h with time := { h.time with sync := 3, hops := 0 } }
  else { h with time := { h.time with sync := 1, hops := min 0xFE (hops + 1) } }

/-- R234, R235, R263: a time-sync frame arrives on port p. -/
def timeSync (p tx echoTx echoRx hops : Nat) (h : Hub) : Hub :=
  if !syncEn h || !syncPort p h then h
  else
    let o := { getPort p h with syncTx := tx, syncRx := h.devTime, syncHops := hops }
    let h1 := putPort p o { h with time := { h.time with lastSync := h.devTime } }
    if h.time.sync = 3 ∨ echoTx = 0 ∨ bestSync h1 ≠ some p then h1
    else
      let off := syncOffset echoTx echoRx tx h.devTime
      let h2 := { h1 with time := { h1.time with offset := wrapInt 32 off, source := p } }
      syncState hops (correct off h2)

/-- R263: a time-sync payload. -/
def syncPayload (p : Nat) (h : Hub) : List Byte :=
  let o := getPort p h
  bytesLE 8 h.devTime ++ bytesLE 8 o.syncTx ++ bytesLE 8 o.syncRx ++ bytesLE 1 h.time.hops ++ bytesLE 7 0

/-- R234: every 10 us. -/
def syncSend (h : Hub) : Hub :=
  if !syncEn h then h
  else ((List.range 28).filter (fun p => syncPort p h)).foldl (fun x p =>
    emit (.frame p { opcode := 0x41, posted := true, len := 32, payload := syncPayload p h, scarry := scarryOf (syncPayload p h) }) x) h

/-- R235: no sync frame for 1 ms. -/
def syncLoss (h : Hub) : Hub :=
  if syncEn h ∧ h.time.sync = 1 ∧ h.time.lastSync + msToNs 1 ≤ h.devTime then
    raise timePage 16 { h with time := { h.time with sync := 2 } }
  else h

/-- R235: 100 ms with no sync frame. -/
def masterTimeout (h : Hub) : Hub :=
  if masterEn h ∧ h.time.locked = false ∧ h.time.sync ≠ 3 ∧ h.time.lastSync + msToNs 100 ≤ h.devTime then
    { h with time := { h.time with sync := 3, hops := 0 } }
  else h

/-- R233, R234: one TB tick of DEV_TIME; a slew of 200 ppm adds or leaves out one tick in 5,000. -/
def devTick (h : Hub) : Hub :=
  let t := h.time
  if h.clock % 5000 = 0 ∧ 0 < t.slewForward then { h with devTime := h.devTime + 2, time := { t with slewForward := t.slewForward - 1 } }
  else if h.clock % 5000 = 0 ∧ 0 < t.slewBack then { h with time := { t with slewBack := t.slewBack - 1 } }
  else { h with devTime := h.devTime + 1 }

/-- R233: a cold reset starts DEV_TIME from 0. -/
def timeCold (h : Hub) : Hub :=
  { h with devTime := 0, time := { h.time with hops := 0xFF, sync := 0, offset := 0, locked := false, lastSync := 0, source := 0,
                                               slewForward := 0, slewBack := 0 } }

/- ### Calendar (R236) -/

/-- R236: the calendar and power-on hours go to the Armoire. -/
def calendarSave (h : Hub) : Hub :=
  armTouch 8 { h with armoire := { h.armoire with savedSeconds := h.time.calSeconds, savedSet := h.time.calSet, savedPoh := h.time.poh } }

/-- R236: the seconds counter and the power-on hours, each tick of the VAUX3 domain. -/
def calendarTick (h : Hub) : Hub :=
  let t := h.time
  let t1 := if h.pins.vaux3 ∧ t.calMark + 1000000000 ≤ h.clock then
      { t with calSeconds := (t.calSeconds + 1) % 2 ^ 48, calMark := t.calMark + 1000000000 } else t
  let t2 := if h.pins.pgOut ∧ t1.pohMark + 3600000000000 ≤ h.clock then
      { t1 with poh := t1.poh + 1, pohMark := t1.pohMark + 3600000000000 } else t1
  { h with time := t2 }

/-- R236: VAUX3 returns: the calendar resumes from its last record. -/
def calendarRestore (h : Hub) : Hub :=
  let a := h.armoire
  { h with time := { h.time with calSeconds := a.savedSeconds, calSet := a.savedSet, calStale := true, poh := a.savedPoh,
                                 calMark := h.clock, pohMark := h.clock } }

/-- R245. -/
def timeView (off : Nat) (h : Hub) : Option Nat :=
  let t := h.time
  if off = 0x40 then some (h.devTime % 2 ^ 64)
  else if off = 0x4C then some (mkFld 23 16 t.hops + t.sync)
  else if off = 0x50 then some t.offset
  else if off = 0x58 then some (mkFld 63 63 (bit01 t.calSet) + mkFld 62 62 (bit01 t.calStale) + t.calSeconds)
  else if off = 0x60 then some t.poh
  else none

/- ### Persistent counters (R572) -/

/-- Is this BAR0 offset a class 2 counter slot that persists? METER keeps its own rule. -/
def persistentKey (key : Nat) : Bool :=
  match pageInfo (key / 4096) with
  | none => false
  | some p => decide (0x800 ≤ key % 4096) && counterClass p ((key % 4096 - 0x800) / 8) == 2

/-- R572: the persistent counters and TIME_POH go to the Armoire. -/
def counterSave (h : Hub) : Hub :=
  let c : Tab Nat := (h.regs.filter (fun e => persistentKey e.1)).map (fun e => (e.1, e.2.toNat))
  armTouch 8 { h with armoire := { h.armoire with counters := c, savedPoh := h.time.poh } }

/-- R572: a cold bring-up restores them in Ledger; what the VAUX3 domain still holds is not set back (R92). -/
def counterRestore (h : Hub) : Hub :=
  let h1 := h.armoire.counters.foldl
    (fun x e => { x with regs := Tab.set x.regs e.1 (w64 (max e.2 (Tab.getD x.regs e.1 0).toNat)) }) h
  { h1 with time := { h1.time with poh := h.armoire.savedPoh } }

end Sys2Proof.Machine
end

