-- ==== Sys2Proof/Machine/Bundle.lean ====
section
/-!
DEFINITION. The ledger's regions as read (R569, R573, R586), configuration bundles (R574 to R579), and the ARMOIRE and SEC
pages (R591, R594, R595).
-/
namespace Sys2Proof.Machine

def armPage : Nat := 0x310
def secPage : Nat := 0x320

/- ### Bundles -/

/-- R575: a record: where it begins, its kind, its bytes after the header word. -/
structure BundleRec where
  at_ : Nat
  kind : Nat
  body : List Byte
  deriving DecidableEq, Repr

/-- R575: the records between two offsets, or the offset of one that overruns. -/
def bundleRecs (bs : List Byte) : Nat → Nat → Nat → Except Nat (List BundleRec)
  | 0, _, _ => .ok []
  | fuel + 1, at_, last =>
    if last ≤ at_ then .ok []
    else
      let w := leAt bs at_ 4
      let n := nbits w 31 8
      if n < 4 ∨ n % 4 ≠ 0 ∨ last < at_ + n then .error at_
      else
        match bundleRecs bs fuel (at_ + n) last with
        | .error e => .error e
        | .ok t => .ok (⟨at_, nbits w 7 0, sliceBytes bs (at_ + 4) (n - 4)⟩ :: t)

def bundleLen (bs : List Byte) : Nat := leAt bs 4 4
def bundleFmt (bs : List Byte) : Nat := leAt bs 0 2
def bundleSeq (bs : List Byte) : Nat := leAt bs 24 4
def bundleInstall (bs : List Byte) : Bool := (leAt bs 28 4).testBit 0

/-- The records of a bundle, to the signature. -/
def recsOf (bs : List Byte) : Except Nat (List BundleRec) := bundleRecs bs (bs.length / 4 + 1) 64 (bs.length - 96)

def recsOk (bs : List Byte) : List BundleRec := match recsOf bs with | .ok l => l | .error _ => []

/-- R575: fields of a REG record. -/
structure RegRec where
  page : Nat
  off : Nat
  width : Nat
  value : Nat
  deriving DecidableEq, Repr

def regRec (b : List Byte) : RegRec := ⟨leAt b 0 2, leAt b 2 2, leAt b 4 1, leAt b 8 8⟩

/-- R576: a REG record names a page of the page map and an offset the page defines. -/
def regRecOk (b : List Byte) : Bool :=
  let r := regRec b
  match pageInfo r.page with
  | none => false
  | some p => (r.width == 4 || r.width == 8) && decide (16 ≤ b.length) &&
      ((regAt p r.off).isSome || (decide (0x800 ≤ r.off) && counterClass p ((r.off - 0x800) / 8) != 0))

/-- R575, R576: is a record allowed in a bundle of this format? -/
def recOk (fmt : Nat) (r : BundleRec) : Bool :=
  if r.kind = 1 then regRecOk r.body
  else if r.kind = 2 then true
  else if r.kind = 3 then decide (nbits (leAt r.body 0 4) 5 4 < 2 ∧ nbits (leAt r.body 0 4) 3 0 ≤ 3)
  else if r.kind = 4 then decide (96 ≤ r.body.length)
  else if r.kind = 5 then fmt == 2
  else false

def findRec (kind : Nat) (bs : List Byte) : Option BundleRec := (recsOk bs).find? (fun r => r.kind == kind)

/-- R574: the signature holds under a key. -/
def sigOk (key bs : List Byte) : Bool := Config.ecdsaVerify key (bs.take (bs.length - 96)) (bs.drop (bs.length - 96))

def allZero (bs : List Byte) : Bool := bs.all (fun b => b == 0#8)

/-- R576: what BUNDLE_COMMIT finds: completion code and payload, or the bundle accepted. -/
inductive CommitResult
  | fail (cc : Nat) (payload : List Byte)
  | accept (bs : List Byte)
  deriving DecidableEq, Repr

/-- R72. -/
def ccOk : Nat := 0
def ccInvalidData : Nat := 2
def ccInvalidLength : Nat := 3
def ccUnsupported : Nat := 5
def ccNotPowered : Nat := 6
def ccDenied : Nat := 7
def ccVersion : Nat := 8

/-- The transfer as far as its own LENGTH, where every byte of it has been delivered. -/
def transferBytes (t : BundleTransfer) : Option (List Byte) :=
  let get (n : Nat) : List Byte := (List.range n).map (fun i => Tab.getD t.bytes i 0#8)
  let all (n : Nat) : Bool := (List.range n).all (fun i => (Tab.get? t.bytes i).isSome)
  if !all 64 then none
  else
    let n := bundleLen (get 64)
    if n < 160 ∨ n % 4 ≠ 0 ∨ t.len < n ∨ !all n then none else some (get n)

/-- R576: the checks in order. -/
def commitCheck (h : Hub) : CommitResult :=
  match h.side.bundle with
  | none => .fail ccInvalidLength []
  | some t =>
    match transferBytes t with
    | none => .fail ccInvalidLength []
    | some bs =>
      let part := leAt bs 8 8
      let serial := leAt bs 16 8
      let a := h.armoire
      let keys := (recsOk bs).filter (fun r => r.kind == 4)
      if bundleFmt bs ≠ 1 ∧ bundleFmt bs ≠ 2 then .fail ccDenied [2#8]
      else if (part ≠ 0 ∧ part ≠ 0x31424138344D4B56) ∨ (serial ≠ 0 ∧ serial ≠ a.serial) then .fail ccDenied [4#8]
      else
        let go : CommitResult :=
          if bundleSeq bs ≤ a.ownerSeq then .fail ccDenied [3#8]
          else
            match recsOf bs with
            | .error e => .fail ccInvalidData (bytesLE 4 e)
            | .ok l =>
              match l.find? (fun r => !recOk (bundleFmt bs) r) with
              | some r => .fail ccInvalidData (bytesLE 4 r.at_)
              | none => .accept bs
        match a.ownerKey with
        | some k => if bundleInstall bs || !sigOk k bs then .fail ccDenied [1#8] else go
        | none =>
          if !bundleInstall bs || keys.length != 1 || !allZero (bs.drop (bs.length - 96)) then .fail ccDenied [5#8] else go

/-- R573: detail of a bundle event: SEQ, BFMT, rejection reason. -/
def bundleDetail (bs : List Byte) (reason : Nat) : List Byte := bytesLE 4 (bundleSeq bs) ++ bytesLE 2 (bundleFmt bs) ++ bytesLE 1 reason

/-- R578: an owner key and sequence go to region 0x03. -/
def setOwner (key : Option (List Byte)) (seq : Nat) (h : Hub) : Hub :=
  let h1 := armTouch 3 { h with armoire := { h.armoire with ownerSeq := seq, ownerKey := match key with | some k => some k | none => h.armoire.ownerKey } }
  match key with
  | some k => logEvent 0x0A ((Config.sha384 k).take 16) (count secPage 3 1 h1)
  | none => h1

/-- R575: the key of an OWNER_KEY record. -/
def keyOf (bs : List Byte) : Option (List Byte) := (findRec 4 bs).map (fun r => r.body.take 96)

/-- R578: in Ledger the staged bundle is applied, or discarded where its CRC fails. -/
def applyStaged (h : Hub) : Hub :=
  match h.armoire.staged with
  | none => h
  | some b =>
    let h1 := armTouch 2 { h with armoire := { h.armoire with staged := none } }
    if !b.crcOk then raise armPage 18 h1
    else if bundleInstall b.bytes then setOwner (keyOf b.bytes) (bundleSeq b.bytes) h1
    else
      let h2 := setOwner (keyOf b.bytes) (bundleSeq b.bytes) { h1 with armoire := { h1.armoire with active := some b } }
      logEvent 0x09 (bundleDetail b.bytes 0) h2

/-- The active bundle's bytes; none: every field whose reset is per bundle takes 0, FLOOR 1 (R575). -/
def activeBundle (h : Hub) : Option (List Byte) := h.armoire.active.map (·.bytes)

/-- R575: RING_JOIN of the active bundle. -/
def bundleJoin (h : Hub) : Bool × Bool :=
  match (activeBundle h).bind (findRec 2) with
  | some r => ((leAt r.body 0 4).testBit 0, (leAt r.body 0 4).testBit 1)
  | none => (false, false)

/-- R575: PROFILE of the active bundle: POOL and OPPOINT. -/
def bundleProfile (h : Hub) : Nat × Nat :=
  match (activeBundle h).bind (findRec 3) with
  | some r => (nbits (leAt r.body 0 4) 5 4, nbits (leAt r.body 0 4) 3 0)
  | none => (0, 0)

/-- R575: REG records in bundle order, after FLOOR = 1, which a module without an active bundle takes, and here one whose
bundle gives no FLOOR. -/
def bundleRegs (h : Hub) : List RegRec :=
  ⟨0x348, 0x100, 4, 1⟩ ::
  match activeBundle h with
  | some bs => ((recsOk bs).filter (fun r => r.kind == 1)).map (fun r => regRec r.body)
  | none => []

/- ### Regions (R569) -/

/-- R569: KiB of a region's content. -/
def regionKib (r : Nat) : Nat :=
  if r = 0 then 256 else if r = 1 then 4 else if r = 2 then 2048 else if r = 3 then 4 else if r = 4 then 8
  else if r = 5 then 64 else if r = 6 then 1024 else if r = 7 then 257 else if r = 8 then 64 else if r = 9 then 16384
  else if r = 0xF then 4 else 0

/-- R565: the two words of a history record. -/
def histW0 (r : HistRecord) : Nat :=
  mkFld 63 60 r.kind + mkFld 59 59 (bit01 r.perm) + mkFld 58 58 (bit01 r.ueSeen) + mkFld 57 48 r.errors + mkFld 47 0 r.loc
def histW1 (r : HistRecord) : Nat := mkFld 63 32 r.firstPoh + mkFld 31 0 r.lastPoh

/-- R573: the 64 bytes of an event log record. -/
def eventBytes (n : Nat) (r : EventRecord) : List Byte :=
  let a := bytesLE 4 n ++ bytesLE 1 r.kind ++ bytesLE 3 0 ++ bytesLE 8 r.seconds ++ bytesLE 4 r.poh
  let d := sliceBytes r.detail 0 40
  a ++ bytesLE 4 (crc32c (a ++ d)) ++ d

/-- What the spec lays out of a region: n bytes at an offset inside what is written there; none where it lays out nothing. -/
def regionBytes (r off n : Nat) (h : Hub) : Option (List Byte) :=
  let a := h.armoire
  let pick (bs : List Byte) : Option (List Byte) := if off + n ≤ bs.length then some (sliceBytes bs off n) else none
  if r = 4 then pick ((a.defect.map (fun w => bytesLE 8 w.toNat)).flatten)
  else if r = 5 then pick ((a.histSaved.map (fun x => bytesLE 8 (histW0 x) ++ bytesLE 8 (histW1 x))).flatten)
  else if r = 2 then
    (if off + n ≤ 0x100000 then a.active.bind (fun b => pick b.bytes)
     else if 0x100000 ≤ off then a.staged.bind (fun b => if off - 0x100000 + n ≤ b.bytes.length then some (sliceBytes b.bytes (off - 0x100000) n) else none)
     else none)
  else if r = 9 then
    (let total := Tab.getD a.updates 9 0
     let at_ (slot : Nat) : Option (List Byte) :=
       ((List.range a.log.length).find? (fun i => (total - a.log.length + i) % 262144 == slot)).bind
         (fun i => (a.log[i]?).map (eventBytes (total - a.log.length + i + 1)))
     let slots := natRange (off / 64) ((off + n - 1) / 64 - off / 64 + 1)
     let parts := slots.map at_
     if parts.all (·.isSome) then some (sliceBytes ((parts.map (fun p => p.getD [])).flatten) (off % 64) n) else none)
  else none

/-- R71, R569: ARMOIRE_READ: completion code and bytes. Bytes the spec does not lay out are free values. -/
def armoireRead (region off n : Nat) (h : Hub) : (Nat × List Byte) × Hub :=
  if region = 0xF then ((ccDenied, []), h)
  else if regionKib region = 0 ∨ n = 0 ∨ 4096 < n ∨ regionKib region * 1024 < off + n then ((ccInvalidData, []), h)
  else
    match regionBytes region off n h with
    | some bs => ((ccOk, bs), h)
    | none => let r := freshBytes n h; ((ccOk, r.1), r.2)

/-- R591. -/
def armoireView (off : Nat) (h : Hub) : Option Nat :=
  let a := h.armoire
  if off = 0x40 then some (mkFld 31 16 a.spareFree + 0x0101)
  else if off = 0x48 then
    some (mkFld 63 32 (match a.active with | some b => bundleSeq b.bytes | none => 0) +
      mkFld 31 16 (match a.active with | some b => bundleFmt b.bytes | none => 0) +
      mkFld 1 1 (bit01 a.ownerKey.isSome) + mkFld 0 0 (bit01 a.staged.isSome))
  else if off = 0x58 then
    let r := regFld armPage 0x50 3 0 h
    some (mkFld 63 32 (Tab.getD a.updates r 0) + mkFld 31 0 (regionKib r))
  else none

/-- Word i of a digest. -/
def digestWord (d : List Byte) (i : Nat) : Nat := leAt d (8 * i) 8

/-- R594, R595. -/
def secView (off : Nat) (h : Hub) : Option Nat :=
  let a := h.armoire
  if off = 0x40 then
    some (mkFld 23 20 h.sec.sessions.length + mkFld 3 3 (bit01 h.cxl1.ide) + mkFld 2 2 (bit01 h.cxl0.ide) +
      mkFld 1 1 (bit01 a.chainValid) + mkFld 0 0 (bit01 a.ownerKey.isSome))
  else if 0x48 ≤ off ∧ off < 0x78 then
    some (match a.ownerKey with | some k => digestWord (Config.sha384 k) ((off - 0x48) / 8) | none => 0)
  else if 0x80 ≤ off ∧ off < 0xB0 then
    some (match a.active with | some b => digestWord (Config.sha384 b.bytes) ((off - 0x80) / 8) | none => 0)
  else if 0xC0 ≤ off ∧ off < 0xF0 then some (digestWord (Config.sha384 a.chain) ((off - 0xC0) / 8))
  else none

end Sys2Proof.Machine
end

