-- ==== Sys2Proof/Machine/Side.lean ====
section
/-!
DEFINITION. The sideband (R69 to R73): addresses, MCTP control, and the Nipieb commands that need no register page.
-/
namespace Sys2Proof.Machine

/-- R57, R69: the sideband runs on VAUX3, once it has its dynamic address. -/
def sideUp (h : Hub) : Bool := h.pins.vaux3 && h.side.dynAddr.isSome

/-- R69: ENTDAA. -/
def entdaa (addr : Nat) (h : Hub) : Hub :=
  if h.pins.vaux3 then { h with side := { h.side with dynAddr := some (addr % 128) } } else h

/-- R69, R73: MCTP control is served whatever Nipieb does; what it answers is DMTF's to say. -/
def mctpControl (h : Hub) : Hub :=
  if sideUp h then let r := freshBytes 1 h; emit (.mctp r.1) r.2 else h

/-- A Nipieb response (R70). -/
def nipAnswer (cmd cc : Nat) (q : NipHdr) (payload : List Byte) (h : Hub) : Hub := emit (.nipieb cmd cc (q.inst % 32) payload) h

/-- R70 to R72: vendor, version, length and power, before the command itself. -/
def nipieb (cmd : Nat) (aux : Bool) (q : NipHdr) (act : Hub → Hub) (h : Hub) : Hub :=
  if !sideUp h || q.vendor != 0xE37D then h
  else if q.nver ≠ 1 then nipAnswer cmd ccVersion q [] h
  else if !aux && !h.pins.pgOut then nipAnswer cmd ccNotPowered q [] h
  else if !q.lenOk then nipAnswer cmd ccInvalidLength q [] h
  else act h

/-- R71, R579: part, serial, stepping, Nipieb version, bundle formats. -/
def getInfo (q : NipHdr) (h : Hub) : Hub :=
  nipieb 0x01 true q (fun x =>
    nipAnswer 0x01 ccOk q (bytesLE 8 0x31424138344D4B56 ++ bytesLE 8 x.armoire.serial ++ bytesLE 2 1 ++ [1#8, 2#8, 1#8]) x) h

/-- R71: PG_OUT, thermal state, fence state, RING_PATH. -/
def getStatus (q : NipHdr) (h : Hub) : Hub :=
  nipieb 0x02 true q (fun x =>
    nipAnswer 0x02 ccOk q (bytesLE 1 (bit01 x.pins.pgOut) ++ bytesLE 1 (bit01 (!x.pins.thermTripN) * 2 + bit01 (x.ras.throttled != [])) ++
      bytesLE 1 (rasFence x) ++ bytesLE 4 (ringPathView x)) x) h

/-- R71, R94: SET_MODULE_ID. -/
def setModuleId (q : NipHdr) (id : Nat) (h : Hub) : Hub :=
  nipieb 0x20 true q (fun x =>
    if 1023 < id then nipAnswer 0x20 ccInvalidData q [] x
    else
      let old := (x.armoire.moduleId).getD 0xFFFF
      nipAnswer 0x20 ccOk q [] (logEvent 0x0B (bytesLE 2 old ++ bytesLE 2 id)
        (armTouch 1 { x with armoire := { x.armoire with moduleId := some id } }))) h

/-- R71. -/
def getModuleId (q : NipHdr) (h : Hub) : Hub :=
  nipieb 0x21 true q (fun x =>
    nipAnswer 0x21 ccOk q (bytesLE 2 ((x.armoire.moduleId).getD 0xFFFF) ++ bytesLE 4 (getReg 0 0x50 x).toNat) x) h

/-- R71, R73. -/
def bundleBegin (q : NipHdr) (len : Nat) (h : Hub) : Hub :=
  nipieb 0x30 true q (fun x =>
    if 0x100000 < len then nipAnswer 0x30 ccInvalidData q [] x
    else nipAnswer 0x30 ccOk q [] { x with side := { x.side with bundle := some ⟨len, [], x.clock⟩ } }) h

def putBytes (off : Nat) : List Byte → Tab Byte → Tab Byte
  | [], t => t
  | b :: bs, t => putBytes (off + 1) bs (Tab.set t off b)

/-- R71, R73: a part at its stated offset. -/
def bundleData (q : NipHdr) (off : Nat) (data : List Byte) (h : Hub) : Hub :=
  nipieb 0x31 true q (fun x =>
    match x.side.bundle with
    | none => nipAnswer 0x31 ccDenied q [] x
    | some t =>
      if t.len < off + data.length then nipAnswer 0x31 ccInvalidData q [] x
      else nipAnswer 0x31 ccOk q []
        { x with side := { x.side with bundle := some { t with bytes := putBytes off data t.bytes, last := x.clock } } }) h

/-- The bytes of the transfer's header, for the log. -/
def transferHead (h : Hub) : List Byte :=
  match h.side.bundle with
  | some t => (List.range 64).map (fun i => Tab.getD t.bytes i 0#8)
  | none => []

/-- R576: BUNDLE_COMMIT; a transfer that is refused stays open (DEDUCED). -/
def bundleCommit (q : NipHdr) (h : Hub) : Hub :=
  nipieb 0x32 true q (fun x =>
    let done (y : Hub) : Hub := { y with side := { y.side with bundle := none } }
    match commitCheck x with
    | .fail cc p =>
      nipAnswer 0x32 cc q p (logEvent 0x08 (bundleDetail (transferHead x) (leAt p 0 1)) (raise secPage 16 (count secPage 2 1 x)))
    | .accept bs =>
      nipAnswer 0x32 ccOk q [] (done (logEvent 0x07 (bundleDetail bs 0) (raiseEvent armPage 0
        (armTouch 2 { x with armoire := { x.armoire with staged := some { bytes := bs } } }))))) h

/-- R73: 10 s without BUNDLE_DATA. -/
def bundleTimeout (h : Hub) : Hub :=
  match h.side.bundle with
  | some t => if t.last + msToNs 10000 ≤ h.clock then { h with side := { h.side with bundle := none } } else h
  | none => h

/-- R560: FENCE. -/
def nipFence (q : NipHdr) (h : Hub) : Hub := nipieb 0x40 false q (fun x => nipAnswer 0x40 ccOk q [] (nipiebFence x)) h

/-- R560: UNFENCE; DENIED in FatalFenced. -/
def nipUnfence (q : NipHdr) (h : Hub) : Hub :=
  nipieb 0x41 false q (fun x =>
    if x.ras.fence = .fatal then nipAnswer 0x41 ccDenied q [] x else nipAnswer 0x41 ccOk q [] (nipiebUnfence x)) h

/-- R569: ARMOIRE_READ. -/
def nipArmoireRead (q : NipHdr) (region off n : Nat) (h : Hub) : Hub :=
  nipieb 0x50 true q (fun x =>
    let r := armoireRead region off n x
    nipAnswer 0x50 r.1.1 q r.1.2 r.2) h

/-- Seconds of a day, and R583's first HOUR:00 UTC at or after an instant. -/
def nextHour (hour t : Nat) : Nat :=
  let d := t / 86400 * 86400 + (min hour 23) * 3600
  if t ≤ d then d else d + 86400

/-- R583: the next cycle after one that started at a calendar instant. -/
def fittingNextFrom (start : Nat) (h : Hub) : Nat :=
  nextHour (regFld 0x318 0x40 23 19 h) (start + 86400 * regFld 0x318 0x40 31 24 h)

/-- R236, R583: CALENDAR_SET. -/
def calendarSet (q : NipHdr) (sec : Nat) (h : Hub) : Hub :=
  nipieb 0x60 true q (fun x =>
    if 2 ^ 48 ≤ sec then nipAnswer 0x60 ccInvalidData q [] x
    else
      let old := x.time.calSeconds
      let x1 := { x with time := { x.time with calSet := true, calStale := false, calSeconds := sec, calMark := x.clock } }
      let x2 := if sec < x.fitting.startSeconds then
          { x1 with fitting := { x1.fitting with next := fittingNextFrom sec x1 } } else x1
      nipAnswer 0x60 ccOk q [] (logEvent 0x0C (bytesLE 8 old ++ bytesLE 8 sec) (calendarSave x2))) h

/-- R71. -/
def calendarGet (q : NipHdr) (h : Hub) : Hub :=
  nipieb 0x61 true q (fun x => nipAnswer 0x61 ccOk q (bytesLE 8 ((timeView 0x58 x).getD 0) ++ bytesLE 8 x.time.poh) x) h

/-- R72: a CMD that names no command. -/
def nipUnknown (q : NipHdr) (cmd : Nat) (h : Hub) : Hub :=
  nipieb cmd true { q with lenOk := true } (fun x => nipAnswer cmd ccUnsupported q [] x) h

end Sys2Proof.Machine
end

