-- ==== Sys2Proof/Machine/Fitting.lean ====
section
/-!
DEFINITION. Fitting: the monitor sites, voltage tracking and the cycle that re-plans margins (R580 to R586), and the
FITTING page (R592, R593).
-/
namespace Sys2Proof.Machine

def fitPage : Nat := 0x318

def setFitting (f : Fitting) (h : Hub) : Hub := { h with fitting := f }

/-- R581: factory floors and the ceiling, mV. -/
def factoryFloors : List Nat := [720, 680, 640, 590]
def vcoreCeiling : Nat := 850

/-- R580: the hub runs on CCLK, so its monitors read. -/
def hubClocked (h : Hub) : Bool :=
  h.pins.pgOut && !(h.boot.phase == .held || h.boot.phase == .ledger || h.boot.phase == .clocking)

/-- R582: the planned floor of the active operating point. -/
def activeFloor (h : Hub) : Nat := nth h.fitting.floors h.boot.oppoint 0

/-- R580: the least slack of the sites. -/
def leastSlack (sites : Tab (Nat × Nat × Nat)) : Option Int :=
  sites.foldl (fun m x => let v := sextNat 16 x.2.2.2; match m with | none => some v | some w => some (min v w)) none

/-- R582: VCORE at its ceiling with slack below the guard. -/
def vcoreLimited (h : Hub) : Hub :=
  raise fitPage 17 { h with fitting := { h.fitting with limited := true }, ras := { h.ras with halved := true } }

/-- R582: 1 s at or above the guard restores the issue rate. -/
def vcoreRestore (h : Hub) : Hub :=
  if h.fitting.limited ∧ h.fitting.goodSince + 1000000000 ≤ h.clock then
    { h with fitting := { h.fitting with limited := false }, ras := { h.ras with halved := false } }
  else h

/-- R582: one reading's effect on VCORE while TRACK = 1; R573 logs a rise to the ceiling. -/
def vcoreTrack (slack : Int) (h : Hub) : Hub :=
  let f := h.fitting
  let guard : Int := regFld fitPage 0x40 15 8 h
  if slack < guard then
    (let h1 := setFitting { f with good := 0, goodSince := h.clock } h
     if f.vcore < vcoreCeiling then
       (let h2 := count fitPage 2 1 (setFitting { h1.fitting with vcore := min vcoreCeiling (f.vcore + 5) } h1)
        if vcoreCeiling ≤ f.vcore + 5 then logEvent 0x0E (bytesLE 1 h.boot.oppoint ++ bytesLE 2 (wrapInt 16 slack)) h2 else h2)
     else vcoreLimited h1)
  else
    (let good := if guard + 10 ≤ slack then f.good + 1 else 0
     let h1 :=
       if 1000 ≤ good ∧ activeFloor h + 5 ≤ f.vcore then
         count fitPage 3 1 (setFitting { f with good := 0, vcore := f.vcore - 5 } h)
       else setFitting { f with good := good } h
     vcoreRestore h1)

/-- R580, R582: the monitors are read: site, slowdown in ppm, path delay, slack. -/
def monitorReading (readings : List (Nat × Nat × Nat × Nat)) (h : Hub) : Hub :=
  if !hubClocked h then h
  else
    let sites := readings.foldl (fun t r =>
      if r.1 < 256 then Tab.set t r.1 (r.2.1 % 65536, r.2.2.1 % 65536, r.2.2.2 % 65536) else t) h.fitting.sites
    let h1 := setFitting { h.fitting with sites := sites } h
    if regBit fitPage 0x40 0 h then
      (match leastSlack sites with
       | none => h1
       | some s => vcoreTrack s h1)
    else
      let h2 := setFitting { h1.fitting with vcore := vcoreCeiling } h1
      (match leastSlack sites with
       | none => h2
       | some s =>
         if s < (regFld fitPage 0x40 15 8 h : Int) then setFitting { h2.fitting with goodSince := h.clock } h2
         else vcoreRestore h2)

/-- R582: VCORE once CCLK runs at an operating point: the ceiling, or, where it is tracked, between floor and ceiling
where the spec does not say: a free value. -/
def vcoreStart (h : Hub) : Hub :=
  if regBit fitPage 0x40 0 h then
    let (w, h1) := fresh h
    let lo := activeFloor h
    setFitting { h1.fitting with vcore := lo + w.toNat % (vcoreCeiling - lo + 1), good := 0, goodSince := h.clock } h1
  else setFitting { h.fitting with vcore := vcoreCeiling } h

/-- R584: a cycle starts with Monitors. -/
def fittingStart (late : Bool) (h : Hub) : Hub :=
  let h1 := count fitPage 0 1 (setFitting
    { h.fitting with phase := 1, late := false, atSeconds := h.time.calSeconds, atPoh := h.time.poh, plan := [], worst := 0,
                     mean := 0, lanesLow := 0, offsets := [] } h)
  if late then count fitPage 1 1 h1 else h1

/-- R583: a cycle is due: it starts, or, where it cannot start now, starts late. -/
def fittingDueNow (h : Hub) : Hub :=
  if !enabled fitPage h || h.fitting.phase != 0 || !fittingDue h then h
  else if h.boot.phase = .ready ∧ h.ras.fence = .serving then fittingStart h.fitting.late h
  else setFitting { h.fitting with late := true } h

/-- R593: FITTING_CMD.RUN. -/
def fittingCmd (v : Nat) (h : Hub) : Hub :=
  if v % 2 = 0 then h
  else if h.fitting.phase = 0 ∧ enabled fitPage h then fittingStart false h
  else raise fitPage 16 h

/-- R584: floors planned from the voltages the curve gives, in mV: rounded up to 5 mV, no lower than the factory's. -/
def planFloors (curve : List Nat) : List Nat :=
  (List.range 4).map (fun k => max (nth factoryFloors k 0) (ceilDiv (nth curve k 0) 5 * 5))

/-- R584: bit k: point k is permitted. -/
def permitOf (floors : List Nat) : Nat :=
  ((List.range 4).map (fun k => if nth floors k 0 + 30 ≤ vcoreCeiling then 2 ^ k else 0)).sum

/-- R584: Monitors ends: `curve`: for each point the lowest voltage of the factory curve that meets its period. -/
def monitorsDone (curve : List Nat) (h : Hub) : Hub :=
  if h.fitting.phase ≠ 1 then h
  else
    let ppm := h.fitting.sites.map (fun x => x.2.1)
    setFitting { h.fitting with
      phase := 2, plan := planFloors curve, worst := ppm.foldl max 0, mean := ppm.sum / max 1 ppm.length } h

/-- R584: Links ends: the lanes below 15 % of their eye at qualification. -/
def linksDone (low : Nat) (h : Hub) : Hub :=
  if h.fitting.phase ≠ 2 then h
  else
    let h1 := setFitting { h.fitting with phase := 3, lanesLow := low } h
    if low = 0 then h1 else raiseEvent fitPage 2 h1

/-- R584: Memory ends: the offsets planned for each memory controller. -/
def memoryDone (offsets : List Nat) (h : Hub) : Hub :=
  if h.fitting.phase ≠ 3 then h else setFitting { h.fitting with phase := 4, offsets := offsets } h

/-- R586: the ring keeps the last 256 records after record 0. -/
def fittingRecords (l : List FittingRecord) (r : FittingRecord) : List FittingRecord :=
  let ring := l.drop 1 ++ [r]
  l.take 1 ++ ring.drop (ring.length - 256)

/-- R584 to R586: Commit ends. `forecast`: the days R585's line gives, which needs the factory curve. -/
def fittingCommit (forecast : Nat) (h : Hub) : Hub :=
  if h.fitting.phase ≠ 4 then h
  else
    let f := h.fitting
    let permit := permitOf f.plan
    let low := permit / 2 ^ h.boot.oppoint % 2 = 0
    let cycle := (h.armoire.fitting.getLast?.map (·.cycle)).getD 0 + 1
    let result := if low then 2 else 0
    let slack := match leastSlack f.sites with | none => 0 | some s => wrapInt 16 s
    let rec_ : FittingRecord := ⟨cycle, f.atSeconds, f.atPoh, result, permit, f.plan, slack, f.mean, f.worst, f.lanesLow, f.offsets⟩
    let h1 := setFitting
      { f with phase := 0, result := result, permit := permit, floors := f.plan, forecast := min forecast 0xFFFF,
               slowdown := f.worst % 65536, startSeconds := f.atSeconds, startPoh := f.atPoh } h
    let h2 := setFitting { h1.fitting with next := fittingNextFrom f.atSeconds h1 } h1
    let h3 := armTouch 6 (armTouch 7 { h2 with armoire :=
      { h2.armoire with fitting := fittingRecords h2.armoire.fitting rec_, timingOffsets := f.offsets } })
    let h4 := if low then raiseEvent fitPage 1 h3 else h3
    logEvent 0x0D (bytesLE 8 (fittingStatus h4)) (raiseEvent fitPage 0 h4)

/-- R586: after a reset the last record's plan acts; the schedule goes on from it. -/
def loadFitting (h : Hub) : Hub :=
  match h.armoire.fitting.getLast? with
  | none => h
  | some r =>
    let h1 := setFitting
      { h.fitting with phase := 0, permit := r.permit, floors := r.floors, startSeconds := r.seconds, startPoh := r.poh } h
    if h1.fitting.next = 0 then setFitting { h1.fitting with next := fittingNextFrom r.seconds h1 } h1 else h1

/-- R593: what the FITTING page shows. -/
def fittingView (off : Nat) (h : Hub) : Option Nat :=
  match off with
  | 0x48 => some (fittingStatus h)
  | 0x50 => some (if fittingByCalendar h then mkFld 47 0 h.fitting.next else mkFld 63 63 1 + mkFld 47 0 (fittingNextPoh h))
  | 0x58 => some (mkFld 31 16 h.fitting.forecast + mkFld 15 0 h.fitting.slowdown)
  | 0x68 =>
    let m := Tab.getD h.fitting.sites (regFld fitPage 0x60 7 0 h) (0, 0, 0)
    some (mkFld 47 32 m.1 + mkFld 31 16 m.2.1 + mkFld 15 0 m.2.2)
  | _ => none

end Sys2Proof.Machine
end

