-- ==== Sys2Proof/Machine/Pigeon.lean ====
section
/-!
DEFINITION. The Pigeonholes (R516 to R521, R527, R528), over the whole machine: sends, pops, flushes, clears.
-/
namespace Sys2Proof.Machine

def pigeonPage (k : Nat) : Nat := 0x100 + k

def getHole (k : Nat) (s : State) : Hole := Tab.getD s.holes k {}
def putHole (k : Nat) (x : Hole) (s : State) : State := { s with holes := Tab.set s.holes k x }

/-- Change everything but the Pigeonholes and the queue. -/
def onHub (f : Hub → Hub) (s : State) : State := { s with hub := f s.hub }

def Hole.q (x : Hole) (second : Bool) : List PWord := if second then x.q1 else x.q0

def Hole.setQ (x : Hole) (second : Bool) (l : List PWord) : Hole := if second then { x with q1 := l } else { x with q0 := l }

/-- R517: the tenant in a stamp is admitted. -/
def holeAdmits (k : Nat) (stamp : Word) (h : Hub) : Bool :=
  let c := getReg (pigeonPage k) 0x40 h
  bitOf c 0 && (bitOf c 31 || fld stamp 11 0 == fld c 27 16)

/-- What a send comes to (R518). -/
inductive SendOutcome | queued | denied | full
  deriving DecidableEq, Repr

/-- R516: a queue holds 8 words. -/
def queueRoom (l : List PWord) : Bool := decide (l.length < 8)

/-- R517, R518. -/
def sendOutcome (k : Nat) (second : Bool) (stamp : Word) (s : State) : SendOutcome :=
  if !holeAdmits k stamp s.hub then .denied
  else if queueRoom ((getHole k s).q second) then .queued else .full

/-- R520: the word enters its queue; a word in an empty queue sets ARRIVED. -/
def pushWord (k : Nat) (second : Bool) (w stamp : Word) (s : State) : State :=
  let x := getHole k s
  if queueRoom (x.q second) then
    let s1 := putHole k (x.setQ second (x.q second ++ [⟨w, stamp⟩])) s
    onHub (fun h =>
      let h1 := count (pigeonPage k) 0 1 h
      if x.q second = [] then raiseEvent (pigeonPage k) (if second then 1 else 0) h1 else h1) s1
  else s

/-- R518: a refused register send is dropped and recorded. -/
def dropWord (k : Nat) (r : Requester) (w stamp : Word) (s : State) : State :=
  onHub (fun h =>
    let h1 := raise (pigeonPage k) 16 h
    match r with
    | .ld p n => emit (.errNonfatal p n) h1
    | _ => h1) (putHole k { getHole k s with drop := ⟨w, stamp⟩ } s)

/-- R493: a logical device that is not in use sends as to a full queue. -/
def ldOff (r : Requester) (h : Hub) : Bool :=
  match r with
  | .ld p n => !(getLd p n h).en
  | _ => false

/-- R517, R518: a write of PIGEON_SEND0 or PIGEON_SEND1. -/
def pigeonSendReg (k : Nat) (second : Bool) (r : Requester) (w : Word) (s : State) : State :=
  let stamp := regStamp r s.hub
  if ldOff r s.hub then dropWord k r w stamp (onHub (count (pigeonPage k) 2 1) s)
  else
    match sendOutcome k second stamp s with
    | .queued => pushWord k second w stamp s
    | .denied => dropWord k r w stamp (onHub (count (pigeonPage k) 3 1) s)
    | .full => dropWord k r w stamp (onHub (count (pigeonPage k) 2 1) s)

/-- R521: bits PATH, MODULE and UNIT of a stamp. -/
def stampOwner (stamp : Word) : Nat := fld stamp 31 12

/-- R521: a flusher's own words leave a queue, the others keep their order. -/
def flushQueue (k : Nat) (second : Bool) (stamp : Word) (s : State) : Nat × State :=
  let x := getHole k s
  let keep := (x.q second).filter (fun p => stampOwner p.stamp != stampOwner stamp)
  let n := (x.q second).length - keep.length
  (n, onHub (count (pigeonPage k) 4 n) (putHole k (x.setQ second keep) s))

/-- R521: a write of PIGEON_FLUSH; bits 0 and 1 name the queues. -/
def pigeonFlushReg (k : Nat) (r : Requester) (v : Word) (s : State) : State :=
  let stamp := regStamp r s.hub
  let s1 := if bitOf v 0 then (flushQueue k false stamp s).2 else s
  if bitOf v 1 then (flushQueue k true stamp s1).2 else s1

/-- R520: the oldest word of a queue is discarded. -/
def popQueue (k : Nat) (second : Bool) (s : State) : State :=
  let x := getHole k s
  match x.q second with
  | [] => s
  | _ :: t => onHub (count (pigeonPage k) 1 1) (putHole k (x.setQ second t) s)

def pigeonPop (k : Nat) (v : Word) (s : State) : State :=
  let s1 := if bitOf v 0 then popQueue k false s else s
  if bitOf v 1 then popQueue k true s1 else s1

/-- R527: queues of a Pigeonhole are emptied. -/
def pigeonClear (v : Word) (s : State) : State :=
  let k := fld v 5 0
  let x := getHole k s
  let y : Hole := { x with q0 := if bitOf v 7 then [] else x.q0, q1 := if bitOf v 8 then [] else x.q1 }
  putHole k y s

/-- R517: the form of a PIGEON_SEND frame. -/
def pigeonFormOk (f : Frame) : Bool :=
  f.len == 8 && f.payload.length == 8 && !f.posted && nbits f.addr 45 8 == 0 && nbits f.addr 63 56 == 0

/-- What a send or flush made by frame answers: status and OPERAND0. -/
def pigeonTake (f : Frame) (s : State) : (Nat × Nat) × State :=
  let k := nbits f.addr 5 0
  let second := f.addr.testBit 6
  let stamp := frameStamp f s.hub
  let w := w64 (ofBytesLE f.payload)
  if f.addr.testBit 7 then
    let r := flushQueue k second stamp s
    ((stOk, r.1), r.2)
  else
    match sendOutcome k second stamp s with
    | .queued => ((stOk, 0), pushWord k second w stamp s)
    | .denied => ((stDenied, 0), onHub (fun h => meterAdd f.tenant 7 1 (raise (pigeonPage k) 17 (count (pigeonPage k) 3 1 h))) s)
    | .full => ((stBusy, 0), onHub (fun h => raise (pigeonPage k) 17 (count (pigeonPage k) 2 1 h)) s)

/-- R517, R518, R521, R613: a PIGEON_SEND frame at unit 0x87. -/
def pigeonFrame (f : Frame) (s : State) : State :=
  if !pigeonFormOk f then onHub (fun h => sendFrame (completionOf f stBadRequest 0 0 false [] h) h) s
  else if payloadPoison f then onHub (fun h => sendFrame (completionOf f stBadRequest 0xFF 0 false [] h) h) s
  else
    let r := pigeonTake f s
    onHub (fun h => sendFrame { completionOf f r.1.1 0 0 false [] h with operand0 := r.1.2 } h) r.2

/-- R109, R521: a reset empties every queue and clears the last dropped words. -/
def pigeonReset (s : State) : State := { s with holes := [] }

/-- R527: bit h: Pigeonhole h holds a word. -/
def nonEmptyHoles (s : State) : Nat :=
  (s.holes.filter (fun e => decide (e.1 < 64) && (e.2.q0 != [] || e.2.q1 != []))).foldl (fun a e => a + 2 ^ e.1) 0

/-- R527, R528: read-only registers. -/
def pigeonView (page off : Nat) (s : State) : Option Nat :=
  if page = 0xF0 then (if off = 0x40 then some (nonEmptyHoles s) else none)
  else
    let x := getHole (page - 0x100) s
    let head (l : List PWord) (stamp : Bool) : Nat :=
      match l with
      | [] => 0
      | p :: _ => if stamp then p.stamp.toNat else p.word.toNat
    if off = 0x60 then some (mkFld 19 16 x.q1.length + mkFld 3 0 x.q0.length)
    else if off = 0x68 then some (head x.q0 false)
    else if off = 0x70 then some (head x.q0 true)
    else if off = 0x78 then some (head x.q1 false)
    else if off = 0x80 then some (head x.q1 true)
    else if off = 0x90 then some x.drop.word.toNat
    else if off = 0x98 then some x.drop.stamp.toNat
    else none

end Sys2Proof.Machine
end

