-- ==== Sys2Proof/Machine/Power.lean ====
section
/-!
DEFINITION. Power, reset pins, and sensors (R18, R55 to R61, R68, R92), what a cold reset clears, and the HBMC and DDRC
pages (R210, R211).
-/
namespace Sys2Proof.Machine

/-- R92: no reset acts on the VAUX3 domain, which holds the ARMOIRE and SEC pages; TWIN_CFG is written to act at the next
cold reset (R610). -/
def keptCold (key : Nat) : Bool := key / 4096 == armPage || key / 4096 == secPage || key == regKey twinPage 0x40

/-- R92: a cold reset acts on everything supplied from VIN48. -/
def coldClear (kind : Nat) (h : Hub) : Hub :=
  timeCold { h with
    regs := h.regs.filter (fun e => keptCold e.1)
    kibSpare := [], boot := { lastKind := h.boot.lastKind, kind := kind }
    routes := [], ports := [], egress := [], mirror := {}, ras := { devRows := h.ras.devRows }
    fitting := { h.fitting with sites := [], vcore := 0, good := 0, limited := false }
    twin := { en := h.twin.en, role := h.twin.role, cfg := h.twin.cfg }
    stu := {}, tier := {}, coh := {}, assemblies := [], shapers := [], outstanding := [], deadTags := [], relays := []
    mem := [], poison := [], cxl0 := {}, cxl1 := {}, cores := [], bench := [], cur := {}, cloak := {}, emb := {}
    search := {}, pou := {}, meter := {} }

/-- R92, R95: the hub enters reset: the ring paths go to bypass, and all it held is gone; `save`: the persistent counters
are saved first (R572). The pins stand. -/
def holdHub (kind : Nat) (save : Bool) (h : Hub) : Hub :=
  let h1 := closePaths (fittingAbandon h)
  { coldClear kind (if save then counterSave h1 else h1) with pins := h.pins }

/-- R95: Held to Ledger, when PG_OUT and MOD_RST_N are high. -/
def startBringUp (h : Hub) : Hub :=
  if h.pins.pgOut ∧ h.pins.modRstN ∧ h.boot.phase = .held then
    { h with boot := { h.boot with phase := .ledger, startedAt := h.clock } }
  else h

/-- R59: PG_OUT falls: the hub is held in reset. What RAS had gathered since it last wrote the fault history is lost
(R571). -/
def powerDown (h : Hub) : Hub :=
  if h.pins.pgOut then
    let h1 := { h with pins := { h.pins with pgOut := false } }
    let h2 := holdHub 0 false h1
    { h2 with armoire := { h2.armoire with history := h2.armoire.histSaved, histPending := false } }
  else h

/-- A reset of the hub empties the Pigeonholes too (R521). -/
def holdState (f : Hub → Hub) (s : State) : State := pigeonReset (onHub f s)

/-- R58, R236: VAUX3 comes into range. -/
def vaux3On (h : Hub) : Hub :=
  if h.pins.vaux3 then h else calendarRestore { h with pins := { h.pins with vaux3 := true } }

/-- R236, R57: VAUX3 is lost: the sideband, the identity block and the open transfer stop. -/
def vaux3Loss (h : Hub) : Hub :=
  { h with pins := { h.pins with vaux3 := false }, side := {}, sec := {},
           regs := h.regs.filter (fun e => !(e.1 / 4096 == armPage || e.1 / 4096 == secPage)) }

/-- R58 step 3. -/
def pwrEnRise (h : Hub) : Hub := { h with pins := { h.pins with pwrEn := true } }

/-- R59, R61: PWR_EN falls; the trip latch opens. -/
def pwrEnFall (h : Hub) : Hub :=
  let h1 := powerDown h
  { h1 with pins := { h1.pins with pwrEn := false, thermTripN := true } }

/-- R58 step 4, R92: PG_OUT rises once the converters are on and no trip is latched. -/
def pgOutRise (h : Hub) : Hub :=
  if h.pins.pwrEn ∧ h.pins.thermTripN ∧ !h.pins.pgOut then
    startBringUp { h with pins := { h.pins with pgOut := true }, boot := { h.boot with kind := 0 } }
  else h

/-- R92, R572: MOD_RST_N goes low. -/
def modRstAssert (h : Hub) : Hub :=
  if h.pins.modRstN then
    let h1 := { h with pins := { h.pins with modRstN := false } }
    if h.pins.pgOut then holdHub (if h.boot.phase = .held then h.boot.kind else 1) true h1 else h1
  else h

def modRstRelease (h : Hub) : Hub := startBringUp { h with pins := { h.pins with modRstN := true } }

/-- R93, R117: BRINGUP_CTRL.COLD. -/
def coldReset (h : Hub) : Hub := startBringUp (holdHub 1 true h)

/-- R74, R84: BYPASS_FORCE_N; going low sets FORCED. -/
def bypassForce (high : Bool) (h : Hub) : Hub :=
  let h1 := closePaths { h with pins := { h.pins with bypassForceN := high } }
  if h.pins.bypassForceN && !high then raise 0x348 20 h1 else h1

/- ### Sensors (R18, R60, R61, R68) -/

/-- R18, R60: where a sensor throttles, in °C, or W for the power monitor. -/
def throttlePoint : Sensor → Option Nat
  | .hub _ | .portDie _ => some 100
  | .hbm _ | .dimm _ _ => some 95
  | .optics _ => none
  | .power => some 1500

/-- R60: where a sensor trips. -/
def tripPoint : Sensor → Option Nat
  | .hub _ | .portDie _ => some 115
  | .hbm _ => some 105
  | .optics _ => some 80
  | .dimm _ _ | .power => none

/-- R61: the sensors whose memory runs doubled refresh above 85 °C. -/
def refreshes : Sensor → Bool
  | .hbm _ | .dimm _ _ => true
  | _ => false

/-- A sensor in a log record: kind, number (the layout is the model's). -/
def sensorBytes : Sensor → List Byte
  | .hub n => bytesLE 1 0 ++ bytesLE 1 n
  | .portDie n => bytesLE 1 1 ++ bytesLE 1 n
  | .hbm n => bytesLE 1 2 ++ bytesLE 1 n
  | .optics n => bytesLE 1 3 ++ bytesLE 1 n
  | .dimm c n => bytesLE 1 4 ++ bytesLE 1 (2 * c + n)
  | .power => bytesLE 1 5 ++ bytesLE 1 0

def setTemp (s : Sensor) (v : Nat) (l : List (Sensor × Nat)) : List (Sensor × Nat) :=
  (s, v) :: l.filter (fun e => decide (e.1 ≠ s))

def tempOf (s : Sensor) (h : Hub) : Nat := ((h.ras.temps.find? (fun e => decide (e.1 = s))).map (·.2)).getD 0

/-- R61: a reading, and the refresh it asks for. -/
def readSensor (s : Sensor) (v : Nat) (h : Hub) : Hub :=
  let d := h.ras.doubled.filter (fun x => decide (x ≠ s))
  { h with ras := { h.ras with temps := setTemp s v h.ras.temps, doubled := if refreshes s ∧ 85 < v then s :: d else d } }

/-- R18, R61: a sensor at its throttle point: an interval starts. -/
def throttleStart (s : Sensor) (v : Nat) (h : Hub) : Hub :=
  if !h.pins.pgOut then h
  else
    let h1 := readSensor s v h
    match throttlePoint s with
    | none => h1
    | some t =>
      if t ≤ v ∧ s ∉ h1.ras.throttled then
        { h1 with ras := { h1.ras with throttled := s :: h1.ras.throttled, throttleStart := setTemp s h.clock h1.ras.throttleStart } }
      else h1

/-- R61, R573: the reading falls below the throttle point: rates are restored, and the interval is recorded. -/
def throttleEnd (s : Sensor) (v : Nat) (h : Hub) : Hub :=
  if !h.pins.pgOut then h
  else
    let h1 := readSensor s v h
    match throttlePoint s with
    | none => h1
    | some t =>
      if v < t ∧ s ∈ h1.ras.throttled then
        let start := ((h1.ras.throttleStart.find? (fun e => decide (e.1 = s))).map (·.2)).getD 0
        let ns := h.clock - start
        let h2 := { h1 with ras := { h1.ras with
          throttled := h1.ras.throttled.filter (fun x => decide (x ≠ s))
          throttleStart := h1.ras.throttleStart.filter (fun e => decide (e.1 ≠ s)) } }
        logEvent 0x04 (sensorBytes s ++ bytesLE 8 (h.time.calSeconds - ns / 1000000000) ++ bytesLE 4 (ns / 1000000)) h2
      else h1

/-- R61: a trip drops the rails and latches THERM_TRIP_N. -/
def thermalTrip (s : Sensor) (v : Nat) (h : Hub) : Hub :=
  match tripPoint s with
  | none => h
  | some t =>
    if h.pins.pgOut ∧ t ≤ v then
      let h1 := powerDown (logEvent 0x03 (sensorBytes s ++ bytesLE 1 v) h)
      { h1 with pins := { h1.pins with thermTripN := false } }
    else h

/-- R68: the DIMM sensors of populated channels are read. -/
def spdTempRead (l : List (Nat × Nat × Nat)) (h : Hub) : Hub :=
  if h.pins.pgOut then
    l.foldl (fun x r => if r.1 < 16 ∧ r.2.1 < 2 then readSensor (.dimm r.1 r.2.1) r.2.2 x else x) h
  else h

/-- Set bits of a mask below bit k. -/
def bitsBelow (m k : Nat) : Nat := ((List.range k).filter (fun i => m.testBit i)).length

def setBits (m n : Nat) : Nat := bitsBelow m n

/-- R210. -/
def hbmcView (k off : Nat) (h : Hub) : Option Nat :=
  match off with
  | 0x40 =>
    let ok := h.boot.hbmOk.testBit k
    some (mkFld 31 31 (bit01 ok) + mkFld 23 16 80 + mkFld 15 8 25 + (if ok then bitsBelow h.boot.hbmOk k else 0))
  | 0x44 => some (mkFld 8 8 (bit01 (decide (Sensor.hbm k ∈ h.ras.doubled))) + mkFld 7 0 (tempOf (.hbm k) h))
  | _ => none

/-- R211. -/
def ddrcView (k off : Nat) (h : Hub) : Option Nat :=
  match off with
  | 0x40 =>
    let ok := h.boot.ddrOk.testBit k
    some (mkFld 63 63 (bit01 ok) +
      (match Tab.get? h.boot.ddr k with
       | none => 0
       | some r => mkFld 57 56 (if r.dimms = 0 then 0 else if r.mrdimm then 2 else 1) + mkFld 55 54 r.dimms + mkFld 47 32 r.rate +
           mkFld 31 16 (r.dimms * r.dimmGb)) +
      (if ok then bitsBelow h.boot.ddrOk k else 0))
  | 0x48 =>
    let two := (List.range 2).any (fun j => decide (Sensor.dimm k j ∈ h.ras.doubled))
    some (mkFld 16 16 (bit01 two) + mkFld 15 8 (tempOf (.dimm k 1) h) + mkFld 7 0 (tempOf (.dimm k 0) h))
  | _ => none

end Sys2Proof.Machine
end

