-- ==== Sys2Proof/Machine/Ras.lean ====
section
/-!
DEFINITION. Errors found in arrays and memories, the fault history's limits, retirement, injection (R542 to R568), and
the registers of the RAS page.
-/
namespace Sys2Proof.Machine

/- ### Permanence (R551, R555) -/

/-- R565: CE_LIMIT, 0 acting as 1. -/
def ceLimit (h : Hub) : Nat := max 1 (regFld rasPage 0x40 31 24 h)

/-- R554: a retirement enable of RAS_CFG, while the RAS page is enabled (R564). -/
def autoRetire (bit : Nat) (h : Hub) : Bool := enabled rasPage h && regBit rasPage 0x40 bit h

/-- R555: do the errors of a record reach the limit of its kind? `ues`: uncorrectable errors in the count. -/
def atLimit (kind ues ces : Nat) (h : Hub) : Bool :=
  match kind with
  | 1 => decide (2 ≤ ues)
  | 2 => decide (1 ≤ ues ∨ 8 ≤ ces)
  | 4 => decide (2 ≤ ues ∨ ceLimit h ≤ ces)
  | 5 => decide (2 ≤ ues ∨ ceLimit h ≤ ces)
  | _ => false

def markPermanent (kind loc : Nat) (h : Hub) : Hub :=
  let l := h.armoire.history.map (fun r => if r.kind = kind ∧ r.loc = loc then { r with perm := true } else r)
  { h with armoire := { h.armoire with history := l } }

/-- R551, R555: an error enters the history; whether its location has just become permanent. -/
def histNote (kind loc : Nat) (ue : Bool) (h : Hub) : Bool × Hub :=
  let old := histRecord kind loc h
  let h1 := histAdd kind loc ue h
  match histRecord kind loc h1 with
  | none => (false, h1)
  | some r =>
    if !enabled rasPage h || r.perm then (false, h1)
    else
      let again := ue && decide (1 < r.errors) && (match old with | some o => o.ueSeen | none => false)
      let ues := if again then 2 else bit01 r.ueSeen
      if atLimit kind ues (r.errors - ues) h1 then (true, markPermanent kind loc h1) else (false, h1)

/-- A permanent record the module makes of a stack or device whose rows have reached their number (R555). -/
def permanentUnit (kind loc errors : Nat) (h : Hub) : Hub :=
  match histRoom h.armoire.history with
  | some l => { h with armoire := { h.armoire with history := l ++ [⟨kind, true, false, errors, loc, h.time.poh, h.time.poh⟩], histPending := true } }
  | none => raise rasPage 17 h

/-- R566, R567: a location was retired. -/
def retired (h : Hub) : Hub := raiseEvent rasPage 2 (count rasPage 5 1 h)

/- ### Rows (R555 to R557) -/

/-- R167: granules leave T2 space. -/
def excludeGranules (gs : List Nat) (h : Hub) : Hub :=
  { h with tier := { h.tier with excluded := insertNats h.tier.excluded gs } }

/-- A slot leaves T1 space. -/
def dropSlots (n : Nat) (h : Hub) : Hub := { h with tier := { h.tier with slots := h.tier.slots - n } }

def inRun (g : Nat) : Option (Nat × Nat) → Bool
  | some (a, n) => decide (a ≤ g ∧ g < a + n)
  | none => false

/-- R556: one copy, where it can be done now; none: it waits. -/
def tryCopy (c : RetireCopy) (h : Hub) : Option Hub :=
  let v := getTile c.tile h
  if c.image then
    match v.run with
    | none => some (excludeGranules c.granules h)
    | some (a, n) =>
      if !(c.granules.any (fun g => inRun g (some (a, n)))) then some (excludeGranules c.granules h)
      else
        let h1 := excludeGranules c.granules h
        match findRun n h1 with
        | some b => some (putTile c.tile { v with run := some (b, n) } h1)
        | none => none
  else
    match v.st with
    | .clean => some (dropSlots 1 (dropToLower c.tile h))
    | .upper => if 0 < slotsFree h then some (dropSlots 1 h) else none
    | .free | .lower | .void => some (dropSlots 1 h)
    | .promoting | .demoting | .freeing => none

/-- R556: a copy is done, or waits and is counted. -/
def copyOrWait (c : RetireCopy) (h : Hub) : Hub :=
  match tryCopy c h with
  | some h1 => h1
  | none => count rasPage 4 1 { h with ras := { h.ras with copies := h.ras.copies ++ [c] } }

/-- Tiles whose image holds one of these granules. -/
def imagesIn (gs : List Nat) (h : Hub) : List Nat :=
  (h.tier.tiles.filter (fun (e : Nat × Tile) => gs.any (fun g => inRun g e.2.run))).map (·.1)

/-- R556: slots and granules of a retired row leave service. -/
def rowLeaves (u : UnitUse) (h : Hub) : Hub :=
  let used := imagesIn u.granules h
  let free := u.granules.filter (fun g => !(used.any (fun t => inRun g (getTile t h).run)))
  let h1 := excludeGranules free (dropSlots (min u.slots (slotsFree h)) h)
  let h2 := used.foldl (fun x t => copyOrWait ⟨t, true, u.granules.filter (fun g => inRun g (getTile t h).run)⟩ x) h1
  (dedup (u.tiles.filter (fun t => holdsSlot (getTile t h).st))).foldl (fun x t => copyOrWait ⟨t, false, []⟩ x) h2

/-- R556: waiting copies of a tile proceed where a slot or run is free. -/
def retireCopy (t : Nat) (h : Hub) : Hub :=
  match takeFirst (fun (c : RetireCopy) => c.tile == t) h.ras.copies with
  | none => h
  | some (c, rest) =>
    match tryCopy c h with
    | some h1 => { h1 with ras := { h1.ras with copies := rest } }
    | none => h

/-- The HBMC or DDRC page of a row (R104). -/
def rowPage (kind loc : Nat) : Nat := if kind = 4 then 0x70 + loc % 8 else 0x78 + loc % 16

/-- Permanent rows of a stack. -/
def stackRows (s : Nat) (h : Hub) : Nat :=
  (h.armoire.history.filter (fun r => r.kind == 4 && r.perm && r.loc % 8 == s)).length

/-- R555: 64 permanent rows make a stack permanent, 3 make a DDR5 device permanent: channel, subchannel, rank, device. -/
def rowGroups (kind loc device : Nat) (h : Hub) : Hub :=
  if kind = 4 then
    if stackRows (loc % 8) h = 64 then defectNote 6 2 (loc % 8) (permanentUnit 6 (loc % 8) 64 h) else h
  else
    let h1 := { h with ras := { h.ras with devRows := h.ras.devRows ++ [(loc, device)] } }
    if (h1.ras.devRows.filter (fun e => decide (e.1 % 256 = loc % 256 ∧ e.2 = device))).length = 3 then
      let r := freshLoc h1
      raise (rowPage kind loc) 25 (permanentUnit 9 r.1 3 r.2)
    else h1

/-- R555, R557: a row has become permanent. -/
def rowPermanent (kind loc device : Nat) (u : UnitUse) (h : Hub) : Hub :=
  let h1 := rowGroups kind loc device h
  if !autoRetire 2 h1 then h1
  else
    let h2 := raise (rowPage kind loc) 24 (count (rowPage kind loc) 19 1 (retired (defectNote kind 2 loc h1)))
    if u.fixed then h2 else rowLeaves u h2

/-- R551, R568: an ECC error of a DRAM row: reported, recorded, and its row retired at the limit. -/
def rowError (kind loc device : Nat) (ue scrub : Bool) (u : UnitUse) (h : Hub) : Hub :=
  let r := histNote kind loc ue (eccReport (rowPage kind loc) kind loc device ue scrub false h)
  if r.1 then rowPermanent kind loc device u r.2 else r.2

/- ### Store cache ways (R558) -/

/-- R104: the slice of a way's location. -/
def wayLoc (slice way : Nat) : Nat := mkFld 3 0 slice + mkFld 8 4 way

/-- R558, R102: the slice runs without a way: modified lines are written back, clean ones dropped. -/
def wayLeaves (slice way : Nat) (ls : List Nat) (h : Hub) : Hub :=
  let mine := ls.filter (fun l => slicePage l == 0x50 + slice)
  let h1 := mine.foldl (fun x l => dropT0 l x) h
  let bad := Tab.getD h1.coh.waysBad slice []
  let bad1 := if bad.contains way then bad else bad ++ [way]
  let h2 := { h1 with coh := { h1.coh with waysBad := Tab.set h1.coh.waysBad slice bad1 } }
  if 8 < bad1.length then raise rasPage 19 h2 else h2

/-- R555, R558: a way has become permanent. -/
def wayPermanent (slice way : Nat) (u : UnitUse) (h : Hub) : Hub :=
  if !autoRetire 1 h then h
  else
    let h1 := defectNote 2 2 (wayLoc slice way) h
    wayLeaves slice way u.lines (raise (0x50 + slice) 24 (count (0x50 + slice) 19 1 (retired h1)))

/- ### Cores (R546, R555) -/

/-- An error of a core, by its logical number. -/
def coreError (k : Nat) (ue : Bool) (h : Hub) : Hub :=
  let loc := nth h.boot.coreMap k 0xFF
  let r := histNote 1 loc ue (rasNote ue false 1 loc h)
  if r.1 && autoRetire 0 r.2 then coreDrain k true (retired r.2) else r.2

def poisonUnits (k unit n : Nat) (h : Hub) : Hub := addPoison (scratchAddr k (128 * unit)) (128 * n) h

/- ### Errors (R542 to R553) -/

/-- R564: an uncorrectable error of a unit that no kind of the fault history names: RAS_LAST_UE names it by a value the
spec does not state. -/
def unnamedError (ue : Bool) (h : Hub) : Hub :=
  if ue then rasNote true false ((fresh h).1.toNat % 16) (freshLoc (fresh h).2).1 (freshLoc (fresh h).2).2
  else rasNote false false 0 0 h

/-- R557, R172: a tile header fails: all 16 blocks are poisoned and the header is rebuilt. -/
def headerLost (t : Nat) (h : Hub) : Hub :=
  let h1 := addPoison (65536 * t) 65536 h
  selvedgeError 1 (putTile t { getTile t h1 with hcrcBad := false, blockPoison := 0xFFFF } h1)

/-- R542, R544, R549: a T1 half line of a tile that holds a slot. -/
def t1Error (a loc : Nat) (ue scrub : Bool) (u : UnitUse) (h : Hub) : Hub :=
  let st := (getTile (tileOf a) h).st
  if !holdsSlot st then h
  else
    let h1 := if ue && st != .clean && !inT0 (lineOf a) h then poisonHalf a h else h
    rowError 4 loc 0 ue scrub u h1

/-- R543, R544, R550: a block of a T2 image. -/
def t2Error (t b loc device : Nat) (ue scrub : Bool) (u : UnitUse) (h : Hub) : Hub :=
  let v := getTile t h
  if v.run.isNone ∨ 16 ≤ b then h
  else
    let h1 := if ue then putTile t { v with blockPoison := v.blockPoison ||| 2 ^ b } h else h
    let h2 := if ue && !holdsSlot v.st then
        ((natRange (512 * t + 32 * b) 32).filter (fun l => !inT0 l h1)).foldl (fun x l => addPoison (128 * l) 128 x) h1
      else h1
    rowError 5 loc device ue scrub u h2

/-- R544, R555: a store cache line: a clean one is dropped and served again, a modified one is poisoned. -/
def t0Error (a way : Nat) (ue scrub : Bool) (u : UnitUse) (h : Hub) : Hub :=
  let l := lineOf a
  if !inT0 l h ∨ 24 ≤ way then h
  else
    let slice := slicePage l - 0x50
    let loc := wayLoc slice way
    let h1 := eccReport (slicePage l) 2 loc 0 ue scrub false h
    let h2 := if !ue then h1 else if Tab.get? h1.coh.t0 l = some .dirty then addPoison (128 * l) 128 h1 else dropT0 l h1
    let r := histNote 2 loc ue h2
    if r.1 then wayPermanent slice way u r.2 else r.2

/-- R271: an uncorrectable buffer error in a header cell drops the frame, one in a payload cell poisons it. -/
def bufferFrame (i : Nat) (header : Bool) (h : Hub) : Hub :=
  match h.egress[i]? with
  | none => h
  | some q =>
    if header then { h with egress := h.egress.eraseIdx i }
    else { h with egress := listSet h.egress i { q with frame := { q.frame with poison := true } } }

/-- R553: uncorrectable errors of a bank within the window: the power-on hour of the first. -/
def bankError (bank loc : Nat) (f : Option (Nat × Bool)) (ue : Bool) (h : Hub) : Hub :=
  let h1 := (histNote 7 loc ue (rasNote ue false 7 loc h)).2
  if !ue then count 0x40 5 1 (raise 0x40 17 h1)
  else
    let h2 := raise 0x40 18 (match f with | some (i, hd) => bufferFrame i hd h1 | none => h1)
    match Tab.get? h.ras.banks bank with
    | some first =>
      if h.time.poh < first + histWindow h then moduleFatal 2 h2
      else { h2 with ras := { h2.ras with banks := Tab.set h2.ras.banks bank h.time.poh } }
    | none => { h2 with ras := { h2.ras with banks := Tab.set h2.ras.banks bank h.time.poh } }

/-- R550: a pass runs only while its period is not 0. -/
def patrolOn (page : Nat) (h : Hub) : Bool :=
  if 0x70 ≤ page ∧ page < 0x78 then regFld rasPage 0x44 15 0 h != 0
  else if 0x78 ≤ page ∧ page < 0x88 then regFld rasPage 0x44 31 16 h != 0
  else decide (0x50 ≤ page ∧ page < 0x60)

/-- R542 to R557: an error found by a patrol read (`scrub`) or otherwise. -/
def foundError (site : ErrSite) (ue scrub : Bool) (u : UnitUse) (h : Hub) : Hub :=
  match site with
  | .t0 a way => t0Error a way ue scrub u h
  | .t1 a loc => if scrub && !patrolOn 0x70 h then h else t1Error a loc ue scrub u h
  | .t2 t b loc d => if scrub && !patrolOn 0x78 h then h else t2Error t b loc d ue scrub u h
  | .scratch k unit =>
    if 64 ≤ k ∨ 12288 ≤ unit then h
    else coreError k ue (raise (corePage k) (if ue then 20 else 19) (if ue then poisonUnits k unit 1 h else h))
  | .pattern k w =>
    if 64 ≤ k then h
    else coreError k ue (if ue then putCore k { getCore k h with badWords := insertNats (getCore k h).badWords [w] } h else h)
  | .residue k unit n => if 64 ≤ k ∨ 12288 < unit + n then h else coreError k true (poisonUnits k unit n h)
  | .directory => if ue then moduleFatal 3 (unnamedError true h) else unnamedError false h
  | .filter => if ue then moduleFatal 4 (unnamedError true h) else unnamedError false h
  | .meshMap => if ue then moduleFatal 5 (unnamedError true h) else unnamedError false h
  | .bufferLists => if ue then moduleFatal 2 (unnamedError true h) else unnamedError false h
  | .tileHeader t loc =>
    if !holdsSlot (getTile t h).st then h
    else rowError 4 loc 0 ue scrub u (if ue then headerLost t h else h)
  | .freeMap loc => rowError 5 loc 0 ue scrub u (if ue then { h with ras := { h.ras with freeMapBad := true } } else h)
  | .bufferBank b loc f => bankError b loc f ue h
  | .parity page => if (pageInfo page).isSome then raise page 4 h else h
  | .patrolPass page => if patrolOn page h then count page 18 1 h else h

/-- R557: the Tier Manager has rebuilt the free map, and demotions that waited go on. -/
def freeMapDone (h : Hub) : Hub :=
  if h.ras.freeMapBad then tierRun { h with ras := { h.ras with freeMapBad := false } } else h

/-- R571: at most every 60 s the gathered counts go to the Armoire. -/
def historyFlush (h : Hub) : Hub :=
  let a := h.armoire
  if a.histPending ∧ a.histFlushedAt + 60000000000 ≤ h.clock then
    armTouch 5 { h with armoire := { a with histSaved := a.history, histPending := false, histFlushedAt := h.clock } }
  else h

/- ### Injection (R563, R565) -/

/-- R563, R603: a GSA at which the target exists: a line that T0 holds, a line of a T1 slot, a block of a T2 image, a
unit of a scratchpad window, or bytes that poison can mark. -/
def injectGsaOk (target a : Nat) (h : Hub) : Bool :=
  let off := a % 2 ^ 46
  let v := getTile (tileOf off) h
  let line : Bool :=
    if target = 1 then inT0 (lineOf off) h
    else if target = 2 then v.st == .upper || v.st == .clean || v.st == .demoting
    else if target = 3 then v.run.isSome
    else target == 7 && holdsData v.st
  gsaHere a h && ((inStore off 1 && line) || (inWindow off 1 h && (target == 4 || target == 7)))

/-- R563: does the target of an injection exist? -/
def injectTargetOk (target a : Nat) (h : Hub) : Bool :=
  if target = 5 then locOk 3 (a % 2 ^ 48) && a < 2 ^ 48
  else if target = 6 then true
  else injectGsaOk target a h

def injectRefused (h : Hub) : Hub := raise rasPage 18 h

/-- R63: the logical lane on a physical lane. -/
def logicalLane (retired : Option Nat) (pl : Nat) : Option Nat :=
  match retired with
  | none => if pl < 8 then some pl else none
  | some f => if pl = f then none else if pl < f then some pl else some (pl - 1)

/-- R565: a burst of 10,000 symbol errors on a lane of a Ready port; the codewords it costs are not stated. -/
def injectLane (loc : Nat) (h : Hub) : Hub :=
  let p := nbits loc 4 0
  let o := getPort p h
  let l := logicalLane (if loc.testBit 5 then o.rxRetired else o.txRetired) (nbits loc 9 6)
  let h1 := count rasPage 3 1 (raiseInjected' p h)
  match l with
  | some n =>
    let r := fresh h1
    count (portPage p) (16 + n) 10000 (count (portPage p) 4 (r.1.toNat % 10001) r.2)
  | none => h1
where
  /-- R39: INJECTED on the port's page. -/
  raiseInjected' (p : Nat) (h : Hub) : Hub :=
    putReg (portPage p) 0x18 (putBit (getReg (portPage p) 0x18 h) 2 true) h

/-- R563: an injection command. A lane of a Ready port carries symbols, so its error falls at once. -/
def inject (target : Nat) (ue : Bool) (h : Hub) : Hub :=
  let a := (getReg rasPage 0x70 h).toNat % 2 ^ 56
  if h.ras.injection.isSome || !injectTargetOk target a h then injectRefused h
  else if target = 5 ∧ (getPort (nbits a 4 0) h).st = .ready then injectLane a h
  else { h with ras := { h.ras with injection := some ⟨target, a, ue⟩ } }

/-- R563: a lane's pending injection falls when its port is Ready. -/
def meetLane (p : Nat) (h : Hub) : Hub :=
  match h.ras.injection with
  | some ⟨5, a, _⟩ =>
    if nbits a 4 0 = p ∧ (getPort p h).st = .ready then injectLane a (clearInjection h) else h
  | _ => h

/-- R565: a write of RAS_INJECT_CMD. -/
def injectCmd (v : Word) (h : Hub) : Hub :=
  let t := fld v 3 0
  if t = 0 ∨ 7 < t then h else inject t (bitOf v 7) h

/- ### Registers (R564, R565) -/

def histSelected (h : Hub) : Option HistRecord := h.armoire.history[regFld rasPage 0x50 11 0 h]?

def rasView (off : Nat) (h : Hub) : Option Nat :=
  match off with
  | 0x48 => some (rasFence h)
  | 0x4C => some h.armoire.history.length
  | 0x58 => some (match histSelected h with
    | some r => mkFld 63 60 r.kind + mkFld 59 59 (bit01 r.perm) + mkFld 58 58 (bit01 r.ueSeen) + mkFld 57 48 r.errors + mkFld 47 0 r.loc
    | none => 0)
  | 0x60 => some (match histSelected h with | some r => mkFld 63 32 r.firstPoh + mkFld 31 0 r.lastPoh | none => 0)
  | 0x68 => some h.ras.lastUe.toNat
  | _ => none

end Sys2Proof.Machine
end

