-- ==== Sys2Proof/Machine/Search.lean ====
section
/-!
DEFINITION. The Search Unit (R466 to R492): indexes, the graph walk and its queries, inserts, deletes and merges.
-/
namespace Sys2Proof.Machine

def scPage : Nat := 0xC8

def setScu (s : Search) (h : Hub) : Hub := { h with search := s }

/-- Completion details of unit 0x85. -/
def sdNoIndex : Nat := 1
def sdBadDesc : Nat := 2
def sdStale : Nat := 3
def sdSource : Nat := 4
def sdShort : Nat := 5
def sdPoison : Nat := 6
def sdSideFull : Nat := 7
def sdIndexFull : Nat := 8
def sdNotLive : Nat := 9

/- ### Descriptors (R466 to R469) -/

structure ScuDesc where
  fmt : Nat
  ip : Bool
  dim : Nat
  degree : Nat
  entries : Nat
  tenant : Nat
  nodeMax : Nat
  sideLen : Nat
  regionA : Nat
  regionB : Nat
  side : Nat
  tomb : Nat
  deriving DecidableEq, Repr

def parseScu (bs : List Byte) : ScuDesc :=
  let w := descWord bs 0
  let v := descWord bs 1
  { fmt := nbits w 3 0, ip := w.testBit 4, dim := nbits w 18 8, degree := nbits w 25 19, entries := nbits w 30 26,
    tenant := nbits w 43 32, nodeMax := nbits v 29 0, sideLen := 2 ^ nbits v 36 32, regionA := gsaOff (descWord bs 2),
    regionB := gsaOff (descWord bs 3), side := gsaOff (descWord bs 4), tomb := gsaOff (descWord bs 5) }

def getIndex (i : Nat) (h : Hub) : Option ScuIndex := Tab.get? h.search.indexes i

def putIndex (i : Nat) (x : ScuIndex) (h : Hub) : Hub := setScu { h.search with indexes := Tab.set h.search.indexes i x } h

def ScuIndex.d (x : ScuIndex) : ScuDesc := parseScu x.desc

/-- Offset of the region of the current epoch, or of the other one. -/
def ScuIndex.region (x : ScuIndex) (other : Bool) : Nat := if decide (x.cur = 0) == !other then x.d.regionA else x.d.regionB

def scuElem (fmt : Nat) : Nat := fmtBits fmt / 8

/-- R468: record length S. -/
def ScuDesc.size (d : ScuDesc) : Nat := ceilDiv (64 + 4 * d.degree + d.dim * scuElem d.fmt) 64 * 64

def descOff (i : Nat) (h : Hub) : Nat := mkFld 45 13 (regFld scPage 0x40 45 13 h) + 128 * i

/-- Words 8 to 12, the engine fields (R466, R483). -/
def engineBytes (x : ScuIndex) : List Byte :=
  bytesLE 8 (mkFld 15 0 x.epoch + mkFld 16 16 x.cur + mkFld 17 17 (bit01 x.prevV) + mkFld 63 32 x.nextId) ++
  bytesLE 8 (mkFld 47 0 x.committed) ++ bytesLE 8 (mkFld 47 0 x.baseCur) ++ bytesLE 8 (mkFld 47 0 x.basePrev) ++
  bytesLE 8 (mkFld 31 0 x.sideHead + mkFld 63 32 x.sideTail)

/-- R483: the index and its engine fields in memory. -/
def saveIndex (i : Nat) (x : ScuIndex) (h : Hub) : Hub := ownWrite (descOff i h + 64) (engineBytes x) (putIndex i x h)

/-- R467: a region's header. -/
structure RegionHdr where
  epoch : Nat
  base : Nat
  nodes : Nat
  entries : List Nat
  ok : Bool
  deriving DecidableEq, Repr

def parseHdr (bs : List Byte) : RegionHdr :=
  let n := leAt bs 20 1
  { epoch := leAt bs 0 2, base := leAt bs 8 6, nodes := leAt bs 16 4,
    entries := (List.range (min n 16)).map (fun k => leAt bs (64 + 4 * k) 4),
    ok := decide (n ≤ 16) && leAt bs 2 6 == 0 && leAt bs 14 2 == 0 && leAt bs 21 43 == 0 }

/-- R466: does a descriptor break the table, or name another module? -/
def scuBad (bs : List Byte) (h : Hub) : Bool :=
  let w := descWord bs 0
  let v := descWord bs 1
  let d := parseScu bs
  let addrOk (i : Nat) : Bool :=
    let a := descWord bs i
    a % 65536 == 0 && nbits a 63 56 == 0 && gsaHere a h
  decide (d.fmt < 4 ∨ 9 < d.fmt) || nbits w 7 5 != 0 || decide (d.dim < 16 ∨ 1024 < d.dim) || d.dim % 16 != 0 ||
  decide (d.degree < 8 ∨ 64 < d.degree) || d.degree % 8 != 0 || decide (d.entries < 1 ∨ 16 < d.entries) || w.testBit 31 ||
  nbits w 63 44 != 0 || decide (nbits v 36 32 < 10 ∨ 24 < nbits v 36 32) || nbits v 63 37 != 0 ||
  ((natRange 2 4).any (fun i => !addrOk i)) || ([6, 7, 13, 14, 15].any (fun i => descWord bs i != 0)) ||
  nbits (descWord bs 8) 31 18 != 0 || ([9, 10, 11].any (fun i => nbits (descWord bs i) 63 48 != 0))

/-- R468: a node record. -/
structure NodeRec where
  label : Nat
  attrs : List Nat
  present : Bool
  edges : List Nat
  seq : Nat
  id : Nat
  bytes : List Byte
  deriving DecidableEq, Repr

def parseNode (d : ScuDesc) (bs : List Byte) : NodeRec :=
  let b := leAt bs 40 1
  { label := leAt bs 0 8, attrs := (List.range 8).map (fun k => leAt bs (8 + 4 * k) 4), present := b.testBit 0,
    edges := (List.range (min d.degree (nbits b 7 1))).map (fun j => leAt bs (64 + 4 * j) 4),
    seq := leAt bs 48 6, id := leAt bs 56 4, bytes := bs }

/-- A record read for the index's tenant; none where it is poisoned (R479). -/
def readNode (d : ScuDesc) (off : Nat) (h : Hub) : Option NodeRec × Hub :=
  let b := tenantRead d.tenant off d.size h
  (if b.1.2 then none else some (parseNode d b.1.1), b.2)

/-- R469: a tombstone entry; none where poisoned. -/
def readTomb (d : ScuDesc) (i : Nat) (h : Hub) : Option Nat × Hub :=
  let b := tenantRead d.tenant (d.tomb + 8 * i) 8 h
  (if b.1.2 then none else some (nbits (ofBytesLE b.1.1) 47 0), b.2)

def sideOff (d : ScuDesc) (j : Nat) : Nat := d.side + j % d.sideLen * d.size

def sideCount (x : ScuIndex) : Nat := (x.sideTail + 2 ^ 32 - x.sideHead) % 2 ^ 32

/-- The retained side entries, oldest first; none where one is poisoned. -/
def sideEntries (x : ScuIndex) (h : Hub) : Option (List NodeRec) × Hub :=
  (List.range (sideCount x)).foldl (fun (acc : Option (List NodeRec) × Hub) k =>
    let r := readNode x.d (sideOff x.d ((x.sideHead + k) % 2 ^ 32)) acc.2
    match acc.1, r.1 with
    | some l, some e => (some (l ++ [e]), r.2)
    | _, _ => (none, r.2)) (some [], h)

/- ### Distance and filters (R473, R474) -/

def vecOff (d : ScuDesc) : Nat := 64 + 4 * d.degree

/-- The vector of a record, as FP32 lanes. -/
def vecLanes (d : ScuDesc) (bs : List Byte) : List Lane :=
  let v := sliceBytes bs (vecOff d) (d.dim * scuElem d.fmt)
  (List.range d.dim).map (fun i => laneFrom d.fmt v i)

/-- R473. -/
def dist (d : ScuDesc) (q x : List Lane) : Lane :=
  let term (p : Lane × Lane) : Lane := if d.ip then laneMul p.1 p.2 else laneMul (laneSub p.1 p.2) (laneSub p.1 p.2)
  let s := reduceLanes laneAdd (some 0#32) ((List.zip q x).map term)
  if d.ip then laneOf s s (laneVal s).flip else s

/-- R473: the order of keys (distance, node ID). -/
def keyLt (a b : Lane × Nat) : Bool :=
  let x := laneVal a.1
  let y := laneVal b.1
  if x.lt y then true else if y.lt x then false else decide (a.2 < b.2)

/-- R474: one term on the attributes. -/
def termTrue (attrs : List Nat) (t : Nat) : Bool :=
  let a := nth attrs (nbits t 2 0) 0
  let v := nbits t 63 32
  let op := nbits t 6 3
  if op = 0 then a == v else if op = 1 then a != v else if op = 2 then decide (a < v) else if op = 3 then decide (a ≤ v)
  else if op = 4 then decide (v < a) else if op = 5 then decide (v ≤ a) else if op = 6 then a &&& v != 0 else a &&& v == v

def passes (terms : List Nat) (attrs : List Nat) : Bool :=
  let valid := terms.filter (fun t => t.testBit 10)
  valid.isEmpty || (List.range 8).any (fun c =>
    let l := valid.filter (fun t => nbits t 9 7 == c)
    !l.isEmpty && l.all (termTrue attrs))

/-- R474, R475: a reserved bit or value of a term. -/
def termBad (t : Nat) : Bool := t.testBit 10 && (decide (7 < nbits t 6 3)) || nbits t 31 11 != 0

/- ### The walk (R477) -/

/-- What a walk runs over: where records lie, the snapshot's q, and how a node is kept out of the results. -/
structure Graph where
  region : Nat
  nodes : Nat
  q : Nat
  live : Bool
  terms : List Nat
  deriving DecidableEq, Repr

/-- One node held by `beam` or `res`. -/
structure Cand where
  key : Lane
  id : Nat
  label : Nat
  expanded : Bool
  edges : List Nat
  deriving DecidableEq, Repr

structure WalkSt where
  seen : List Nat := []
  visits : Nat := 0
  limit : Bool := false
  beam : List Cand := []
  res : List Cand := []
  poison : Bool := false
  rejects : Nat := 0
  routed : Nat := 0
  deriving DecidableEq, Repr

def insertCand (c : Cand) : List Cand → List Cand
  | [] => [c]
  | x :: t => if keyLt (c.key, c.id) (x.key, x.id) then c :: x :: t else x :: insertCand c t

def offer (cap : Nat) (c : Cand) (l : List Cand) : List Cand := (insertCand c l).take cap

/-- visit(y) of R477. `src` reads a record of the graph, `tombs` a tombstone. -/
def visit (d : ScuDesc) (g : Graph) (qv : List Lane) (width k maxVisit y : Nat) (w : WalkSt) (h : Hub) : WalkSt × Hub :=
  if w.poison then (w, h)
  else if w.seen.contains y then (w, h)
  else if w.visits = maxVisit then ({ w with limit := true }, h)
  else
    let w1 := { w with seen := y :: w.seen, visits := w.visits + 1 }
    match readNode d (g.region + 4096 + y * d.size) h with
    | (none, h1) => ({ w1 with poison := true }, h1)
    | (some n, h1) =>
      let key := dist d qv (vecLanes d n.bytes)
      if (laneVal key).isNan then (w1, h1)
      else
        let c : Cand := ⟨key, y, n.label, false, n.edges⟩
        let w2 := { w1 with beam := offer width c w1.beam }
        match (if g.live then readTomb d y h1 else (some 0, h1)) with
        | (none, h2) => ({ w2 with poison := true }, h2)
        | (some t, h2) =>
          let live := n.present && (t == 0 || decide (g.q ≤ t))
          let pass := passes g.terms n.attrs
          ({ w2 with res := if live && pass then offer k c w2.res else w2.res,
                     rejects := w2.rejects + bit01 (!pass), routed := w2.routed + bit01 (!live) }, h2)

/-- The edges of one expanded node: each PRESENT node is visited. -/
def visitEdges (d : ScuDesc) (g : Graph) (qv : List Lane) (width k maxVisit : Nat) : List Nat → WalkSt → Hub → WalkSt × Hub
  | [], w, h => (w, h)
  | y :: t, w, h =>
    if w.poison then (w, h)
    else if g.nodes ≤ y then visitEdges d g qv width k maxVisit t w h
    else
      match readNode d (g.region + 4096 + y * d.size) h with
      | (none, h1) => ({ w with poison := true }, h1)
      | (some n, h1) =>
        let r := if n.present then visit d g qv width k maxVisit y w h1 else (w, h1)
        visitEdges d g qv width k maxVisit t r.1 r.2

/-- Take the lowest unexpanded node of `beam` and mark it expanded. -/
def takeUnexpanded : List Cand → Option (Cand × List Cand)
  | [] => none
  | c :: t =>
    if c.expanded then (takeUnexpanded t).map (fun r => (r.1, c :: r.2))
    else some (c, { c with expanded := true } :: t)

def walkLoop (d : ScuDesc) (g : Graph) (qv : List Lane) (width k maxVisit : Nat) : Nat → WalkSt → Hub → WalkSt × Hub
  | 0, w, h => (w, h)
  | fuel + 1, w, h =>
    if w.poison then (w, h)
    else
      match takeUnexpanded w.beam with
      | none => (w, h)
      | some (c, beam) =>
        let r := visitEdges d g qv width k maxVisit c.edges { w with beam := beam } h
        walkLoop d g qv width k maxVisit fuel r.1 r.2

/-- The walk from the entry nodes; every visited node is expanded at most once. -/
def graphWalk (d : ScuDesc) (g : Graph) (qv : List Lane) (width k maxVisit : Nat) (entries : List Nat) (h : Hub) : WalkSt × Hub :=
  let s := entries.foldl (fun (acc : WalkSt × Hub) y => visit d g qv width k maxVisit y acc.1 acc.2) ({}, h)
  walkLoop d g qv width k maxVisit (maxVisit + 1) s.1 s.2

/- ### Requests (R475 to R483) -/

def scuWord (f : Frame) (i : Nat) : Nat := leAt f.payload (8 * i) 8

def findScu (n : Nat) (h : Hub) : Option ScuReq := h.search.reqs.find? (fun r => r.n == n)

def putScu (r : ScuReq) (h : Hub) : Hub :=
  setScu { h.search with reqs := h.search.reqs.map (fun x => if x.n = r.n then r else x) } h

/-- R490: an unloaded index whose work is over goes. -/
def indexSettle (i : Nat) (h : Hub) : Hub :=
  match getIndex i h with
  | none => h
  | some x =>
    if x.unloading && !(h.search.reqs.any (fun r => r.index == i)) then
      setScu { h.search with indexes := Tab.erase h.search.indexes i } h
    else h

/-- R472, R484: the retained side entries whose sequence is below a base are freed. -/
def freeSide (base : Nat) : Nat → ScuIndex → Hub → ScuIndex × Hub
  | 0, x, h => (x, h)
  | fuel + 1, x, h =>
    if sideCount x = 0 then (x, h)
    else
      match readNode x.d (sideOff x.d x.sideHead) h with
      | (none, h1) => (x, h1)
      | (some e, h1) =>
        if e.seq < base then freeSide base fuel { x with sideHead := (x.sideHead + 1) % 2 ^ 32 } h1 else (x, h1)

/-- R484: the merge leaves Draining once the retired epoch has no reference. -/
def mergeDrain (h : Hub) : Hub :=
  match h.search.merge with
  | none => h
  | some m =>
    if m.phase = 1 ∧ !(h.search.reqs.any (fun r => r.index == m.index && r.epoch == some m.retired)) then
      match getIndex m.index h with
      | none => h
      | some x =>
        let y := freeSide x.baseCur (sideCount x) x h
        saveIndex m.index y.1 (setScu { y.2.search with merge := some { m with phase := 2 } } y.2)
    else h

/-- A request completes. -/
def scuAnswer (r : ScuReq) (status detail op0 op1 : Nat) (h : Hub) : Hub :=
  let op := nbits r.frame.aux 7 0
  let h1 := setScu { h.search with reqs := h.search.reqs.filter (fun x => x.n != r.n) } h
  let h2 := if op = 1 then count scPage 0 1 (if status = stUnit ∧ detail = sdShort then count scPage 1 1 h1 else h1)
    else if status = stOk ∧ op = 2 then count scPage 6 1 h1
    else if status = stOk ∧ op = 3 then count scPage 7 1 h1 else h1
  mergeDrain (indexSettle r.index (cloakAnswer r.frame status detail 0 op0 op1 h2))

/-- R475, R481, R482: does LEN fit the operation? The element size of an index not loaded is not known, nor of a reserved Q_FMT. -/
def scuLenOk (f : Frame) (x : Option ScuIndex) : Bool :=
  let op := nbits f.aux 7 0
  let n := f.payload.length
  n == f.len && decide (n ≤ 4096) &&
  (if op = 3 then n == 16
   else if op = 2 then
     if (scuWord f 6).testBit 63 then n == 64
     else (match x with | some i => n == 64 + i.d.dim * scuElem i.d.fmt | none => decide (64 ≤ n))
   else
     match x with
     | some i =>
       let q := nbits (scuWord f 0) 51 48
       if q = 6 then n == 128 + 2 * i.d.dim else if q = 9 then n == 128 + 4 * i.d.dim else decide (128 ≤ n)
     | none => decide (128 ≤ n))

/-- R476: a reserved bit or value, or a field out of range. -/
def scuReqBad (f : Frame) (x : ScuIndex) : Bool :=
  let op := nbits f.aux 7 0
  let w := scuWord f 0
  if op = 3 then nbits w 63 8 != 0
  else if op = 2 then
    let v := scuWord f 6
    nbits w 63 8 != 0 || nbits v 62 57 != 0 || scuWord f 7 != 0 || nbits v 56 0 % 64 != 0
  else
    let k := nbits w 31 16
    let l := nbits w 47 32
    let q := nbits w 51 48
    nbits w 15 9 != 0 || decide (k < 1 ∨ 256 < k) || decide (l < k ∨ 1024 < l) || !(q == 6 || q == 9) || nbits w 63 52 != 0 ||
    decide (262144 < nbits (scuWord f 2) 18 0) || nbits (scuWord f 2) 63 19 != 0 || nbits (scuWord f 3) 63 57 != 0 ||
    nbits (scuWord f 3) 56 0 % 16 != 0 || ([4, 5, 6, 7].any (fun i => scuWord f i != 0)) ||
    ((natRange 8 8).any (fun i => termBad (scuWord f i))) || (q == 9 && decide (992 < x.d.dim))

/-- R471: a pinned snapshot is valid: whether it is the previous epoch; none where stale. -/
def pinned (x : ScuIndex) (epoch q : Nat) : Option Bool :=
  if epoch = x.epoch ∧ x.baseCur ≤ q ∧ q ≤ x.committed then some false
  else if x.prevV ∧ epoch = (x.epoch + 65535) % 65536 ∧ x.basePrev ≤ q ∧ q ≤ x.committed then some true
  else none

/-- R477: side entries visible at q that are live and pass, offered in sequence order. For the current epoch an entry below
its base belongs to the previous epoch (R472; log entry 27). The count of entries scanned goes to counter 3. -/
def offerSide (d : ScuDesc) (g : Graph) (qv : List Lane) (k lo : Nat) : List NodeRec → WalkSt → Hub → WalkSt × Hub
  | [], w, h => (w, h)
  | e :: t, w, h =>
    if w.poison then (w, h)
    else if e.seq < lo ∨ g.q ≤ e.seq then offerSide d g qv k lo t w h
    else
      match readTomb d e.id h with
      | (none, h1) => ({ w with poison := true }, h1)
      | (some tm, h1) =>
        let live := tm == 0 || decide (g.q ≤ tm)
        let key := dist d qv (vecLanes d e.bytes)
        let w1 := if live && passes g.terms e.attrs && !(laneVal key).isNan then
          { w with res := offer k ⟨key, e.id, e.label, true, []⟩ w.res } else w
        offerSide d g qv k lo t w1 (count scPage 3 1 h1)

/-- The query vector in FP32. -/
def queryLanes (f : Frame) (d : ScuDesc) : List Lane :=
  let q := nbits (scuWord f 0) 51 48
  let v := f.payload.drop 128
  (List.range d.dim).map (fun i => laneFrom q v i)

/-- R477 to R479: an admitted query runs; its results go to REPLY. -/
def runQuery (r0 : ScuReq) (x : ScuIndex) (prev : Bool) (q : Nat) (h0 : Hub) : Hub :=
  let f := r0.frame
  let d := x.d
  let w := scuWord f 0
  let k := nbits w 31 16
  let mv := nbits (scuWord f 2) 18 0
  let maxVisit := if mv = 0 then 262144 else mv
  let region := x.region prev
  let epoch := if prev then (x.epoch + 65535) % 65536 else x.epoch
  let hb := tenantRead d.tenant region 4096 h0
  let hdr := parseHdr hb.1.1
  let g : Graph := ⟨region, hdr.nodes, q, true, (natRange 8 8).map (scuWord f)⟩
  let qv := queryLanes f d
  let a := if hb.1.2 then (({ poison := true } : WalkSt), hb.2) else graphWalk d g qv (nbits w 47 32) k maxVisit hdr.entries hb.2
  let s := sideEntries x a.2
  let b := match s.1 with
    | none => (if sideCount x = 0 then a.1 else { a.1 with poison := true }, s.2)
    | some es => offerSide d g qv k (if prev then 0 else x.baseCur) es a.1 s.2
  let h1 := count scPage 2 b.1.visits (count scPage 4 b.1.rejects (count scPage 5 b.1.routed b.2))
  let r := { r0 with epoch := some epoch }
  if b.1.poison then scuAnswer r stUnit sdPoison 0 0 h1
  else
    let found := b.1.res.length
    let op0 := mkFld 15 0 found + mkFld 16 16 (bit01 b.1.limit) + mkFld 63 32 b.1.visits
    let op1 := mkFld 63 48 epoch + mkFld 47 0 q
    let st := if found = k then (stOk, 0) else (stUnit, sdShort)
    let bytes := b.1.res.flatMap (fun c => bytesLE 4 c.id ++ bytesLE 4 c.key.toNat ++ bytesLE 8 c.label)
    let sent := (replyPieces (bytes.length / 4096 + 2) (nbits (scuWord f 3) 56 0) bytes).foldl (fun (acc : (Nat × Bool) × Hub) p =>
      match issueRemote { (emuFrameTo f 2 p.1 p.2.length p.2 false) with srcUnit := 0x85 } (.scuWrite r.n) acc.2 with
      | .ok y => ((acc.1.1 + 1, acc.1.2), y)
      | .error _ => ((acc.1.1, true), acc.2)) ((0, false), h1)
    let r1 : ScuReq := { r with waits := sent.1.1, failed := sent.1.2, status := st.1, detail := st.2, op0 := op0, op1 := op1 }
    if r1.waits = 0 then
      if r1.failed then scuAnswer r1 stUnit sdSource 0 0 sent.2 else scuAnswer r1 st.1 st.2 op0 op1 sent.2
    else putScu r1 sent.2

/-- R478: a result write completes. -/
def scuWriteDone (n status : Nat) (h : Hub) : Hub :=
  match findScu n h with
  | none => h
  | some r =>
    let r1 : ScuReq := { r with waits := r.waits - 1, failed := r.failed || status != stOk }
    if r1.waits = 0 then
      if r1.failed then scuAnswer r1 stUnit sdSource 0 0 h else scuAnswer r1 r.status r.detail r.op0 r.op1 h
    else putScu r1 h

/-- R481: the vector is in hand: ID, sequence, side entry. -/
def insertNow (r : ScuReq) (vec : List Byte) (h : Hub) : Hub :=
  match getIndex r.index h with
  | none => scuAnswer r stUnit sdNoIndex 0 0 h
  | some x =>
    let d := x.d
    if d.sideLen ≤ sideCount x then scuAnswer r stUnit sdSideFull 0 0 h
    else if x.nextId = d.nodeMax then scuAnswer r stUnit sdIndexFull 0 0 h
    else
      let p := r.frame.payload
      let bs := sliceBytes p 8 40 ++ bytesLE 1 1 ++ bytesLE 7 0 ++ bytesLE 6 x.committed ++ bytesLE 2 0 ++ bytesLE 4 x.nextId ++
        bytesLE 4 0 ++ bytesLE (4 * d.degree) 0 ++ vec
      let rec_ := sliceBytes bs 0 d.size
      let h1 := (tenantWrite d.tenant (sideOff d x.sideTail) rec_ false h).getD (poolFull h)
      let x1 := { x with nextId := x.nextId + 1, committed := x.committed + 1, sideTail := (x.sideTail + 1) % 2 ^ 32 }
      let h2 := saveIndex r.index x1 h1
      let high (y : ScuIndex) : Bool := decide (3 * d.sideLen < 4 * sideCount y)
      let h3 := if high x1 && !high x then raiseEvent scPage 1 h2 else h2
      scuAnswer r stOk 0 x.nextId x.committed h3

/-- R481: the pulls of an insert. -/
def pullReads (r : ScuReq) (d : ScuDesc) (h : Hub) : Hub :=
  let a := nbits (scuWord r.frame 6) 56 0
  let n := d.dim * scuElem d.fmt
  let sent := (cutRange (n / 4096 + 2) 0 a n).foldl (fun (acc : (Nat × Bool) × Hub) p =>
    match issueRemote { (emuFrameTo r.frame 1 p.2.1 p.2.2 [] false) with srcUnit := 0x85 } (.scuRead r.n p.1) acc.2 with
    | .ok y => ((acc.1.1 + 1, acc.1.2), y)
    | .error _ => ((acc.1.1, true), acc.2)) ((0, false), h)
  if sent.1.1 = 0 then scuAnswer r stUnit sdSource 0 0 sent.2
  else putScu { r with waits := sent.1.1, failed := sent.1.2 } sent.2

/-- R481: a pull completes. -/
def scuReadDone (n off status : Nat) (poison : Bool) (data : List Byte) (h : Hub) : Hub :=
  match findScu n h with
  | none => h
  | some r =>
    let bad := status != stOk && status != stPoisoned
    let r1 : ScuReq := { r with
      waits := r.waits - 1
      failed := r.failed || bad
      poison := r.poison || poison || status == stPoisoned
      data := (List.zip (natRange off data.length) data).foldl (fun a p => Tab.set a p.1 p.2) r.data }
    if r1.waits = 0 then
      if r1.failed then scuAnswer r1 stUnit sdSource 0 0 h
      else if r1.poison then scuAnswer r1 stUnit sdPoison 0 0 h
      else
        match getIndex r.index h with
        | none => scuAnswer r1 stUnit sdNoIndex 0 0 h
        | some x => insertNow r1 ((natRange 0 (x.d.dim * scuElem x.d.fmt)).map (fun k => Tab.getD r1.data k 0#8)) h
    else putScu r1 h

/-- R471: is a node live under (current epoch, C)? -/
def liveNow (x : ScuIndex) (i : Nat) (h : Hub) : Bool × Hub :=
  let d := x.d
  let hb := tenantRead d.tenant (x.region false) 4096 h
  let hdr := parseHdr hb.1.1
  let a := if i < hdr.nodes then readNode d (x.region false + 4096 + i * d.size) hb.2 else (none, hb.2)
  let inGraph := match a.1 with | some n => n.present | none => false
  let s := sideEntries x a.2
  let inSide := (s.1.getD []).any (fun e => e.id == i && decide (e.seq < x.committed))
  let t := readTomb d i s.2
  ((inGraph || inSide) && decide (i < d.nodeMax) && (match t.1 with | some v => v == 0 || decide (x.committed ≤ v) | none => false), t.2)

/-- R482. -/
def deleteNow (r : ScuReq) (x : ScuIndex) (h : Hub) : Hub :=
  let i := leAt r.frame.payload 8 4
  let l := liveNow x i h
  if !l.1 then scuAnswer r stUnit sdNotLive 0 0 l.2
  else
    let h1 := (tenantWrite x.d.tenant (x.d.tomb + 8 * i) (bytesLE 8 x.committed) false l.2).getD (poolFull l.2)
    scuAnswer r stOk 0 0 x.committed (saveIndex r.index { x with committed := x.committed + 1 } h1)

/-- R476: a WORK frame at unit 0x85. -/
def scuRequest (f : Frame) (h : Hub) : Hub :=
  let op := nbits f.aux 7 0
  let i := nbits (scuWord f 0) 7 0
  let x? := getIndex i h
  if !(op == 1 || op == 2 || op == 3) || !scuLenOk f x? then cloakAnswer f stBadRequest 0 0 0 0 h
  else if 256 ≤ h.search.reqs.length ∨ !enabled scPage h then cloakAnswer f stBusy 0 0 0 0 h
  else
    match x? with
    | none => cloakAnswer f stUnit sdNoIndex 0 0 0 h
    | some x =>
      if x.unloading then cloakAnswer f stUnit sdNoIndex 0 0 0 h
      else if f.tenant ≠ x.d.tenant then cloakAnswer f stDenied 0 0 0 0 h
      else if scuReqBad f x then cloakAnswer f stUnit sdBadDesc 0 0 0 h
      else
        let w1 := scuWord f 1
        let snap := if (scuWord f 0).testBit 8 then (pinned x (nbits w1 63 48) (nbits w1 47 0), nbits w1 47 0)
          else (some false, x.committed)
        match snap.1, decide (op = 1) with
        | none, true => cloakAnswer f stUnit sdStale 0 0 0 (count scPage 8 1 h)
        | s, _ =>
          let r : ScuReq := { n := h.search.nextReq, frame := f, index := i, epoch := none, waits := 0 }
          let h1 := setScu { h.search with reqs := h.search.reqs ++ [r], nextReq := h.search.nextReq + 1 } (meterAdd f.tenant 6 1 h)
          if op = 1 then runQuery r x (s.getD false) snap.2 h1
          else if op = 3 then deleteNow r x h1
          else if (scuWord f 6).testBit 63 then pullReads r x.d h1
          else insertNow r (f.payload.drop 64) h1

/- ### Loading (R466, R487, R490) -/

def indexResult (r : Nat) (h : Hub) : Hub := setScu { h.search with cmdResult := r } h

/-- R487: side entries whose sequence is not below COMMITTED are dropped. -/
def dropSide : Nat → ScuIndex → Hub → ScuIndex × Hub
  | 0, x, h => (x, h)
  | fuel + 1, x, h =>
    if sideCount x = 0 then (x, h)
    else
      match readNode x.d (sideOff x.d ((x.sideTail + 2 ^ 32 - 1) % 2 ^ 32)) h with
      | (none, h1) => (x, h1)
      | (some e, h1) =>
        if x.committed ≤ e.seq then dropSide fuel { x with sideTail := (x.sideTail + 2 ^ 32 - 1) % 2 ^ 32 } h1 else (x, h1)

/-- R487: tombstones at or above COMMITTED are cleared (log entry 28: at the load, and TOMB_SCAN_DONE ends BUSY). -/
def clearTombs (x : ScuIndex) (h : Hub) : Hub :=
  (List.range x.d.nodeMax).foldl (fun y i =>
    match readTomb x.d i y with
    | (some t, y1) => if t ≠ 0 ∧ x.committed ≤ t then (tenantWrite x.d.tenant (x.d.tomb + 8 * i) (bytesLE 8 0) false y1).getD y1 else y1
    | (none, y1) => y1) h

/-- R466: LOAD. -/
def indexLoad (i : Nat) (h : Hub) : Hub :=
  let b := storeRead (descOff i h) 128 h
  let refuse (y : Hub) : Hub := raise scPage 17 (indexResult 1 y)
  if (getIndex i h).isSome || b.1.2 || scuBad b.1.1 b.2 then refuse b.2
  else
    let e := descWord b.1.1 8
    let fresh := (natRange 8 5).all (fun k => descWord b.1.1 k == 0)
    let x0 : ScuIndex :=
      { desc := b.1.1, epoch := nbits e 15 0, cur := nbits e 16 16, prevV := false, nextId := nbits e 63 32,
        committed := nbits (descWord b.1.1 9) 47 0, baseCur := nbits (descWord b.1.1 10) 47 0, basePrev := nbits (descWord b.1.1 11) 47 0,
        sideHead := nbits (descWord b.1.1 12) 31 0, sideTail := nbits (descWord b.1.1 12) 63 32 }
    let hb := storeRead (x0.region false) 4096 b.2
    let hdr := parseHdr hb.1.1
    if hb.1.2 || !hdr.ok || hdr.epoch != x0.epoch || (!fresh && hdr.base != x0.baseCur) then refuse hb.2
    else
      let x1 := if fresh then { x0 with committed := 1, baseCur := 1, nextId := hdr.nodes } else x0
      let a := dropSide (sideCount x1) x1 hb.2
      let c := freeSide x1.baseCur (sideCount a.1) a.1 a.2
      indexResult 0 (saveIndex i { c.1 with scanning := true } (clearTombs c.1 c.2))

/-- R487: the scan ends. -/
def tombScanDone (i : Nat) (h : Hub) : Hub :=
  match getIndex i h with
  | none => h
  | some x => putIndex i { x with scanning := false } h

def mergingIndex (i : Nat) (h : Hub) : Bool := match h.search.merge with | some m => m.index == i | none => false

/-- R486, R490: UNLOAD. -/
def indexUnload (i : Nat) (h : Hub) : Hub :=
  match getIndex i h with
  | none => indexResult 0 h
  | some x =>
    if mergingIndex i h || x.scanning then indexResult 2 h
    else indexResult 0 (indexSettle i (putIndex i { x with unloading := true } h))

/- ### Merge (R484 to R486) -/

/-- A merge ends with a result (R491). -/
def mergeEnd (result done : Nat) (h : Hub) : Hub :=
  let h1 := setScu { h.search with merge := none, mergeResult := result, mergeDone := done } h
  let h2 := if result = 3 ∨ result = 4 then raise scPage 18 h1 else h1
  raiseEvent scPage 0 h2

/-- R484: START. -/
def mergeStart (v : Nat) (h : Hub) : Hub :=
  let i := nbits v 5 0
  match getIndex i h, h.search.merge with
  | some x, none =>
    if x.unloading then mergeEnd 3 0 h
    else
    let d := x.d
    let m : ScuMerge := { index := i, m := x.committed, nodes := x.nextId, width := max (nbits v 15 6) d.degree,
                          slots := if nbits v 29 25 = 0 then 8 else nbits v 29 25, phase := if x.prevV then 1 else 2,
                          retired := (x.epoch + 65535) % 65536 }
    mergeDrain (saveIndex i { x with prevV := false } (setScu { h.search with merge := some m } h))
  | _, some _ => raiseEvent scPage 0 (raise scPage 18 (setScu { h.search with mergeResult := 3 } h))
  | none, none => mergeEnd 3 0 h

/-- R486: ABORT; the number of nodes done by then is not stated: free (log entry 29). -/
def mergeAbort (v : Nat) (h : Hub) : Hub :=
  if mergingIndex (nbits v 5 0) h then
    let f := fresh h
    mergeEnd 1 (fld f.1 29 0) f.2
  else setScu { h.search with mergeResult := 2 } h

/-- A node of the graph being built. -/
structure NewNode where
  rec_ : NodeRec
  edges : List Nat
  vec : List Lane
  deriving DecidableEq, Repr

def insertKey (c : Lane × Nat) : List (Lane × Nat) → List (Lane × Nat)
  | [] => [c]
  | x :: t => if keyLt c x then c :: x :: t else x :: insertKey c t

/-- IDs in ascending key to a vector; a NaN distance drops one. -/
def byKey (d : ScuDesc) (q : List Lane) (vecOf : Nat → Option (List Lane)) (ids : List Nat) : List (Lane × Nat) :=
  (ids.filterMap (fun y => (vecOf y).map (fun v => (dist d q v, y)))).foldl (fun a c =>
    if (laneVal c.1).isNan then a else insertKey c a) []

/-- The walk of R477 over the graph written so far (R485), with a visit budget of 262,144 (log entry 30). -/
def buildWalk (d : ScuDesc) (g : Tab NewNode) (qv : List Lane) (width : Nat) : Nat → List Nat → List Cand → List Cand
  | 0, _, beam => beam
  | fuel + 1, seen, beam =>
    match takeUnexpanded beam with
    | none => beam
    | some (c, b) =>
      let r := c.edges.foldl (fun (acc : List Nat × List Cand) y =>
        if acc.1.contains y ∨ 262144 ≤ acc.1.length then acc
        else
          match Tab.get? g y with
          | none => acc
          | some n =>
            let k := dist d qv n.vec
            if (laneVal k).isNan then (y :: acc.1, acc.2) else (y :: acc.1, offer width ⟨k, y, 0, false, n.edges⟩ acc.2)) (seen, b)
      buildWalk d g qv width fuel r.1 r.2

def buildSearch (d : ScuDesc) (g : Tab NewNode) (qv : List Lane) (width : Nat) (entries : List Nat) : List Nat :=
  let start := (dedup entries).foldl (fun (acc : List Nat × List Cand) y =>
    match Tab.get? g y with
    | none => acc
    | some n =>
      let k := dist d qv n.vec
      if (laneVal k).isNan then (y :: acc.1, acc.2) else (y :: acc.1, offer width ⟨k, y, 0, false, n.edges⟩ acc.2)) ([], [])
  ((buildWalk d g qv width 262145 start.1 start.2).map (·.id)).take d.degree

/-- R485, first loop: the kept nodes of the current region, with edges to nodes that are not kept replaced. -/
def mergeCopy (d : ScuDesc) (old : Tab NodeRec) (kept : List Nat) : Tab NewNode :=
  let vecOf (y : Nat) : Option (List Lane) := (Tab.get? old y).map (fun n => vecLanes d n.bytes)
  kept.filterMap (fun x =>
    match Tab.get? old x with
    | none => none
    | some n =>
      let v := vecLanes d n.bytes
      let gone := n.edges.filter (fun y => !kept.contains y)
      let es := if gone = [] then n.edges
        else
          let far := gone.flatMap (fun y => match Tab.get? old y with | some m => m.edges | none => [])
          let cand := (dedup ((n.edges ++ far).filter (fun y => kept.contains y))).filter (fun y => y != x)
          ((byKey d v vecOf cand).map (·.2)).take d.degree
      some (x, ⟨n, es, v⟩))

/-- R485: the entry nodes of the new epoch. -/
def mergeEntries (d : ScuDesc) (old : Tab NodeRec) (kept : List Nat) (entries : List Nat) : List Nat :=
  let vecOf (y : Nat) : Option (List Lane) := (Tab.get? old y).map (fun n => vecLanes d n.bytes)
  let stay := entries.filter (fun e => kept.contains e)
  (entries.foldl (fun (acc : List Nat × List Nat) e =>
    if kept.contains e then (acc.1 ++ [e], acc.2)
    else
      let near := match Tab.get? old e with
        | some n => (byKey d (vecLanes d n.bytes) vecOf (n.edges.filter (fun y => kept.contains y))).head?
        | none => none
      match near with
      | some c => (acc.1 ++ [c.2], c.2 :: acc.2)
      | none =>
        (match kept.find? (fun y => !acc.2.contains y) with
         | some y => (acc.1 ++ [y], y :: acc.2)
         | none => acc)) ([], stay)).1

/-- R485, last loop: the kept side entries join the graph. -/
def mergeLink (d : ScuDesc) (width : Nat) (sides : List NodeRec) (g0 : Tab NewNode) (e0 : List Nat) : Tab NewNode × List Nat :=
  sides.foldl (fun (acc : Tab NewNode × List Nat) v =>
    let vec := vecLanes d v.bytes
    let res := buildSearch d acc.1 vec width acc.2
    let g1 := Tab.set acc.1 v.id ⟨v, res, vec⟩
    let g2 := res.foldl (fun g u =>
      match Tab.get? g u with
      | none => g
      | some n =>
        if n.edges.length < d.degree then Tab.set g u { n with edges := n.edges ++ [v.id] }
        else
          let vecOf (y : Nat) : Option (List Lane) := (Tab.get? g y).map (·.vec)
          match n.edges.getLast? with
          | none => g
          | some last =>
            let kl := match vecOf last with | some w => (dist d n.vec w, last) | none => (0#32, last)
            if keyLt (dist d n.vec vec, v.id) kl then
              Tab.set g u { n with edges := (byKey d n.vec vecOf (n.edges.dropLast ++ [v.id])).map (·.2) }
            else g) g1
    (g2, if acc.2.length < d.entries then acc.2 ++ [v.id] else acc.2)) (g0, e0)

/-- R468: the record of a kept node in its new region. -/
def newRecord (d : ScuDesc) (n : NewNode) : List Byte :=
  sliceBytes (n.rec_.bytes.take 40 ++ bytesLE 1 (1 + 2 * n.edges.length) ++ bytesLE 23 0 ++
    n.edges.flatMap (bytesLE 4) ++ bytesLE (4 * (d.degree - n.edges.length)) 0 ++
    sliceBytes n.rec_.bytes (vecOff d) (d.dim * scuElem d.fmt)) 0 d.size

/-- The current region's PRESENT records, tombstones of every ID, and side entries; none where poison is read. -/
def mergeRead (x : ScuIndex) (nodes m : Nat) (h : Hub) : Option (Tab NodeRec × List Nat × List NodeRec × RegionHdr) × Hub :=
  let d := x.d
  let hb := tenantRead d.tenant (x.region false) 4096 h
  let hdr := parseHdr hb.1.1
  let old := (List.range hdr.nodes).foldl (fun (acc : Option (Tab NodeRec) × Hub) i =>
    let r := readNode d (x.region false + 4096 + i * d.size) acc.2
    match acc.1, r.1 with
    | some t, some n => (some (if n.present then t ++ [(i, n)] else t), r.2)
    | _, _ => (none, r.2)) (some [], hb.2)
  let s := sideEntries x old.2
  let dead := (List.range nodes).foldl (fun (acc : Option (List Nat) × Hub) i =>
    let r := readTomb d i acc.2
    match acc.1, r.1 with
    | some t, some v => (some (if v ≠ 0 ∧ v < m then t ++ [i] else t), r.2)
    | _, _ => (none, r.2)) (some [], s.2)
  match (if hb.1.2 then none else old.1), s.1, dead.1 with
  | some t, some es, some dd => (some (t, dd, es.filter (fun e => decide (x.baseCur ≤ e.seq ∧ e.seq < m)), hdr), dead.2)
  | _, _, _ => (none, dead.2)

def insertById (v : NodeRec) : List NodeRec → List NodeRec
  | [] => [v]
  | x :: t => if v.id < x.id then v :: x :: t else x :: insertById v t

/-- R484: the record of an ID that is not kept: PRESENT 0, the rest not stated. -/
def absentRecord (d : ScuDesc) (h : Hub) : List Byte × Hub :=
  let f := freshBytes d.size h
  (f.1.take 40 ++ bytesLE 1 (2 * nbits (leAt f.1 40 1) 7 1) ++ f.1.drop 41, f.2)

/-- R484 to R486: the merge has built its epoch, which becomes current; or it met poison (log entry 29: the region is
written here, whole). -/
def mergeCommit (h : Hub) : Hub :=
  match h.search.merge with
  | none => h
  | some mg =>
    match getIndex mg.index h with
    | none => h
    | some x =>
      if mg.phase ≠ 2 then h
      else
        let d := x.d
        match mergeRead x mg.nodes mg.m h with
        | (none, h1) =>
          let f := fresh h1
          mergeEnd 4 (fld f.1 29 0) f.2
        | (some (old, dead, sides, hdr), h1) =>
          let kept := (old.map (·.1)).filter (fun i => !dead.contains i)
          let ks := (sides.filter (fun e => !dead.contains e.id)).foldl (fun a v => insertById v a) []
          let g := mergeLink d mg.width ks (mergeCopy d old kept) (mergeEntries d old kept hdr.entries)
          let region := x.region true
          let head := sliceBytes (bytesLE 2 (x.epoch + 1) ++ bytesLE 6 0 ++ bytesLE 6 mg.m ++ bytesLE 2 0 ++ bytesLE 4 mg.nodes ++
            bytesLE 1 (min 16 g.2.length) ++ bytesLE 43 0 ++ (g.2.take 16).flatMap (bytesLE 4)) 0 4096
          let put (off : Nat) (bs : List Byte) (y : Hub) : Hub := (tenantWrite d.tenant off bs false y).getD (poolFull y)
          let h2 := (List.range mg.nodes).foldl (fun y i =>
            match Tab.get? g.1 i with
            | some n => put (region + 4096 + i * d.size) (newRecord d n) y
            | none => let a := absentRecord d y; put (region + 4096 + i * d.size) a.1 a.2) (put region head h1)
          let x1 := { x with epoch := (x.epoch + 1) % 65536, cur := 1 - x.cur, prevV := true, basePrev := x.baseCur, baseCur := mg.m }
          mergeEnd 0 (kept.length + ks.length) (count scPage 9 1 (saveIndex mg.index x1 h2))

/- ### Registers (R489, R490) -/

/-- The progress of a running merge is not stated: free (log entry 29). -/
def scuView (off : Nat) (h : Hub) : Option (Nat × Hub) :=
  if off = 0x4C then
    some (mkFld 31 30 (if h.search.indexes.any (fun e => e.2.scanning) then 2 else h.search.cmdResult), h)
  else if off = 0x58 then
    match h.search.merge with
    | none => some (mkFld 59 56 h.search.mergeResult + mkFld 29 0 h.search.mergeDone, h)
    | some m =>
      if m.phase = 1 then some (mkFld 63 60 1 + mkFld 59 56 h.search.mergeResult, h)
      else
        let f := fresh h
        some (mkFld 63 60 (2 + fld f.1 30 30) + mkFld 59 56 h.search.mergeResult + mkFld 29 0 (fld f.1 29 0), f.2)
  else none

/-- R487: after a reset every index is unloaded and a merge is abandoned. -/
def scuReset (h : Hub) : Hub := setScu {} h

end Sys2Proof.Machine
end

