-- ==== Sys2Proof/Machine/Shape.lean ====
section
/-!
DEFINITION. The SHAPE page (R537 to R540): writes of a shaper's parameters and of the port map. Requests that a write
releases are answered as a list, for their targets.
-/
namespace Sys2Proof.Machine

def shapePage : Nat := 0xD8

def shapeSel (h : Hub) : Nat := regFld shapePage 0x40 7 0 h

/-- R538: fractions of logical devices bound to a shaper are those of its registers after a register write. -/
def forgetFractions (k : Nat) (h : Hub) : Hub :=
  [0, 1].foldl (fun x p => (getCxl p x).lds.foldl (fun y l =>
    if l.2.shaper = k then putLd p l.1 { l.2 with allocF := none, limitF := none } y else y) x) h

/-- R537: a shaper's parameters change. -/
def shaperWrite (s1 : Shaper) (h : Hub) : List Req × Hub :=
  let k := shapeSel h
  let h1 := putShaper k s1 h
  if (getShaper k h).en && !s1.en then shaperRelease k h1 else ([], shaperReset k h1)

def shapeCfgWrite (v : Word) (h : Hub) : List Req × Hub :=
  shaperWrite { getShaper (shapeSel h) h with
    en := bitOf v 31, resetTo := bitOf v 30, penalty := fld v 15 8, overhead := fld v 7 0 } h

def shapeRateWrite (v : Word) (h : Hub) : List Req × Hub :=
  shaperWrite { getShaper (shapeSel h) h with alloc := fld v 47 24, limit := fld v 23 0 } (forgetFractions (shapeSel h) h)

def shapeBurstWrite (v : Word) (h : Hub) : List Req × Hub :=
  shaperWrite { getShaper (shapeSel h) h with burst := fld v 23 0 } h

/-- R537: the shaper bound to a port changes: the newly bound one is reset. -/
def portMapWrite (p : Nat) (v : Word) (h : Hub) : Hub :=
  let old := getReg shapePage (0x100 + 4 * p) h
  let h1 := putReg shapePage (0x100 + 4 * p) (w64 (mkFld 31 31 (fld v 31 31) + mkFld 7 0 (fld v 7 0))) h
  if bitOf v 31 && (!bitOf old 31 || fld old 7 0 != fld v 7 0) then shaperReset (fld v 7 0) h1 else h1

/-- R537: the page's ENABLE goes to 0: every held request leaves. -/
def shapeOff (h : Hub) : List Req × Hub :=
  (h.shapers.map (·.1)).foldl (fun acc k =>
    let x := shaperRelease k acc.2
    (acc.1 ++ x.1, x.2)) ([], h)

/-- R537: the page's ENABLE goes to 1: every shaper is reset. -/
def shapeOn (h : Hub) : Hub := (h.shapers.map (·.1)).foldl (fun x k => shaperReset k x) h

/-- R540: every shaper is disabled after a cold or warm reset; what they held is gone. -/
def shapeReset (h : Hub) : Hub := { h with shapers := [] }

/-- R540: a count of thousandths, rounded down to whole bytes, in 32 bits. -/
def wholeBytes (n : Int) : Nat := wrapInt 32 (n / 1000)

/-- R540. -/
def shapeView (off : Nat) (h : Hub) : Option Nat :=
  let s := getShaper (shapeSel h) h
  let now := if s.limit = 0 then s else refill h.devTime s
  if off = 0x44 then some (mkFld 31 31 (bit01 s.en) + mkFld 30 30 (bit01 s.resetTo) + mkFld 15 8 s.penalty + mkFld 7 0 s.overhead)
  else if off = 0x48 then some (mkFld 47 24 s.alloc + mkFld 23 0 s.limit)
  else if off = 0x50 then some (mkFld 23 0 s.burst)
  else if off = 0x58 then some (mkFld 47 32 (min 0xFFFF s.queue.length) + wholeBytes now.peak)
  else if off = 0x60 then some (wholeBytes now.committed)
  else none

end Sys2Proof.Machine
end

