-- ==== Sys2Proof/Machine/Bring.lean ====
section
/-!
DEFINITION. The bring-up sequencer: the warm reset, and each phase but Clocking's register load, to Ready (R92 to R124).
-/
namespace Sys2Proof.Machine

def bringPage : Nat := 0x330

def setBoot (b : Boot) (h : Hub) : Hub := { h with boot := b }

/- ### Warm reset: Quiescing (R93, R107) -/

/-- R107 step 3: an invalidating snoop for a filter entry; a line in use waits its turn. -/
def quiesceSnoop (line : Nat) (h : Hub) : Hub :=
  let q := newReq h
  let r : Req := { id := q.1, src := .backSnoop, frame := {}, off := 128 * line }
  if lineBusy line q.2 || waitsBehind r q.2.coh.waiting then
    { q.2 with coh := { q.2.coh with waiting := q.2.coh.waiting ++ [r] } }
  else
    let s := snoopLine r line ([], q.2)
    if s.1 = [] then s.2
    else { s.2 with coh := { s.2.coh with txs := s.2.coh.txs ++ [⟨r, [line], s.1, .snoops, false, false, false⟩] } }

/-- R107 step 1: requests that have not reached the store are not admitted; CXL.mem requests among them complete with
poison. -/
def quiesceWaiting (h : Hub) : Hub :=
  let l := h.stu.waiting ++ (h.shapers.map (fun e => e.2.queue)).flatten
  let h1 := { h with stu := { h.stu with waiting := [] },
                     shapers := h.shapers.map (fun e => (e.1, { e.2 with queue := [], slot := none })) }
  l.foldl (fun x r => match r.src with | .cxl _ _ _ _ => withdrawn r x | _ => x) h1

/-- R93, R107, R602: entry to Quiescing; the sequencer stands as entered. -/
def warmEnter (h : Hub) : Hub :=
  let h1 := setBoot { h.boot with phase := .quiescing, warm := true, kind := 2, lost := false, startedAt := h.clock } h
  let h2 := drainQuiesce 1 (drainQuiesce 0 (quiesceWaiting (fittingAbandon h1)))
  let h3 : Hub := { h2 with twin := { h2.twin with inPairWarm := decide (h2.twin.st = TwinMode.joined) } }
  setBoot h1.boot ((h3.coh.filter.map (·.1)).foldl (fun x l => quiesceSnoop l x) h3)

/-- R93, R117: BRINGUP_CTRL.WARM. A joined pair resets as one (R602). -/
def warmRequest (h : Hub) : Hub :=
  if h.boot.phase = .ready ∧ h.ras.fence ≠ .fatal then
    let h1 := warmEnter h
    if h1.twin.st = .joined then bridgeOne 0x63 [ctrlWarm] h1 else h1
  else raise bringPage 27 h

/-- R109: registers a warm reset keeps; the VAUX3 domain is untouched (R92). -/
def keptWarm (e : Nat × Word) : Bool :=
  let page := e.1 / 4096
  page == armPage || page == secPage || persistentKey e.1 ||
  (warmExempt page && !(decide (0x800 ≤ e.1 % 4096 ∧ e.1 % 4096 < 0xA00))) ||
  e.1 == regKey bringPage 0x50 || e.1 == regKey twinPage 0x40 || e.1 == regKey 0 0x50

/-- R109, R198: what the warm reset clears, and what it keeps. -/
def warmClear (h : Hub) : Hub :=
  let h1 := tierSettle h
  let h2 := { h1 with
    regs := h1.regs.filter keptWarm
    kibSpare := h1.kibSpare.filter (fun e => persistentKey e.1)
    mirror := {}, outstanding := [], relays := []
    ras := { h1.ras with lastUe := 0, injection := none, banks := [] }
    fitting := { h1.fitting with sites := [], good := 0 }
    tier := { tiles := h1.tier.tiles, allVoid := h1.tier.allVoid, ageQ := h1.tier.ageQ, slots := h1.tier.slots,
              granules := h1.tier.granules, firstUsable := h1.tier.firstUsable, excluded := h1.tier.excluded }
    mem := h1.mem.filter (fun c => decide (c.1 < windowBase))
    poison := h1.poison.filter (fun k => decide (64 * k < windowBase)) }
  h2 |> stuReset |> cohReset |> cursorReset |> cloakReset true |> embReset |> scuReset |> pouReset |> meterReset false
    |> shapeReset |> coresReset |> portsReset |> clearIde 0 |> clearIde 1

/-- Quiescing ends: the hub is reset, and the sequencer enters Ledger. -/
def warmReset (h : Hub) : Hub :=
  let h1 := warmClear h
  setBoot { h1.boot with phase := .ledger, coreTested := false } h1

/-- R107: the steps are complete: no transaction, no filter entry, and every modified line written back. -/
def quiesceDone (h : Hub) : Hub :=
  if h.boot.phase = .quiescing ∧ h.coh.txs = [] ∧ h.coh.waiting = [] ∧ h.coh.filter = [] then
    warmReset ((dedup (h.coh.t0.map (fun e => e.1 / 512))).foldl (fun x t => writeBackTile t x) h)
  else h

/-- R107: 30 ms after the request: modified lines not written back are poisoned, those that agents own among them. -/
def quiesceTimeout (h : Hub) : Hub :=
  if h.boot.phase = .quiescing ∧ h.boot.startedAt + 30000000 ≤ h.clock then
    let dirty := (h.coh.t0.filter (fun e => e.2 == .dirty)).map (·.1)
    let owned := (h.coh.filter.filter (fun e => e.2.owner.isSome)).map (·.1)
    raise bringPage 24 (warmReset ((dirty ++ owned).foldl (fun x l => poisonLine l x) h))
  else h

/- ### Ledger (R95, R113, R570, R578) -/

/-- R52, R113, R599: DEV_MODULE_ID from the stored ID. -/
def adoptId (h : Hub) : Hub :=
  match h.armoire.moduleId with
  | none => putReg 0 0x50 0 h
  | some id => putReg 0 0x50 (w64 (id + mkFld 31 31 (bit01 (!h.twin.en || h.twin.st == .joined)))) h

/-- R95: Failed: ring paths in bypass, CXL ports not trained. -/
def bringFail (bit : Nat) (h : Hub) : Hub :=
  let down (c : CxlPort) : CxlPort := { c with up := false, width := 0, rate := 0 }
  let h1 := setBoot { h.boot with phase := .failed } h
  raise bringPage bit (closePaths { h1 with cxl0 := down h1.cxl0, cxl1 := down h1.cxl1 })

/-- Ledger ends: whether identity or defect map is unreadable, whether a copy was rewritten, and the staged bundle's CRC. -/
def ledgerDone (unreadable copyBad stagedOk : Bool) (h : Hub) : Hub :=
  if h.boot.phase ≠ .ledger then h
  else
    let h0 := if copyBad then raise armPage 17 h else h
    if unreadable then bringFail 16 h0
    else
      let h1 := { h0 with armoire := { h0.armoire with staged := h0.armoire.staged.map (fun b => { b with crcOk := stagedOk }) } }
      let h2 := loadFitting (adoptId (applyStaged h1))
      let h3 := if h2.boot.warm then count bringPage 1 1 h2 else count bringPage 0 1 (counterRestore h2)
      setBoot { h3.boot with phase := .clocking } h3

/- ### Clocking (R95, R105, R112, R578), but for the register load -/

/-- R112, R120: a staged profile that may be taken. -/
def profileOk (pool op : Nat) (h : Hub) : Bool := decide (pool < 2 ∧ op < 4) && h.fitting.permit.testBit op

/-- R112: the profile of this bring-up. -/
def takeProfile (h : Hub) : Hub :=
  if h.boot.warm then
    let v := getReg bringPage 0x50 h
    if profileOk (fld v 5 4) (fld v 3 0) h then setBoot { h.boot with pool := fld v 5 4, oppoint := fld v 3 0 } h
    else raise bringPage 26 h
  else
    let (pool, op) := bundleProfile h
    setBoot { h.boot with pool := pool, oppoint := op } (putReg bringPage 0x50 (w64 (mkFld 5 4 pool + mkFld 3 0 op)) h)

/-- R165: slots of K stacks, of 80 GB each. -/
def slotsOf (k : Nat) : Nat := (k * 80000000000 - 4294967296) / 65680

/-- Stacks that the defect map lists (R103). -/
def stacksOut (h : Hub) : Nat :=
  h.armoire.defect.foldl (fun m w => if fld w 63 60 = 6 ∧ !m.testBit (fld w 2 0) then m + 2 ^ fld w 2 0 else m) 0

/-- R102, R104: the store cache ways that the defect map lists, by slice. -/
def loadWays (h : Hub) : Hub :=
  let t := h.armoire.defect.foldl (fun (t : Tab (List Nat)) w =>
    if fld w 63 60 = 2 then Tab.modify t (fld w 3 0) [] (fun l => insertNat l (fld w 8 4)) else t) []
  { h with coh := { h.coh with waysBad := t } }

/-- R102, R105: logical cores without a physical core are fenced. -/
def fenceUnmapped (h : Hub) : Hub :=
  (List.range 64).foldl (fun x k =>
    if nth x.boot.coreMap k 0xFF = 0xFF then putCore k { getCore k x with st := .fenced } x else x) h

/-- R575: the CXL clock modes of the active bundle. -/
def loadClockModes (h : Hub) : Hub :=
  let v := match (activeBundle h).bind (findRec 5) with | some r => leAt r.body 0 4 | none => 0
  { h with cxl0 := { h.cxl0 with sris := v.testBit 0 }, cxl1 := { h.cxl1 with sris := v.testBit 1 } }

/-- Clocking before the register load. A cold path sizes T1 by the stacks the defect map leaves, until Testing has
trained them. -/
def clockingStart (h : Hub) : Hub :=
  let h1 := if h.boot.warm then h
    else { loadClockModes h with tier := { h.tier with slots := slotsOf (8 - setBits (stacksOut h) 8) } }
  let h2 := loadWays (loadLanes (renumber (takeProfile h1)))
  let h3 := loadProfile (decide (h2.boot.pool = 1)) (if h2.boot.warm then fenceUnmapped h2 else h2)
  setBoot { h3.boot with loading := true } (vcoreStart h3)

/-- R610: TWIN_CFG is taken at a cold reset; while EN = 1 and the pair is not Joined, VALID reads 0 (R599). -/
def takeTwinCfg (h : Hub) : Hub :=
  let v := getReg twinPage 0x40 h
  adoptId { h with twin := { h.twin with cfg := v, en := bitOf v 31, role := bit01 (bitOf v 30) } }

/-- Clocking after the register load. -/
def clockingEnd (h : Hub) : Hub :=
  let h1 := setBoot { h.boot with loading := false } h
  if h1.boot.warm then setBoot { h1.boot with phase := .restoring } h1
  else
    let h2 := takeTwinCfg h1
    setBoot { h2.boot with phase := .testing, coreTested := false } h2

/- ### Testing (R96, R102, R105) -/

/-- R102, R105: core self-test ends; the cores named failed. -/
def coreSelfTestDone (failed : List Nat) (h : Hub) : Hub :=
  if h.boot.phase ≠ .testing ∨ h.boot.coreTested then h
  else
    let h1 := renumber ((failed.filter (fun p => decide (p < 72))).foldl (fun x p => defectNote 1 1 p x) h)
    let h2 := fenceUnmapped (setBoot { h1.boot with coreTested := true } h1)
    if (goodCores h2.armoire.defect).length < 64 then raise bringPage 18 h2 else h2

/-- R102: one channel's outcome. -/
def ddrOutcome (r : DdrReport) (h : Hub) : Hub :=
  if 16 ≤ r.channel ∨ r.dimms = 0 then h
  else
    let h1 := setBoot { h.boot with ddr := Tab.set h.boot.ddr r.channel r } h
    if !r.rulesOk then raise bringPage 21 h1
    else if !r.trained then raise bringPage 20 h1
    else setBoot { h1.boot with ddrOk := h1.boot.ddrOk + (if h1.boot.ddrOk.testBit r.channel then 0 else 2 ^ r.channel) } h1

/-- R166: bytes of the smallest channel that builds T2 space. -/
def channelBytes (h : Hub) : Nat :=
  let l := (h.boot.ddr.filter (fun e => h.boot.ddrOk.testBit e.1)).map (fun e => e.2.dimms * e.2.dimmGb * 1000000000)
  match l with
  | [] => 0
  | a :: as => as.foldl min a

/-- R165 to R167: T1 and T2 space from the stacks and channels in service. -/
def sizeTiers (slotsLost : Nat) (granulesLost : List Nat) (h : Hub) : Hub :=
  let g := setBits h.boot.ddrOk 16 * channelBytes h / 1024
  { h with tier := { h.tier with
      slots := slotsOf (setBits h.boot.hbmOk 8) - slotsLost, granules := g, firstUsable := ceilDiv g 8192
      excluded := insertNats [] granulesLost } }

/-- R102: more than 8 ways of one slice out of service, or a bad switch buffer bank. -/
def arrayFatal (r : TestReport) (h : Hub) : Bool :=
  r.bankFailed || (List.range 16).any (fun s => decide (8 < (Tab.getD h.coh.waysBad s []).length))

/-- R102: the tests' findings enter the defect map. -/
def testEntries (r : TestReport) (h : Hub) : Hub :=
  let h1 := r.waysFailed.foldl (fun x w => defectNote 2 1 (w.1 % 16 + 16 * (w.2 % 32)) x) h
  loadWays (r.rowsFailed.foldl (fun x e => if e.1 = 4 ∨ e.1 = 5 then defectNote e.1 1 e.2 x else x) h1)

/- ### Ready -/

/-- R118. -/
def bringStatus (h : Hub) : Nat :=
  mkFld 9 9 (bit01 h.boot.degraded) + mkFld 8 8 (bit01 h.armoire.memTrained) + mkFld 5 4 h.boot.lastKind + phaseCode h.boot.phase

/-- R119. -/
def bringUnits (h : Hub) : Nat :=
  mkFld 58 52 (coresGood h) + mkFld 51 44 h.boot.hbmOk + mkFld 43 28 h.boot.ddrOk + mkFld 27 0 (portOkBits h)

/-- R115: the join enables, where VALID = 1. -/
def loadJoin (h : Hub) : Hub := if moduleValid h then (let j := bundleJoin h; setJoinEn j.1 j.2 h) else h

/-- The phase reaches Ready; the sequencer stands as entered. -/
def goReady (h : Hub) : Hub :=
  let b := h.boot
  let cold := !b.warm
  let h1 := setBoot { b with
    phase := .ready, warm := false, elapsedUs := (h.clock - b.startedAt) / 1000
    lastKind := if b.warm then (if b.lost then 3 else 2) else b.kind } h
  let h2 := drainOwed 1 (drainOwed 0 (leaseTableZero h1))
  let h3 := setBoot h1.boot (if cold then twinReady (loadJoin h2) else { h2 with twin := { h2.twin with hbAt := h2.clock } })
  logEvent (if cold then 0x01 else 0x02)
    (bytesLE 4 (bringStatus h3) ++ bytesLE 8 (bringUnits h3) ++ bytesLE 4 h3.boot.elapsedUs) h3

/-- R95, R102: the tests and training of the cold path end. -/
def testingDone (r : TestReport) (h : Hub) : Hub :=
  if h.boot.phase ≠ .testing ∨ !h.boot.coreTested then h
  else
    let h1 := testEntries r h
    if arrayFatal r h1 then bringFail 17 h1
    else
      let out := stacksOut h1
      let bad (k : Nat) : Bool := r.hbmFailed.contains k
      let hbm := ((List.range 8).map (fun k => if out.testBit k || bad k then 0 else 2 ^ k)).sum
      let h2 := setBoot { h1.boot with hbmOk := hbm, ddrOk := 0, ddr := [], watermark := 0, t2Done := false } h1
      let h3 := if (List.range 8).any bad then raise bringPage 19 h2 else h2
      let h4 := reloadLimits (decide (h3.boot.pool = 1)) h3.tier.slots
        (sizeTiers r.slotsLost r.granulesLost (r.ddr.foldl (fun x d => ddrOutcome d x) h3))
      let worse := decide (hbm ≠ 255) || h4.boot.ddr.any (fun e => !h4.boot.ddrOk.testBit e.1) ||
        decide (coresGood h4 < 72) || h4.coh.waysBad != []
      let h5 := setBoot { h4.boot with degraded := worse } { h4 with armoire := { h4.armoire with memTrained := true } }
      goReady (armTouch 6 h5)

/-- R108: the warm path ends; memory that had to train in full has lost its contents. -/
def restoringDone (lostHbm lostDdr : Bool) (h : Hub) : Hub :=
  if h.boot.phase ≠ .restoring then h
  else
    let h1 := if lostHbm then tierLoseT1 h else if lostDdr then tierLoseT2 h else h
    let lost := lostHbm || lostDdr
    let h2 := setBoot { h1.boot with lost := lost, degraded := h1.boot.degraded || lost } h1
    goReady (if lost then raise bringPage 25 h2 else h2)

/-- R97: zero-fill of every populated channel is complete. -/
def t2InitDone (h : Hub) : Hub :=
  if h.boot.phase = .ready ∧ !h.boot.t2Done then
    setBoot { h.boot with t2Done := true, watermark := channelBytes h / 1048576 } h
  else h

/-- R97: the fill's progress in one TB tick, which the spec does not state: 0 or 1 MiB. -/
def t2Tick (h : Hub) : Hub :=
  if h.boot.phase = .ready ∧ !h.boot.t2Done ∧ h.boot.watermark < channelBytes h / 1048576 then
    (let (w, h1) := fresh h
     setBoot { h1.boot with watermark := h1.boot.watermark + w.toNat % 2 } h1)
  else h

/-- R118 to R122. -/
def bringView (off : Nat) (h : Hub) : Option Nat :=
  let b := h.boot
  let act := mkFld 5 4 b.pool + mkFld 3 0 b.oppoint
  match off with
  | 0x44 => some (bringStatus h)
  | 0x48 => some (bringUnits h)
  | 0x50 =>
    let v := (getReg bringPage 0x50 h).toNat % 64
    some (v + mkFld 31 31 (bit01 (decide (v ≠ act))))
  | 0x54 => some act
  | 0x58 => some (mkFld 63 63 (bit01 b.t2Done) + mkFld 31 0 b.watermark)
  | 0x60 => some b.elapsedUs
  | _ => none

end Sys2Proof.Machine
end

