-- ==== Sys2Proof/Machine/Units.lean ====
section
/-!
DEFINITION. Requests to the module's units other than STORE and REG (R249, R261, R355, R416, R444, R475, R506, R517), over
the whole machine, and the ADVANCE and PIGEON descriptors of core DMA (R348).
-/
namespace Sys2Proof.Machine

/-- R249, R264: a completion made by the switch core. -/
def switchAnswer (f : Frame) (status : Nat) (poison : Bool) (data : List Byte) (h : Hub) : Hub :=
  sendFrame { completionOf f status 0 0 poison data h with srcModule := moduleId h, srcUnit := 0x8A } h

/-- R264: bytes of data that a TARGET_DEAD completion of this request carries. -/
def deadBytes (f : Frame) : Nat :=
  if f.opcode = 0x01 ∨ f.opcode = 0x08 then f.len
  else if f.opcode = 0x04 ∧ atomicReturns f.aux = true then (if f.aux.testBit 8 then 8 else 4)
  else if f.opcode = 0x50 ∨ f.opcode = 0x51 then 128
  else 0

/-- R264, R275, R560: a request completes TARGET_DEAD at once, with the poison pattern where it returns data. -/
def deadAnswer (f : Frame) (h : Hub) : Hub :=
  count 0x40 3 1 (switchAnswer f stTargetDead (0 < deadBytes f) (poisonPattern (deadBytes f)) h)

/-- R249: a request with nowhere to go: NO_ROUTE from unit 0x8A, or a posted frame dropped and counted. -/
def noRoute (sp : Nat) (f : Frame) (h : Hub) : Hub :=
  if f.posted then raise 0x348 23 (count 0x348 18 1 (dropFrame sp false .noRoute f h))
  else switchAnswer f stNoRoute false [] (dropFrame sp false .noRoute f h)

/-- R250, R256: a malformed request; a posted one is dropped. -/
def refuseForm (f : Frame) (status detail : Nat) (h : Hub) : Hub :=
  if f.posted then h else sendFrame (completionOf f status detail 0 false [] h) h

/-- R604: the member of a pair that serves requests to a unit; none where the request's address decides. -/
def unitMember (u : Nat) : Option Nat :=
  if u < 0x40 then some 0 else if u < 0x80 then some 1
  else if 0x82 ≤ u ∧ u ≤ 0x87 then some 0 else none

/-- R604, R605: a unit of the other member. -/
def unitElsewhere (u : Nat) (h : Hub) : Bool :=
  pairJoined h && (match unitMember u with | some m => m != h.twin.role | none => false)

/-- The logical core of this member that a unit number names. -/
def coreOfUnit (u : Nat) (h : Hub) : Nat := if pairJoined h && h.twin.role == 1 then u - 64 else u

/-- R613: a request whose control payload is poisoned. -/
def poisonedControl (f : Frame) : Bool := payloadPoison f

/-- R261: a CURSOR_ADVANCE frame. -/
def cursorFrame (f : Frame) (h : Hub) : Hub :=
  let r := advance (w64 (ofBytesLE f.payload)) (.frame f.srcModule f.srcUnit f.tenant) h
  let h1 := emuDrain r.2
  if r.1 = advOk then sendFrame (completionOf f stOk 0 0 false [] h1) h1
  else
    let h2 := if r.1 = advDenied then meterAdd f.tenant 7 1 h1 else h1
    sendFrame (completionOf f stUnit r.1 0 false [] h2) h2

/-- R355: a WORK frame at a logical core. -/
def coreFrame (f : Frame) (h : Hub) : Hub :=
  let r := coreWork (coreOfUnit f.dstUnit h) f h
  sendFrame (completionOf f r.1.1 r.1.2 0 false [] r.2) r.2

/-- R444, R460: a WORK frame at unit 0x84. -/
def emuFrame (f : Frame) (h : Hub) : Hub :=
  let op := nbits f.aux 7 0
  if op = 1 ∨ op = 2 ∨ op = 3 then emuRequest f h
  else if op = 0x20 then cutoverRecv f h
  else cloakAnswer f stBadRequest 0 0 0 0 h

/-- A WORK frame at its unit. -/
def workFrame (port : Nat) (f : Frame) (h : Hub) : Hub :=
  if f.dstUnit < 0x80 then coreFrame f h
  else if f.dstUnit = 0x83 then cloakFrame port f h
  else if f.dstUnit = 0x84 then emuFrame f h
  else if f.dstUnit = 0x85 then scuRequest f h
  else if f.dstUnit = 0x86 then pouFrame (ringTrusted port f h) f h
  else refuseForm f stBadRequest 0 h

/-- R250, R517: the form of a request to a unit, checked on arrival. -/
def unitFormOk (f : Frame) : Bool :=
  let lenIs := f.payload.length == f.len
  if f.posted then false
  else if f.opcode = 0x10 then f.dstUnit == 0x82 && f.len == 8 && lenIs
  else if f.opcode = 0x11 then (decide (f.dstUnit < 0x80) || decide (0x83 ≤ f.dstUnit ∧ f.dstUnit ≤ 0x86)) && lenIs
  else if f.opcode = 0x12 then f.dstUnit == 0x87 && pigeonFormOk f
  else false

/-- A unit's request that its shaper admitted: the other member's crosses the bridge; a poisoned control payload is
refused (R613). -/
def deliverUnit (r : Req) (s : State) : State :=
  let f := r.frame
  if unitElsewhere f.dstUnit s.hub then onHub (sendBridge raise f) s
  else if poisonedControl f then onHub (refuseForm f stBadRequest 0xFF) s
  else if f.opcode = 0x12 then pigeonFrame f s
  else if f.opcode = 0x10 then onHub (cursorFrame f) s
  else onHub (workFrame (sourcePort r) f) s

/-- A request of a shaper goes to its target. -/
def deliverAny (r : Req) (s : State) : State :=
  match r.src with
  | .frame _ =>
    if r.frame.opcode = 0x10 ∨ r.frame.opcode = 0x11 ∨ r.frame.opcode = 0x12 then deliverUnit r s else onHub (deliverStore r) s
  | _ => onHub (deliverStore r) s

/-- Requests that leave shapers, in order. -/
def deliverList (rs : List Req) (s : State) : State := rs.foldl (fun x r => deliverAny r x) s

/-- Run a change of the hub that lets requests leave their shapers. -/
def onShapers (f : Hub → List Req × Hub) (s : State) : State := deliverList (f s.hub).1 { s with hub := (f s.hub).2 }

/-- R529: a request to a unit arrives: form, shaper, unit. -/
def unitArrive (port : Nat) (f : Frame) (s : State) : State :=
  let q := newReq s.hub
  let s1 : State := { s with hub := q.2 }
  if !unitFormOk f then onHub (refuseForm f stBadRequest 0) s1
  else onShapers (shapeIn { id := q.1, src := .frame port, frame := f }) s1

/-- R533: wheel slots that have come due. -/
def wheelStep (s : State) : State := onShapers wheelDue s

/- ### Core DMA: ADVANCE and PIGEON (R348, R349) -/

/-- The frame of an ADVANCE or PIGEON descriptor. -/
def dmaCtlFrame (k opcode unit : Nat) (d : DmaDesc) (x : Ctx) (h : Hub) : Frame :=
  { dmaFrame k d x opcode d.addr 8 0 0 0 (bytesLE 8 d.operand) false with
    dstModule := nbits d.addr 55 46, dstUnit := unit, srcModule := moduleId h, srcUnit := coreUnit k h,
    scarry := scarryOf (bytesLE 8 d.operand) }

/-- The descriptor's frame goes to another module, or across the bridge to the other member. -/
def dmaCtlSend (k q : Nat) (e : EngCmd) (d : DmaDesc) (f : Frame) (h : Hub) : Hub :=
  let p : Purpose := .dmaCtl k e.ctx q e.n d.sp
  if f.dstModule = moduleId h then
    let t := allocTag h
    let f1 := { f with tag := t.1, issueTime := h.devTime % 2 ^ 48 }
    putCmd k (dmaQueue q) { e with started := true, waits := 1 }
      (sendBridge raise f1 { t.2 with outstanding := t.2.outstanding ++ [⟨f1, h.devTime, p⟩] })
  else
    match issueRemote { f with srcUnit := k } p h with
    | .ok h1 => putCmd k (dmaQueue q) { e with started := true, waits := 1 } h1
    | .error st => dmaFault k q e (dmaFaultOf st 0).1 (dmaFaultOf st 0).2 d.addr h

/-- The answer of a unit of this member to a descriptor's frame. -/
def dmaCtlLocal (k q : Nat) (e : EngCmd) (d : DmaDesc) (status detail : Nat) (h : Hub) : Hub :=
  if status = stOk then putCmd k (dmaQueue q) { e with started := true } h
  else dmaFault k q e (dmaFaultOf status detail).1 (dmaFaultOf status detail).2 d.addr h

/-- An ADVANCE descriptor at its queue's head. -/
def dmaAdvance (k q : Nat) (h1 : Hub) : Hub :=
  let h := dmaLook k q h1
  match dmaHead k q 4 h with
  | .none => h1
  | .fault e c t a => dmaFault k q e c t a h
  | .desc e d =>
    let x := getCtx k e.ctx h
    let f := dmaCtlFrame k 0x10 0x82 d x h
    if f.dstModule = moduleId h && !unitElsewhere 0x82 h then
      let r := advance (w64 d.operand) (.frame (moduleId h) (coreUnit k h) x.tenant) h
      dmaCtlLocal k q e d (if r.1 = advOk then stOk else stUnit) r.1 (emuDrain r.2)
    else dmaCtlSend k q e d f h

/-- A PIGEON descriptor at its queue's head. -/
def dmaPigeon (k q : Nat) (s0 : State) : State :=
  let s := onHub (dmaLook k q) s0
  match dmaHead k q 5 s.hub with
  | .none => s0
  | .fault e c t a => onHub (dmaFault k q e c t a) s
  | .desc e d =>
    let x := getCtx k e.ctx s.hub
    let f := dmaCtlFrame k 0x12 0x87 d x s.hub
    if f.dstModule = moduleId s.hub && !unitElsewhere 0x87 s.hub then
      if !pigeonFormOk f then onHub (dmaCtlLocal k q e d stBadRequest 0) s
      else
        let r := pigeonTake f s
        onHub (dmaCtlLocal k q e d r.1.1 0) r.2
    else onHub (dmaCtlSend k q e d f) s

end Sys2Proof.Machine
end

