-- ==== Sys2Proof/Machine/RegRead.lean ====
section
/-!
DEFINITION. What a register reads (R25 to R29, R31 to R39, R43, R53, R111, R560, R605, R606): the common header, counters,
and each block's registers, stored or shown from the state.
-/
namespace Sys2Proof.Machine

/-- R41: the fabric manager. -/
def isFm : Requester → Bool
  | .sideband | .fm _ => true
  | .ld _ _ | .agent _ _ _ => false

/-- R157, R159: what the STU pages show. -/
def stuView (sub off : Nat) (h : Hub) : Option Nat :=
  match sub, off with
  | 0, 0x50 => some (match h.stu.faults with | f :: _ => f.w0.toNat | [] => 0)
  | 0, 0x58 => some (match h.stu.faults with | f :: _ => f.w1.toNat | [] => 0)
  | 0, 0x60 => some (mkFld 20 16 h.stu.faults.length)
  | 1, 0x50 => some (mkFld 52 48 h.stu.invs.length + mkFld 31 16 h.stu.issuedSeq + mkFld 15 0 h.stu.doneSeq)
  | _, _ => none

/-- R294. -/
def mirrorView (off : Nat) (h : Hub) : Option Nat :=
  if off = 0x58 then
    some (mkFld 63 63 (bit01 h.mirror.wrapped) + mkFld 62 62 (bit01 h.mirror.full) + mkFld 25 0 h.mirror.next)
  else none

/-- R48, DEV_SERIAL. -/
def devView (off : Nat) (h : Hub) : Option Nat := if off = 0x48 then some h.armoire.serial else none

/-- R245, R606: TIME_CFG; member 1's MASTER reads 0. -/
def timeRegView (off : Nat) (h : Hub) : Option Nat :=
  if off = 0x48 then some (bit01 (regBit timePage 0x48 0 h) + (if masterEn h then 2 else 0)) else timeView off h

def pure1 (v : Option Nat) (s : State) : Option (Nat × State) := v.map (fun x => (x, s))

/-- A register that a block shows from its state; none: the stored value. -/
def blockView (p : PageInfo) (page off : Nat) (s : State) : Option (Nat × State) :=
  let h := s.hub
  match p.blk with
  | .dev => pure1 (devView off h) s
  | .time => pure1 (timeRegView off h) s
  | .port => pure1 (portView p.inst off h) s
  | .cxlp => pure1 (cxlView p.inst off h) s
  | .switch => pure1 (switchView p.sub off h) s
  | .mirror => pure1 (mirrorView off h) s
  | .scache => pure1 (scacheView p.inst off h) s
  | .coh => (cohView off h).map (fun r => (r.1, { s with hub := r.2 }))
  | .hbmc => pure1 (hbmcView p.inst off h) s
  | .ddrc => pure1 (ddrcView p.inst off h) s
  | .tier => pure1 (tierView off h) s
  | .codec => none
  | .stu => pure1 (stuView p.sub off h) s
  | .cursor => pure1 (cursorView off h) s
  | .cloak => pure1 (cloakView off h) s
  | .emb => pure1 (embView off h) s
  | .search => (scuView off h).map (fun r => (r.1, { s with hub := r.2 }))
  | .pool => pure1 (pouView off h) s
  | .shape => pure1 (shapeView off h) s
  | .meter => pure1 (meterView off h) s
  | .pigeonCtl | .pigeonhole => pure1 (pigeonView page off s) s
  | .core => pure1 (coreView p.inst off h) s
  | .bench => pure1 (benchView p.inst off h) s
  | .ras => pure1 (rasView off h) s
  | .armoire => pure1 (armoireView off h) s
  | .fitting => pure1 (fittingView off h) s
  | .sec => pure1 (secView off h) s
  | .bringup => pure1 (bringView off h) s
  | .defect => pure1 (defectView off h) s
  | .twin => pure1 (twinView off h) s
  | .ring => pure1 (ringView off h) s

/-- R31 to R35: the header registers that are not stored. Block major version 1, minor 0, and CAPS.BLOCK 0 on every page
(the spec gives none). -/
def headerView (p : PageInfo) (page off : Nat) (h : Hub) : Option Nat :=
  match off with
  | 0x00 => some (mkFld 31 24 1 + mkFld 23 16 p.typ + mkFld 15 8 p.inst + mkFld 7 0 p.sub)
  | 0x04 => some (mkFld 31 24 1 + 1)
  | 0x08 => some (mkFld 10 10 1 + mkFld 9 9 1 + mkFld 8 0 (counterSlots p))
  | 0x14 => some (statusReg page h)
  | _ => none

/-- The whole value of the register that begins at roff. -/
def regValue (p : PageInfo) (page roff : Nat) (s : State) : Nat × State :=
  let stored := (getReg page roff s.hub).toNat
  if roff < 0x40 then ((headerView p page roff s.hub).getD stored, s)
  else
    match blockView p page roff s with
    | some r => r
    | none => (stored, s)

/-- R48, R26: a counter slot; a CCLK counter is a free value. -/
def slotValue (p : PageInfo) (page slot : Nat) (s : State) : Nat × State :=
  if counterClass p slot = 0 then (0, s)
  else if isCycleCounter p slot then
    (let f := fresh s.hub
     (if counterClass p slot = 1 then f.1.toNat % 2 ^ 48 else f.1.toNat, { s with hub := f.2 }))
  else ((getReg page (0x800 + 8 * slot) s.hub).toNat, s)

/-- Four bytes at an offset that is a multiple of 4. -/
def read4 (p : PageInfo) (page off : Nat) (s : State) : Nat × State :=
  let half (r : Nat × State) (byte : Nat) : Nat × State := (r.1 / 2 ^ (8 * byte) % 2 ^ 32, r.2)
  if 0x800 ≤ off then half (slotValue p page ((off - 0x800) / 8) s) (off % 8)
  else
    match regAt p off with
    | none => (0, s)
    | some hit => half (regValue p page (off - hit.byte) s) hit.byte

/-- R29: eight bytes: one register's value, or two registers of four bytes. -/
def read8 (p : PageInfo) (page off : Nat) (s : State) : Nat × State :=
  let two : Nat × State :=
    let a := read4 p page off s
    let b := read4 p page (off + 4) a.2
    (a.1 + 2 ^ 32 * b.1, b.2)
  if 0x800 ≤ off then slotValue p page ((off - 0x800) / 8) s
  else
    match regAt p off with
    | some hit => if hit.reg.width = 8 then regValue p page (off - hit.byte) s else two
    | none => two

/-- R111: pages that read all-ones, and are not written, while the module is not Ready. -/
def hiddenPage (page : Nat) (h : Hub) : Bool :=
  match h.boot.phase with
  | .ready => false
  | .held => true
  | ph => !(page == 0 || page == bringPage || ((page == 0x30 || page == 0x31) && (h.boot.warm || (ph == .testing || ph == .failed))))

/-- R560: pages that a fenced module still shows. -/
def fenceHides (page : Nat) (h : Hub) : Bool :=
  h.ras.fence != .serving && !(page == 0 || page == rasPage || page == bringPage)

/-- R27. -/
def accessOk (off size : Nat) : Bool := (size == 4 && off % 4 == 0) || (size == 8 && off % 8 == 0)

def allOnes (size : Nat) : Nat := 2 ^ (8 * size) - 1

/-- R53: the requester's fields. The FM-owned logical device has no number among the 16; it is recorded as 0. -/
def denyBits : Requester → Nat
  | .sideband => 0
  | .fm p => mkFld 2 2 p + 1
  | .ld p n => mkFld 7 4 n + mkFld 2 2 p + 1
  | .agent m u _ => mkFld 25 18 u + mkFld 17 8 m + 2

/-- R42, R53, R27: a refused (`bad` false) or malformed access. -/
def noteDeny (r : Requester) (page off : Nat) (bad : Bool) (h : Hub) : Hub :=
  let h1 := putReg 0 0x58 (w64 (mkFld 50 38 page + mkFld 37 26 off + denyBits r + mkFld 3 3 (bit01 bad))) h
  raise page (if bad then 0 else 1) h1

/-- R606: whose page it is: this member's own page number, the other member's, or a page that does not exist. -/
inductive PageHome | mine (page : Nat) | other | nowhere
  deriving DecidableEq, Repr

def pageHome (page : Nat) (h : Hub) : PageHome :=
  if pairJoined h then
    (if 2 ≤ page / 0x1000 then .nowhere else if page / 0x1000 = h.twin.role then .mine (page % 0x1000) else .other)
  else if page < 0x1000 then .mine page
  else .nowhere

/-- R605: pages of member 1 whose units serve the pair at member 0. -/
def pairBlank (p : PageInfo) (h : Hub) : Bool :=
  pairJoined h && h.twin.role == 1 &&
  match p.blk with | .cursor | .cloak | .emb | .search | .pigeonCtl | .pigeonhole => true | _ => false

/-- R43: may this requester read the page? -/
def mayRead (r : Requester) (page : Nat) (h : Hub) : Bool := isFm r || page == 0 || page == timePage || ownerAllows page r h

/-- R25, R27, R43, R111, R560, R606: a register read. The other member's registers are read over the bridge; what they
hold is a free value here. -/
def regRead (r : Requester) (page off size : Nat) (s : State) : Nat × State :=
  match pageHome page s.hub with
  | .nowhere => (0, s)
  | .other => let f := fresh s.hub; (f.1.toNat % 2 ^ (8 * size), { s with hub := f.2 })
  | .mine pg =>
    match pageInfo pg with
    | none => (0, s)
    | some p =>
      if hiddenPage pg s.hub then (allOnes size, s)
      else if !accessOk off size then (allOnes size, { s with hub := noteDeny r pg off true s.hub })
      else if fenceHides pg s.hub then (allOnes size, s)
      else if pairBlank p s.hub || !mayRead r pg s.hub then (0, s)
      else if size = 8 then read8 p pg off s
      else read4 p pg off s

end Sys2Proof.Machine
end

