-- ==== Sys2Proof/Machine/Access.lean ====
section
/-!
DEFINITION. What a register write does (R25 to R29, R34 to R49, R111, R605, R606, R614): the gate, the common header,
counter slots, and each block's registers.
-/
namespace Sys2Proof.Machine

/-! ### The header -/

/-- The writable fields of a stored register take the bits written; the others stay. -/
def storeFields (page roff : Nat) (d : RegDef) (v : Nat) (h : Hub) : Hub :=
  let m := w64 (masks d.rw)
  putReg page roff ((getReg page roff h &&& ~~~ m) ||| (w64 v &&& m)) h

/-- R47: bits written as 1 are cleared; where one was set, the page signals again if its signal condition is still 1. -/
def clearBits (page roff mask v : Nat) (h : Hub) : Hub :=
  let old := getReg page roff h
  let new := old &&& ~~~ (w64 v &&& w64 mask)
  let h1 := putReg page roff new h
  if new ≠ old ∧ sigCond page h1 then signalPage page h1 else h1

/-- R34, R48: every class 1 counter of the page is cleared. -/
def clearCounters (p : PageInfo) (page : Nat) (h : Hub) : Hub :=
  (List.range 24).foldl (fun x k => if counterClass p k = 1 then
    { putReg page (0x800 + 8 * k) 0 x with kibSpare := Tab.erase x.kibSpare (regKey page (0x800 + 8 * k)) } else x) h

/-- R34: what a change of ENABLE does to the block, as its chapter states. -/
def enableEffect (p : PageInfo) (page : Nat) (on : Bool) (s : State) : State :=
  match p.blk, on with
  | .port, false => onHub (portDisable p.inst) s
  | .mirror, true => onHub (fun h => { h with mirror := { h.mirror with next := 0, wrapped := false, full := false } }) s
  | .shape, true => onHub shapeOn s
  | .shape, false => onShapers shapeOff s
  | .tier, true => onHub tierRun s
  | .emb, true => if page = embPage then onHub emuResume s else s
  | .fitting, false => onHub fittingAbandon s
  | _, _ => s

/-- R34, R611: CTRL. While Clocking loads the bundle, ENABLE is stored and acts when the load ends (R578). -/
def ctrlWrite (p : PageInfo) (page v : Nat) (s : State) : State :=
  let before := regBit page 0x10 0 s.hub
  let h1 := putReg page 0x10 (w64 v &&& w64 (masks [(31, 16), (1, 0)])) s.hub
  let h2 := if v.testBit 2 then clearCounters p page h1 else h1
  let s1 : State := { s with hub := h2 }
  if s.hub.boot.loading || before == v.testBit 0 then s1 else enableEffect p page (v.testBit 0) s1

/-- R39: PARAM and BIT; with ARM, error BIT is reported at once. A BIT that names no error of the page reports none. -/
def errInjectWrite (p : PageInfo) (page v : Nat) (h : Hub) : Hub :=
  let h1 := putReg page 0x28 (w64 v &&& w64 (masks [(63, 32), (4, 0)])) h
  if v.testBit 8 && (errBits p ||| 0x1B).testBit (v % 32) then raiseInjected page (v % 32) h1 else h1

/-- R46, R606. -/
def irqRouteWrite (page v : Nat) (h : Hub) : Hub :=
  putReg page 0x30 (w64 v &&& w64 (masks ([(49, 32), (14, 8), (5, 0)] ++ (if h.twin.en then [(6, 6)] else [])))) h

/-- R40, R44, R606: the owner changes, and the page's routing enables clear. -/
def ownerWrite (page v : Nat) (h : Hub) : Hub :=
  let h1 := putReg page 0x38 (w64 v &&& w64 (masks ([(25, 4), (2, 0)] ++ (if h.twin.en then [(3, 3)] else [])))) h
  putReg page 0x30 (putFld (getReg page 0x30 h1) 14 13 0) h1

/-- R30: a write of a header register. -/
def headerWrite (p : PageInfo) (page roff v : Nat) (s : State) : State :=
  match roff with
  | 0x10 => ctrlWrite p page v s
  | 0x18 => onHub (clearBits page 0x18 (masks [(31, 16), (4, 0)]) v) s
  | 0x1C => onHub (withSignal page (putReg page 0x1C (w64 v &&& w64 (errBits p ||| 0x1F)))) s
  | 0x20 => onHub (fun h => putReg page 0x20 (getReg page 0x20 h &&& ~~~ (w64 v &&& w64 (maskOf 63 62))) h) s
  | 0x28 => onHub (errInjectWrite p page v) s
  | 0x30 => onHub (irqRouteWrite page v) s
  | 0x38 => onHub (ownerWrite page v) s
  | _ => s

/-! ### The blocks -/

/-- A register written only while its page is disabled; otherwise error `bit` of the page (R155, R285, R437, R462, R489). -/
def lockedWrite (page roff bit : Nat) (d : RegDef) (v : Nat) (h : Hub) : Hub :=
  if enabled page h then raise page bit h else storeFields page roff d v h

/-- R149, R158: STU_INV_CMD. -/
def invCmdWrite (v : Nat) (h : Hub) : Hub :=
  invQueue (v % 4) (nbits v 43 32) (nbits v 63 48) ((getReg 0xA1 0x40 h).toNat / 2 ^ 21 * 2 ^ 21) (max 1 (nbits v 31 16)) h

/-- R161: STU_PREWALK_CMD. -/
def prewalkCmdWrite (v : Nat) (h : Hub) : Hub :=
  let r := queuePrewalk (nbits v 43 32) (nbits v 63 48) ((getReg 0xA2 0x40 h).toNat / 2 ^ 21 * 2 ^ 21) (max 1 (nbits v 31 16)) h
  if r.1 then r.2 else raise 0xA2 16 r.2

/-- R157: POP of the STU's fault FIFO. -/
def stuFaultPop (h : Hub) : Hub := { h with stu := { h.stu with faults := h.stu.faults.drop 1 } }

/-- R462 and R463: EMB_TABLE_CMD. -/
def tableCmd (v : Nat) (h : Hub) : Hub :=
  if nbits v 31 30 = 1 then tableLoad (v % 256) h else if nbits v 31 30 = 2 then tableUnload (v % 256) h else h

/-- R490: SEARCH_INDEX_CMD. -/
def indexCmd (v : Nat) (h : Hub) : Hub :=
  if nbits v 31 30 = 1 then indexLoad (v % 64) h else if nbits v 31 30 = 2 then indexUnload (v % 64) h else h

/-- R491: SEARCH_MERGE_CMD. -/
def mergeCmd (v : Nat) (h : Hub) : Hub :=
  if nbits v 31 30 = 1 then mergeStart v h else if nbits v 31 30 = 2 then mergeAbort v h else h

/-- R526: METER_CMD. -/
def meterCmd (v : Nat) (h : Hub) : Hub :=
  if v % 4 = 1 then meterClear h else if v % 4 = 2 then meterSnapshot h else h

/-- R126: DEFECT_CTRL. -/
def defectCmd (v : Nat) (h : Hub) : Hub := if v % 4 = 1 then defectAdd h else if v % 4 = 2 then defectRemove h else h

/-- R117: BRINGUP_CTRL; every write of it saves the persistent counters (R572). -/
def bringCtrlWrite (v : Nat) (s : State) : State :=
  let s1 := onHub counterSave s
  if v.testBit 1 then holdState coldReset s1
  else if v.testBit 0 then onHub warmRequest s1
  else s1

/-- R347, R374: a write of CORE_SEMi. -/
def semWrite (k i v : Nat) (h : Hub) : Hub := wakeWaits k (setSem k i v h)

/-- A write of CORE page registers of logical core k. -/
def coreWrite (k roff v : Nat) (h : Hub) : Option Hub :=
  match roff with
  | 0x44 => some (coreCfgWrite k (w64 v) h)
  | 0x50 => some (ctxBind k (w64 v) h)
  | 0x58 | 0x60 | 0x68 | 0x70 | 0x78 | 0x80 | 0x88 => some (ctxRegWrite k roff (w64 v) h)
  | 0x90 => some (ctxCmd k (v % 4) h)
  | 0xA8 => some (if nbits v 31 30 = 1 then patLoad k v h else h)
  | 0xD0 => some (if v.testBit 0 then coreFaultPop k h else h)
  | _ => if 0x400 ≤ roff ∧ roff < 0x500 then some (semWrite k ((roff - 0x400) / 4) v h) else none

/-- A write of a register of a page that has effects of its own; none: its writable fields are stored. -/
def blockWrite (r : Requester) (p : PageInfo) (page roff : Nat) (d : RegDef) (v : Nat) (s : State) : Option State :=
  let w := w64 v
  let hub (f : Hub → Hub) : Option State := some (onHub f s)
  match p.blk with
  | .port =>
    if roff = 0x40 then hub (portCfgWrite p.inst w)
    else if roff = 0x58 ∧ isRingPort p.inst then some s
    else none
  | .cxlp => if roff = 0x44 then hub (openWrite p.inst w) else if roff = 0x50 then hub (ldWrite p.inst w) else none
  | .mirror => if roff = 0x40 ∨ roff = 0x48 ∨ roff = 0x50 then hub (lockedWrite page roff 16 d v) else none
  | .coh =>
    if roff = 0x48 then hub (leaseBaseWrite w)
    else if (roff = 0x68 ∨ roff = 0x70 ∨ roff = 0x78) ∧ pairJoined s.hub ∧ s.hub.twin.role = 1 then
      hub (bridgeOne 6 [page, roff, d.width, v, denyBits r])
    else if roff = 0x70 then hub (leaseDefWrite w)
    else if roff = 0x78 then hub (leaseCmdWrite r w)
    else if 0x100 ≤ roff ∧ roff < 0x200 then hub (agentWrite ((roff - 0x100) / 8) w)
    else none
  | .tier =>
    if roff = 0x40 then hub (tierCfgWrite w)
    else if roff = 0x148 then hub (tierCmdWrite v)
    else if 0x80 ≤ roff ∧ roff < 0x100 ∧ roff % 16 = 0 then hub (classLimitWrite ((roff - 0x80) / 16) w)
    else none
  | .stu =>
    if p.sub = 0 ∧ roff = 0x48 then hub (lockedWrite page roff 18 d v)
    else if p.sub = 0 ∧ roff = 0x40 then hub (fun h => pumpPrewalks (70000 * 17) (storeFields page roff d v h))
    else if p.sub = 0 ∧ roff = 0x60 then hub (fun h => if v.testBit 0 then stuFaultPop h else h)
    else if p.sub = 1 ∧ roff = 0x48 then hub (invCmdWrite v)
    else if p.sub = 2 ∧ roff = 0x48 then hub (prewalkCmdWrite v)
    else none
  | .cursor =>
    if roff = 0x48 ∨ roff = 0x50 then hub (cursorDefWrite (roff == 0x50) (regFld curPage 0x44 5 0 s.hub) w)
    else if roff = 0x60 then hub (cursorCmd (regFld curPage 0x44 5 0 s.hub) (v % 4))
    else if roff = 0x80 then hub (fun h => emuDrain (advanceReg w r h))
    else if roff = 0xC0 then hub (drawerCmd v)
    else if roff = 0xE0 then hub (fun h => if v.testBit 0 then reportPop h else h)
    else none
  | .cloak =>
    if roff = 0x50 ∨ roff = 0x58 ∨ roff = 0x60 then hub (cloakBaseWrite roff d.rw w)
    else if roff = 0x8C then hub (cloakFmCmd (v % 4))
    else none
  | .emb =>
    if roff = 0x40 then hub (lockedWrite page roff 16 d v)
    else if roff = 0x48 then hub (tableCmd v)
    else if roff = 0x58 then hub (fun h => if v.testBit 0 then migStart h else h)
    else none
  | .search =>
    if roff = 0x40 then hub (lockedWrite page roff 16 d v)
    else if roff = 0x48 then hub (indexCmd v)
    else if roff = 0x50 then hub (mergeCmd v)
    else none
  | .pool => if roff = 0x48 then hub (pouSubmitReg r w) else if roff = 0x50 then hub (pouAbortReg r w) else none
  | .shape =>
    if roff = 0x44 then some (onShapers (shapeCfgWrite w) s)
    else if roff = 0x48 then some (onShapers (shapeRateWrite w) s)
    else if roff = 0x50 then some (onShapers (shapeBurstWrite w) s)
    else if 0x100 ≤ roff then hub (portMapWrite ((roff - 0x100) / 4) w)
    else none
  | .meter => if roff = 0x88 then hub (meterCmd v) else none
  | .pigeonCtl => if roff = 0x48 then some (pigeonClear w s) else none
  | .pigeonhole =>
    if roff = 0x48 ∨ roff = 0x50 then some (pigeonSendReg p.inst (roff == 0x50) r w s)
    else if roff = 0x58 then some (pigeonFlushReg p.inst r w s)
    else if roff = 0x88 then some (pigeonPop p.inst w s)
    else none
  | .core => (coreWrite p.inst roff v s.hub).map (fun h => { s with hub := svcSettle h })
  | .bench => if roff = 0x44 then hub (fun h => if v.testBit 0 then benchTest p.inst h else h) else none
  | .ras => if roff = 0x78 then hub (injectCmd w) else none
  | .fitting => if roff = 0x44 then hub (fittingCmd v) else none
  | .bringup => if roff = 0x40 then some (bringCtrlWrite v s) else none
  | .defect => if roff = 0x40 then hub (defectCmd v) else none
  | .twin => if roff = 0x40 then hub (twinCfgWrite w) else none
  | .ring =>
    if roff = 0x40 then hub (ringCtrlWrite w)
    else if roff = 0x100 then hub (floorWrite w)
    else if roff = 0x10C then hub (routeWrite w)
    else none
  | .dev | .time | .switch | .scache | .hbmc | .ddrc | .codec | .armoire | .sec => none

/-- The event register or the event mask of a page, R47. -/
def eventWrite (p : PageInfo) (page roff : Nat) (d : RegDef) (v : Nat) (s : State) : Option State :=
  match eventRegs p with
  | none => none
  | some (e, m) =>
    if roff = e then some (onHub (clearBits page e (masks d.w1c) v) s)
    else if roff = m then some (onHub (withSignal page (storeFields page m d v)) s)
    else none

/-- A whole register takes a value. -/
def putWhole (r : Requester) (p : PageInfo) (page roff : Nat) (d : RegDef) (v : Nat) (s : State) : State :=
  if roff < 0x40 then headerWrite p page roff v s
  else
    match eventWrite p page roff d v s with
    | some t => t
    | none =>
      match blockWrite r p page roff d v s with
      | some t => t
      | none => onHub (storeFields page roff d v) s

/-! ### Sizes -/

/-- What a write comes to: performed (or ignored), or refused by ownership, or malformed. -/
inductive WriteResult | ok | denied | badAccess
  deriving DecidableEq, Repr

/-- R48, R49: a write of a counter slot. A zero of either size clears a class 1 slot. -/
def slotWrite (r : Requester) (p : PageInfo) (page off v : Nat) (s : State) : WriteResult × State :=
  let k := (off - 0x800) / 8
  if counterClass p k ≠ 1 then (.ok, s)
  else if v = 0 then
    (.ok, onHub (fun h => { putReg page (0x800 + 8 * k) 0 h with
      kibSpare := Tab.erase h.kibSpare (regKey page (0x800 + 8 * k)) }) s)
  else (.badAccess, onHub (noteDeny r page off true) s)

/-- Four bytes of a register: all of it, or a half of one of 8 bytes whose other half keeps what it reads, and is zero
where the register only acts on what is written. -/
def put4 (r : Requester) (p : PageInfo) (page off v : Nat) (s : State) : State :=
  match regAt p off with
  | none => s
  | some hit =>
    let roff := off - hit.byte
    if hit.reg.width = 4 then putWhole r p page roff hit.reg v s
    else
      let base := if hit.reg.rw = [] then 0 else (regValue p page roff s).1
      let whole := if hit.byte = 0 then base / 2 ^ 32 * 2 ^ 32 + v else base % 2 ^ 32 + v * 2 ^ 32
      putWhole r p page roff hit.reg whole s

/-- R27: a well-formed write, past the checks: eight bytes are one register, or two of four bytes, the lower first. -/
def regPut (r : Requester) (p : PageInfo) (page off size v : Nat) (s : State) : WriteResult × State :=
  if 0x800 ≤ off then slotWrite r p page off (v % 2 ^ (8 * size)) s
  else if size = 4 then (.ok, put4 r p page off (v % 2 ^ 32) s)
  else
    match regAt p off with
    | some hit =>
      if hit.reg.width = 8 then (.ok, putWhole r p page off hit.reg (v % 2 ^ 64) s)
      else (.ok, put4 r p page (off + 4) (v / 2 ^ 32 % 2 ^ 32) (put4 r p page off (v % 2 ^ 32) s))
    | none => (.ok, put4 r p page (off + 4) (v / 2 ^ 32 % 2 ^ 32) s)

/-! ### The gate -/

/-- Pages that only the fabric manager writes (R365, R527, R564, R594, R609): OWNER has no effect there. -/
def fmOnlyPage (page : Nat) : Bool :=
  (0x240 ≤ page && page ≤ 0x247) || page == 0xF0 || page == 0x300 || page == 0x320 || page == 0x340

/-- R30, R42, R43: may this requester write the register at this offset? -/
def mayWrite (r : Requester) (p : PageInfo) (page off : Nat) (h : Hub) : Bool :=
  isFm r ||
  (match regAt p off with
   | some hit => hit.reg.isOpen ||
       (ownerAllows page r h && !fmOnlyPage page && hit.reg.off != 0x28 && hit.reg.off != 0x38)
   | none => ownerAllows page r h && !fmOnlyPage page)

/-- R606: a write of a mirrored register, or of an STU command, goes to the other member too. -/
def mirrorWrite (p : PageInfo) (page off size v : Nat) (h : Hub) : Hub :=
  match regAt p off with
  | none => h
  | some hit =>
    let roff := off - hit.byte
    let cmd := (page == 0xA1 || page == 0xA2) && roff == 0x48
    if pairJoined h && (mirroredReg page roff || cmd) then
      bridgeOne 0x62 [page, off, size, v,
        if page = 0xA1 ∨ page = 0xA2 then (getReg page 0x40 h).toNat else (getReg 0x348 0x108 h).toNat] h
    else h

/-- R41: the sideband answers once it is up, a CXL port while its link is. -/
def reaches (r : Requester) (h : Hub) : Bool :=
  match r with
  | .sideband => sideUp h
  | .fm p => if p = 0 then h.cxl0.up else h.cxl1.up
  | .ld p _ => if p = 0 then h.cxl0.up else h.cxl1.up
  | .agent _ _ _ => true

/-- R25, R27, R42, R43, R111, R605, R606: a register write. -/
def regWrite (r : Requester) (page off size v : Nat) (s : State) : WriteResult × State :=
  match pageHome page s.hub with
  | .nowhere => (.ok, s)
  | .other => (.ok, onHub (bridgeOne 6 [page, off, size, v, denyBits r]) s)
  | .mine pg =>
    match pageInfo pg with
    | none => (.ok, s)
    | some p =>
      if hiddenPage pg s.hub then (.ok, s)
      else if !accessOk off size then (.badAccess, onHub (noteDeny r pg off true) s)
      else if pairBlank p s.hub then (.ok, s)
      else if !mayWrite r p pg off s.hub then (.denied, onHub (noteDeny r pg off false) s)
      else
        let w := regPut r p pg off size v s
        (w.1, onHub (mirrorWrite p pg off size v) w.2)

/-- A write that arrives on its path. -/
def regWriteFrom (r : Requester) (page off size v : Nat) (s : State) : State :=
  if reaches r s.hub then (regWrite r page off size v s).2 else s

/-- R606: a mirrored write from the other member, performed here as the fabric manager writes; `addr` is the address
register of an STU command, or the selection of a route entry. -/
def twinRegWrite (page off size v addr : Nat) (s : State) : State :=
  match pageInfo page with
  | none => s
  | some p =>
    match regAt p off with
    | none => s
    | some hit =>
      let roff := off - hit.byte
      let cmd := (page == 0xA1 || page == 0xA2) && roff == 0x48
      if !(mirroredReg page roff || cmd) || !accessOk off size then s
      else if page = 0xA1 ∨ page = 0xA2 then
        let old := getReg page 0x40 s.hub
        let s1 := (regPut .sideband p page off size v (onHub (putReg page 0x40 (w64 addr)) s)).2
        onHub (putReg page 0x40 old) s1
      else if page = 0x348 ∧ roff = 0x10C then
        let old := getReg page 0x108 s.hub
        let s1 := (regPut .sideband p page off size v (onHub (putReg page 0x108 (w64 (addr % 1024))) s)).2
        onHub (putReg page 0x108 old) s1
      else (regPut .sideband p page off size v s).2

/-! ### The bundle's registers -/

/-- R578: one REG record of the active bundle; on the warm path the CXLP and RING pages are left as they are. -/
def loadRecord (rec : RegRec) (s : State) : State :=
  match pageInfo rec.page with
  | none => s
  | some p =>
    if s.hub.boot.warm && warmExempt rec.page then s
    else if !accessOk rec.off rec.width then s
    else (regPut .sideband p rec.page rec.off rec.width rec.value s).2

/-- R95, R578: Clocking: CCLK is locked, the defect map and the bundle's registers are loaded, and the sequencer goes on. -/
def clockingDone (s : State) : State :=
  if s.hub.boot.phase ≠ .clocking then s
  else
    let s1 := onHub clockingStart s
    let s2 := (bundleRegs s1.hub).foldl (fun x r => loadRecord r x) s1
    onHub clockingEnd s2

/-! ### Nipieb register messages (R71) -/

/-- Does a Nipieb request reach its command (R70 to R72)? -/
def nipServed (aux : Bool) (q : NipHdr) (h : Hub) : Bool :=
  sideUp h && q.vendor == 0xE37D && q.nver == 1 && (aux || h.pins.pgOut) && q.lenOk

/-- NIPIEB_REG_READ. An access that R27 does not take reads all-ones, and completes INVALID_DATA (DESIGN CHOICE). -/
def nipRegRead (q : NipHdr) (page off size : Nat) (s : State) : State :=
  if nipServed false q s.hub then
    let r := regRead .sideband page off size s
    onHub (nipAnswer 0x10 (if accessOk off size then ccOk else ccInvalidData) q (bytesLE size r.1)) r.2
  else onHub (nipieb 0x10 false q (fun h => h)) s

/-- NIPIEB_REG_WRITE, as the fabric manager. -/
def nipRegWrite (q : NipHdr) (page off size v : Nat) (s : State) : State :=
  if nipServed false q s.hub then
    onHub (nipAnswer 0x11 (if accessOk off size then ccOk else ccInvalidData) q []) (regWrite .sideband page off size v s).2
  else onHub (nipieb 0x11 false q (fun h => h)) s

end Sys2Proof.Machine
end

