-- ==== Sys2Proof/Machine/Arrive.lean ====
section
/-!
DEFINITION. Frames that arrive on a Yumer port (R249 to R251, R255, R264, R265, R271 to R281, R560, R598 to R608, R614):
the link, the port's binding, levels, forwarding, and what each unit of the module makes of a frame for it.
-/
namespace Sys2Proof.Machine

/-! ### The other member of a pair hears of losses and lease changes (R607) -/

def lossCause (h : Hub) : Nat := fld h.coh.lostW0 50 48

/-- R607: agents lost and leases changed by an operation of this member are sent to the other one. -/
def pairTell (before after : Hub) : Hub :=
  if !pairJoined before then after
  else
    let lost := (List.range 32).filter (fun k => (getAgent k before).st == .active && (getAgent k after).st != .active)
    let h1 := lost.foldl (fun x k => bridgeOne 0x63 [ctrlAgentLoss, k, lossCause after] x) after
    let is := dedup (before.coh.leases.map (·.1) ++ after.coh.leases.map (·.1))
    (is.filter (fun i => decide (Tab.getD before.coh.leases i {} ≠ Tab.getD after.coh.leases i {}))).foldl (fun x i =>
      let l := Tab.getD after.coh.leases i {}
      bridgeOne 0x63 [ctrlLease, i, (leaseWords l).1, (leaseWords l).2] x) h1

def pairSync (f : Hub → Hub) (h : Hub) : Hub := pairTell h (f h)

def pairSyncS (f : State → State) (s : State) : State := { f s with hub := pairTell s.hub (f s).hub }

/-- A lease entry from its two words (R315). -/
def leaseOf (w0 w1 now : Nat) : Lease :=
  let holder : Holder :=
    if nbits w1 3 2 = 1 then .ld (nbits w1 5 5) (nbits w1 4 4) (nbits w1 11 8)
    else if nbits w1 3 2 = 2 then .agent (nbits w1 21 12) (nbits w1 29 22)
    else .none
  { st := if w1 % 4 = 1 then .idle else if w1 % 4 = 2 then .held else .undefined
    tile := nbits w0 28 0, count := nbits w0 47 32, termMs := nbits w0 63 48, holder := holder, epoch := nbits w1 63 32
    started := now }

/-! ### Completions (R255, R264, R265) -/

/-- What a completion means to the unit that issued the request. -/
def completeFor (o : Outstanding) (c : Frame) (h : Hub) : Hub :=
  let st := c.status
  let bad := payloadPoison c || st == stPoisoned
  match o.purpose with
  | .dma k x q n sp bytes => dmaComplete k x q n sp bytes st c.detail bad c.payload o.frame h
  | .dmaAtomic k x q n sp size => dmaComplete k x q n sp size st c.detail bad c.payload o.frame h
  | .dmaCtl k x q n sp => dmaComplete k x q n sp 0 st c.detail false [] o.frame h
  | .push n part => pushBlock n part st (c.poison || st == stPoisoned) c.scarry c.payload h
  | .mirror i op kind => mirrorComplete i op kind st c h
  | .notify => if st = stOk then h else raise clPage 17 h
  | .emuRead n kind off => emuReadDone n kind off st bad c.payload h
  | .emuWrite n => emuWriteDone n st h
  | .migWrite gen => migAnswer gen st c.detail h
  | .migCutover gen => migAnswer gen st c.detail h
  | .scuWrite n => scuWriteDone n st h
  | .scuRead n off => scuReadDone n off st bad c.payload h
  | .attend n => attendWritten n st h
  | .relay n => relayDone n st c.detail c.aux bad c.payload h

/-- R265: a completion for which nothing is outstanding: late where its tag is quarantined. -/
def lateCompletion (f : Frame) (h : Hub) : Hub :=
  if h.deadTags.any (fun d => d.unit == f.dstUnit && d.tag == f.tag && decide (h.devTime < d.until_)) then
    raise 0x40 19 (count 0x40 4 1 h)
  else h

/-- A completion for a unit of this member. -/
def completionArrive (f : Frame) (h : Hub) : Hub :=
  if f.dstUnit = 0x89 then
    match findSnoop f.tag h with
    | some _ => snoopAnswer f.tag (nbits f.aux 1 0) (f.aux.testBit 2) f.payload (payloadPoison f) h
    | none => lateCompletion f h
  else
    match takeFirst (fun o => o.frame.srcUnit == f.dstUnit && o.frame.tag == f.tag) h.outstanding with
    | some (o, rest) => svcSettle (completeFor o f { h with outstanding := rest })
    | none => lateCompletion f h

/-- R264: the record of a request that ends TARGET_DEAD, and the quarantine of its tag (R265). -/
def noteDead (f : Frame) (h : Hub) : Hub :=
  let w0 := w64 (mkFld 63 48 f.tag + mkFld 47 0 h.devTime)
  let w1 := w64 (mkFld 33 26 f.opcode + mkFld 25 18 f.srcUnit + mkFld 17 10 f.dstUnit + mkFld 9 0 f.dstModule)
  let tags := h.deadTags.filter (fun d => decide (h.devTime < d.until_))
  raise 0x40 16 (count 0x40 3 1 (putReg 0x40 0x68 w1 (putReg 0x40 0x60 w0
    { h with deadTags := tags ++ [⟨f.srcUnit, f.tag, h.devTime + 2 * deadBound h⟩] })))

/-- R264, R312: the bound of the request with a tag passes: it completes TARGET_DEAD; an unanswered snoop loses its agent. -/
def deadExpiry (tag : Nat) (h : Hub) : Hub :=
  match takeFirst (fun o => o.frame.tag == tag && decide (o.issued + deadBound h ≤ h.devTime)) h.outstanding with
  | some (o, rest) =>
    let c : Frame := { opcode := 0x20, posted := true, tag := tag, status := stTargetDead, poison := decide (0 < deadBytes o.frame)
                       payload := poisonPattern (deadBytes o.frame), scarry := scarryOf (poisonPattern (deadBytes o.frame)) }
    svcSettle (completeFor o c (noteDead o.frame { h with outstanding := rest }))
  | none =>
    match findSnoop tag h with
    | some (x, s) =>
      if s.sentAt + deadBound h ≤ h.devTime then loseAgent s.agent 3 (noteDead (snoopFrame s x.req h) h) else h
    | none => h

/-! ### Register frames (R614) -/

def regFormOk (f : Frame) : Bool :=
  !f.posted && decide (f.addr < 2 ^ 25 ∧ 1 ≤ f.len ∧ f.len ≤ 8) && (if f.opcode = 8 then f.payload == [] else f.payload.length == f.len)

def regFrame (bridge : Bool) (f : Frame) (s : State) : State :=
  let page := f.addr / 4096
  let off := f.addr % 4096
  let r : Requester := .agent f.srcModule f.srcUnit f.tenant
  let reply (st : Nat) (data : List Byte) (t : State) : State := onHub (fun h => sendFrame (completionOf f st 0 0 false data h) h) t
  if !regFormOk f then onHub (refuseForm f stBadRequest 0) s
  else if pairJoined s.hub && !bridge && (if 0x1000 ≤ page then 1 else 0) != s.hub.twin.role then onHub (sendBridge raise f) s
  else if f.opcode = 8 then
    let v := regRead r page off f.len s
    reply stOk (bytesLE f.len v.1) v.2
  else if poisonedControl f then onHub (refuseForm f stBadRequest 0xFF) s
  else
    let w := regWrite r page off f.len (ofBytesLE f.payload) s
    reply (match w.1 with | .ok => stOk | .denied => stDenied | .badAccess => stBadRequest) [] { w.2 with hub := pairTell s.hub w.2.hub }

/-! ### Frames for this module -/

/-- R250: opcodes that are defined. -/
def definedOpcode (o : Nat) : Bool :=
  (1 ≤ o && o ≤ 6) || o == 8 || o == 9 || (0x10 ≤ o && o ≤ 0x12) || o == 0x20 || o == 0x21 || o == 0x40 || o == 0x41 ||
  (0x50 ≤ o && o ≤ 0x55) || o == 0x58 || o == 0x5A || (0x60 ≤ o && o ≤ 0x63)

/-- R250: opcodes of posted frames. -/
def postedOpcode (o : Nat) : Bool := o == 3 || o == 0x20 || o == 0x21 || o == 0x54 || o == 0x55 || o == 0x5A

/-- R249, R250, R302, R614: does unit u take opcode o? -/
def unitTakes (u o : Nat) : Bool :=
  if u = 0x80 then (1 ≤ o && o ≤ 6) || (0x50 ≤ o && o ≤ 0x55)
  else if u = 0x81 then o == 8 || o == 9
  else if u = 0x82 then o == 0x10
  else if u = 0x87 then o == 0x12
  else o == 0x11

/-- A request that some completion answers. -/
def isRequest (f : Frame) : Bool := !f.posted && f.opcode != 0x20

/-- R249: units that take no requests. -/
def noRequests (u : Nat) (h : Hub) : Bool := (0x88 ≤ u && u ≤ 0xBF) || (0x40 ≤ u && u < 0x80 && !pairJoined h)

/-- R607: a heartbeat to the pair goes to the other member too. -/
def heartbeatCopy (bridge : Bool) (f : Frame) (h : Hub) : Hub :=
  if f.opcode = 0x55 ∧ pairJoined h ∧ !bridge then sendBridge raise f h else h

/-- A frame for this module or its pair, past the switch core's checks. -/
def localArrive (p : Nat) (bridge : Bool) (f : Frame) (s : State) : State :=
  let u := f.dstUnit
  let h := s.hub
  if 0xC0 ≤ u then
    match agentPort u h with
    | some q => onHub (enqueue raise p q f) s
    | none => if pairJoined h && !bridge then onHub (sendBridge raise f) s else onHub (noRoute p f) s
  else if f.opcode = 0x20 then
    if pairJoined h && !bridge && f.tag / 32768 != h.twin.role then onHub (sendBridge raise f) s
    else onHub (completionArrive f) s
  else if noRequests u h then onHub (noRoute p f) s
  else if !definedOpcode f.opcode then onHub (refuseForm f stUnsupported 0) s
  else if f.posted != postedOpcode f.opcode then onHub (refuseForm f stBadRequest 0) s
  else if !unitTakes u f.opcode then onHub (refuseForm f stUnsupported 0) s
  else if u = 0x81 then regFrame bridge f s
  else if u = 0x80 then onHub (fun x => storeArrive p f (heartbeatCopy bridge f x)) s
  else unitArrive p f s

/-- R275, R276: a frame for another module. -/
def forwardFrame (p : Nat) (f : Frame) (h : Hub) : Hub :=
  match routeOf f.dstModule (if isRingPort p then some p else none) h with
  | .ring e => sendRing raise p e f h
  | .client q => enqueue raise p q f h
  | .dead => if isRequest f then deadAnswer f h else dropFrame p false .noRoute f h
  | .absent => noRoute p f h

/-! ### The port -/

/-- R273: does an agent port admit the frame? -/
def bindOk (p : Nat) (f : Frame) (h : Hub) : Bool :=
  let b := getReg (portPage p) 0x58 h
  isRingPort p || bindMode p h != 0 ||
  (f.srcModule == moduleId h && decide (fld b 23 16 ≤ f.srcUnit ∧ f.srcUnit < fld b 23 16 + fld b 30 24) &&
   (bitOf b 31 || f.tenant == fld b 11 0))

def isAgentPort (p : Nat) (h : Hub) : Bool := !isRingPort p && bindMode p h == 0

/-- R281: is the frame's level refused at this port? -/
def levelRefused (p : Nat) (f : Frame) (h : Hub) : Bool :=
  (isAgentPort p h && (decide (regFld 0x348 0x100 3 0 h < f.plevel))) ||
  ((f.plevel < 1 || 2 < f.plevel) && (isAgentPort p h || f.dstModule == moduleId h))

/-- The receiver of a good frame in sequence: its counts, and the credits the frame used. -/
def linkCount (p : Nat) (f : Frame) (h : Hub) : Hub :=
  let o := getPort p h
  let h1 := putPort p { o with granted := listSet o.granted f.tc (nth o.granted f.tc 0 - frameCells f) } h
  let h2 := countKib (portPage p) 2 (frameBytes f) (count (portPage p) 0 1 h1)
  if bindMode p h = 2 then countKib twinPage 3 (frameBytes f) (count twinPage 1 1 h2) else h2

/-- A frame admitted at its port: fenced, forwarded, or for this module, where an injection into the buffer meets it (R563). -/
def admitted (p : Nat) (f : Frame) (s : State) : State :=
  let h := s.hub
  if h.ras.fence != .serving then
    (if isRequest f && !isRingPort p then onHub (fun x => deadAnswer f (mirrorPoint p false false .none f x)) s
     else onHub (dropFrame p false .noRoute f) s)
  else if h.boot.phase != .ready && !(h.boot.phase == .quiescing && f.opcode == 0x20 && f.dstModule == moduleId h) then
    onHub (dropFrame p false .noRoute f) s
  else
    let s1 := onHub (mirrorPoint p false false .none f) s
    if f.dstModule = moduleId h then
      match injectFrame raise f s1.hub with
      | (some g, h1) => localArrive p (bindMode p h == 2) g { s1 with hub := h1 }
      | (none, h1) => onHub (dropFrame p false .buffer f) { s1 with hub := h1 }
    else onHub (forwardFrame p f) s1

/-- A frame that passed its link: R271, R279, R273, R598, R281. -/
def switched (p : Nat) (f : Frame) (s : State) : State :=
  let h := s.hub
  if f.stomped then onHub (fun x => dropFrame p false .stomped f (raise (portPage p) 21 (count (portPage p) 7 1 x))) s
  else if f.opcode = 0x40 ∨ f.opcode = 0x41 ∨ f.opcode = 0x60 ∨ f.opcode = 0x61 then s
  else if !moduleValid h then onHub (dropFrame p false .noRoute f) s
  else if (0x60 ≤ f.opcode ∧ f.opcode ≤ 0x6F) ∧ bindMode p h ≠ 2 then
    onHub (fun x => dropFrame p false .bind f (count (portPage p) 8 1 x)) s
  else if !bindOk p f h then
    onHub (fun x => dropFrame p false .bind f (raise (portPage p) 18 (count (portPage p) 8 1 x))) s
  else if levelRefused p f h then
    onHub (fun x =>
      let x1 := count (portPage p) 9 1 (dropFrame p false .level f x)
      if isRequest f then switchAnswer f stUnsupported false [] x1 else x1) s
  else admitted p f s

/-- R251: a frame arrives on port p with its codeword and checks good. -/
def rxFrame (p : Nat) (f : Frame) (s : State) : State :=
  if !portReady p s.hub then s
  else if !f.crcOk then onHub (askReplay p) s
  else
    match seqCheck p f.seq s.hub with
    | (.discard, h) => { s with hub := h }
    | (.take, h) => switched p f { s with hub := linkCount p f h }

/-- What was wrong with a frame that arrived (R251, R271). -/
def badFrame (p : Nat) (f : Frame) (kind : Nat) (h : Hub) : Hub :=
  if !portReady p h then h
  else if kind = 0 then askReplay p (count (portPage p) 5 1 h)
  else if kind = 1 then askReplay p h
  else
    let out : Option Nat :=
      if !moduleValid h || f.dstModule == moduleId h || h.ras.fence != .serving || h.boot.phase != .ready || f.seq != (getPort p h).rxSeq ||
         !bindOk p f h || levelRefused p f h then none
      else
        match routeOf f.dstModule (if isRingPort p then some p else none) h with
        | .ring e => (ringPort (if e then eastPorts else westPorts) f h).map (·.1)
        | .client q => some q
        | _ => none
    match out with
    | some q => askReplay p (if portReady q h && cutsThrough p q f h then enqueue raise p q { f with stomped := true } h else h)
    | none => askReplay p h

/-- A frame with its opcode as the row names it. -/
def asOp (op : Nat) (f : Frame) : Frame := { f with opcode := op }

/-- An operation of a unit, in AUX [7:0]. -/
def asAux (op : Nat) (f : Frame) : Frame := { f with aux := f.aux / 256 * 256 + op }

/-! ### The bridge (R598 to R608) -/

/-- Bridge frames are taken on a Ready bridge port. -/
def onBridge (p : Nat) (h : Hub) : Bool := portReady p h && bindMode p h == 2 && h.twin.en

def bridgeCount (h : Hub) : Hub := count twinPage 1 1 h

/-- R599: one mirrored register that member 1 takes from member 0, locked or not. -/
def takeMirrored (r : Nat × Nat × Nat × Nat) (s : State) : State :=
  match pageInfo r.1 with
  | none => s
  | some p =>
    match regAt p r.2.1 with
    | none => s
    | some hit =>
      if !mirroredReg r.1 r.2.1 then s
      else if r.1 = 0x348 ∨ 0x100 ≤ r.2.1 then twinRegWrite r.1 r.2.1 hit.reg.width r.2.2.1 r.2.2.2 s
      else onHub (storeFields r.1 r.2.1 hit.reg r.2.2.1) s

/-- R599: what a hello brings: the partner's serial, and to member 1 the mirrored registers and the time. -/
def takeHello (serial : Nat) (regs : List (Nat × Nat × Nat × Nat)) (time : Nat) (s : State) : State :=
  let s1 := onHub (fun h => { h with twin := { h.twin with partnerSerial := serial } }) s
  if s.hub.twin.role = 1 then
    let s2 := regs.foldl (fun x r => takeMirrored r x) s1
    onHub (fun h => { h with devTime := time % 2 ^ 64 }) s2
  else s1

/-- R599, R600: a hello arrives. One that joins is answered by a hello, for a partner that was not yet in Syncing. -/
def twinHello (p : Nat) (fields : List Nat) (serial : Nat) (regs : List (Nat × Nat × Nat × Nat)) (time : Nat) (s : State) : State :=
  let h := s.hub
  if !onBridge p h then s
  else if h.twin.st = .syncing then
    if helloEqual fields h then
      onHub (fun x =>
        let x1 := bridgeAll 0x60 (helloFields x) (twinJoin (bridgeCount x))
        if x.twin.joinedOnce then x1 else loadJoin { x1 with twin := { x1.twin with joinedOnce := true } }) (takeHello serial regs time s)
    else onHub (fun x => twinRefuse 6 (bridgeCount x)) s
  else if h.twin.st = .joined ∧ !helloEqual fields h then onHub (fun x => twinBreak 6 (bridgeCount x)) s
  else onHub bridgeCount s

/-- R602, R607: a TWIN_CTRL frame. -/
def twinCtrl (p kind : Nat) (data : List Nat) (h0 : Hub) : Hub :=
  if !onBridge p h0 then h0
  else if h0.twin.st != .joined then bridgeCount h0
  else
    let h := bridgeCount h0
    if kind = ctrlFence then commandFence h
    else if kind = ctrlUnfence then svcSettle (commandUnfence h)
    else if kind = ctrlWarm then (if h.boot.phase = .ready ∧ h.ras.fence ≠ .fatal then warmEnter h else h)
    else if kind = ctrlBreak then twinBreak 3 h
    else if kind = ctrlAgentLoss then loseAgent (nth data 0 0) (nth data 1 0) h
    else if kind = ctrlLease then
      let l := leaseOf (nth data 1 0) (nth data 2 0) h.devTime
      let i := nth data 0 0
      { h with coh := { h.coh with leases := if l.st = .undefined then Tab.erase h.coh.leases i else Tab.set h.coh.leases i l } }
    else h

/-- R606: a TWIN_REG frame. -/
def twinReg (p page off size v addr : Nat) (s : State) : State :=
  if !onBridge p s.hub then s
  else if pairJoined s.hub then twinRegWrite page off size v addr (onHub bridgeCount s)
  else onHub bridgeCount s

/-- R598: a TWIN_HEARTBEAT frame. -/
def twinHeartbeatOn (p phase fence state : Nat) (h : Hub) : Hub :=
  if onBridge p h then twinHeartbeat phase fence state (bridgeCount h) else h

end Sys2Proof.Machine
end

