-- ==== Sys2Proof/Machine/Scalar.lean ====
section
/-!
DEFINITION. The sequencer of a core (R345 to R347, R350, R353, R372 to R379): issue, the scalar commands, the queueing of
engine commands, and the ordering commands.
-/
namespace Sys2Proof.Machine

/- ### Words (R346) -/

def wOp (w : Word) : Nat := fld w 63 56
def sRd (w : Word) : Nat := fld w 55 51
def sRa (w : Word) : Nat := fld w 50 46
def sRb (w : Word) : Nat := fld w 45 41
def sImm (w : Word) : Word := (BitVec.ofNat 32 w.toNat).signExtend 64
def bRa (w : Word) : Nat := fld w 55 51
def bRb (w : Word) : Nat := fld w 50 46
def bTarget (w : Word) : Nat := fld w 12 0
def vRc (w : Word) : Nat := fld w 40 36
def eRa (w : Word) : Nat := fld w 55 51
def eQ (w : Word) : Nat := fld w 40 40
def oSem (w : Word) : Nat := fld w 55 50
def oRa (w : Word) : Nat := fld w 49 45
def oCore (w : Word) : Nat := fld w 44 37
def oMask (w : Word) : Nat := fld w 35 32
def oScope (w : Word) : Nat := fld w 31 30
def oImm (w : Word) : Nat := fld w 29 0

/-- The formats of R346. -/
inductive CmdFormat | s | b | v | e | o
  deriving DecidableEq, Repr

/-- R347: the format of an operation; none for a reserved one. -/
def opFormat (op : Nat) : Option CmdFormat :=
  if op ≤ 0x0D ∨ op = 0x60 then some .s
  else if 0x10 ≤ op ∧ op ≤ 0x15 then some .b
  else if op = 0x20 ∨ op = 0x30 then some .e
  else if op = 0x21 then some .v
  else if 0x40 ≤ op ∧ op ≤ 0x44 then some .o
  else none

/-- R346: the reserved bits of a format. -/
def reservedBits (f : CmdFormat) (w : Word) : Nat :=
  match f with
  | .s => fld w 40 32
  | .b => fld w 45 13
  | .v => fld w 19 0
  | .e => fld w 50 41 + fld w 39 0
  | .o => fld w 36 36

/-- R347: a word with a reserved operation or a non-zero reserved bit. -/
def badWord (w : Word) : Bool :=
  match opFormat (wOp w) with
  | none => true
  | some f => reservedBits f w != 0

/- ### Registers (R345) -/

def sreg (x : Ctx) (r : Nat) : Word := if r = 0 then 0 else nth x.regs (r - 1) 0
def setSreg (r : Nat) (v : Word) (x : Ctx) : Ctx := if r = 0 then x else { x with regs := listSet x.regs (r - 1) v }

/- ### Issue (R350) -/

/-- R107, R350, R358, R362, R376, R560: may a context issue now? -/
def canIssue (k c : Nat) (h : Hub) : Bool :=
  let x := getCtx k c h
  serving h && x.st == .running && x.ending.isNone && x.fence.all (fun n => !unfinished (getCore k h) n) &&
  (getCore k h).st == .inService && enabled (corePage k) h

/-- What the sequencer finds at a context's program counter. -/
inductive Fetch
  | stalled
  | fault (code detail : Nat)
  | word (w : Word)
  deriving DecidableEq, Repr

/-- R346, R347, R350, R355, R546. -/
def fetchWord (k c : Nat) (h : Hub) : Fetch :=
  let x := getCtx k c h
  if !canIssue k c h then .stalled
  else if 8192 ≤ x.pc then .fault fPatRange 0
  else if (getCore k h).badWords.contains x.pc then .fault fPoison 0
  else .word (Tab.getD (getCore k h).pat x.pc 0)

/-- A fault of the command at the program counter. -/
def faultHere (k c code detail addr : Nat) (h : Hub) : Hub := ctxFault k c code detail (getCtx k c h).pc addr h

/-- A command issues: the program counter goes on, and CORE_ISSUED counts. -/
def issued (k c : Nat) (x : Ctx) (h : Hub) : Hub := count (corePage k) 0 1 (putCtx k c { x with pc := x.pc + 1 } h)

/-- One command of context c, if it is one that `mine` takes. A reserved operation faults under every row of the table. -/
def issueIf (mine : Word → Bool) (act : Word → Ctx → Hub → Hub) (k c : Nat) (h : Hub) : Hub :=
  match fetchWord k c h with
  | .stalled => h
  | .fault code detail => svcSettle (faultHere k c code detail 0 h)
  | .word w =>
    if opFormat (wOp w) = none then svcSettle (faultHere k c fBadCmd (wOp w) 0 h)
    else if !mine w then h
    else if badWord w then svcSettle (faultHere k c fBadCmd (wOp w) 0 h)
    else
      let h1 := act w (getCtx k c h) h
      if (getCtx k c h1).st = .running then h1 else svcSettle h1

/-- A row of one operation. -/
def issueOp (op : Nat) (act : Word → Ctx → Hub → Hub) (k c : Nat) (h : Hub) : Hub :=
  issueIf (fun w => wOp w == op) act k c h

/-- A scalar command that writes RD. -/
def scalarRd (op : Nat) (val : Word → Ctx → Word) (k c : Nat) (h : Hub) : Hub :=
  issueOp op (fun w x h1 => issued k c (setSreg (sRd w) (val w x) x) h1) k c h

/-- A command of two registers. -/
def scalarRR (op : Nat) (f : Word → Word → Word) (k c : Nat) (h : Hub) : Hub :=
  scalarRd op (fun w x => f (sreg x (sRa w)) (sreg x (sRb w))) k c h

/-- R347: MOVHI. -/
def movhiVal (w : Word) (x : Ctx) : Word := w64 (mkFld 63 32 (fld w 31 0) + fld (sreg x (sRa w)) 31 0)

/-- R329, R347, R356: LD and ST need 8 aligned bytes of the scratchpad. -/
def ldstOk (a : Word) : Bool := a.toNat % 8 == 0 && spFits a.toNat 8

/-- R331, R347: LD. -/
def loadWord (k c : Nat) (h : Hub) : Hub :=
  issueOp 0x0B (fun w x h0 =>
    let a := sreg x (sRa w) + sImm w
    if !ldstOk a then faultHere k c fSpRange 0 a.toNat h0
    else
      let h1 := meetSpInjection (scratchAddr k a.toNat) 8 h0
      if spPoison k a.toNat 8 h1 then faultHere k c fPoison 0 a.toNat h1
      else issued k c (setSreg (sRd w) (w64 (spNum k a.toNat 8 h1)) x) h1) k c h

/-- R347: ST. -/
def storeWord (k c : Nat) (h : Hub) : Hub :=
  issueOp 0x0C (fun w x h0 =>
    let a := sreg x (sRa w) + sImm w
    if !ldstOk a then faultHere k c fSpRange 0 a.toNat h0
    else issued k c x (spWrite k a.toNat (bytesLE 8 (sreg x (sRb w)).toNat) h0)) k c h

/-- R347: the items of CSR; none for a reserved one. -/
def csrItem (k c : Nat) (x : Ctx) (i : Nat) (h : Hub) : Option Word :=
  match i with
  | 0 => some (w64 h.devTime)
  | 1 => some (w64 (coreUnit k h))
  | 2 => some (w64 c)
  | 3 => some (w64 (moduleId h))
  | 4 => some x.src
  | 5 => some (w64 x.starter)
  | 6 => some x.seed
  | _ => none

def readCsr (k c : Nat) (h : Hub) : Hub :=
  issueOp 0x0D (fun w x h0 =>
    match csrItem k c x (sImm w).toNat h0 with
    | some v => issued k c (setSreg (sRd w) v x) h0
    | none => faultHere k c fBadCmd 0x0D 0 h0) k c h

/-- R347: branches. -/
def branchOn (op : Nat) (cond : Word → Word → Bool) (k c : Nat) (h : Hub) : Hub :=
  issueOp op (fun w x h0 =>
    if cond (sreg x (bRa w)) (sreg x (bRb w)) then count (corePage k) 0 1 (putCtx k c { x with pc := bTarget w } h0)
    else issued k c x h0) k c h

def loopCmd (k c : Nat) (h : Hub) : Hub :=
  issueOp 0x15 (fun w x h0 =>
    let v := sreg x (bRa w) - 1
    let x1 := setSreg (bRa w) v x
    if sreg x1 (bRa w) ≠ 0 then count (corePage k) 0 1 (putCtx k c { x1 with pc := bTarget w } h0)
    else issued k c x1 h0) k c h

/- ### Engine commands -/

/-- R328. -/
def queueDepth : EngineId → Nat
  | .matrix => 4 | .vector => 8 | .dma0 => 16 | .dma1 => 16

def engineFull (k : Nat) (q : EngineId) (h : Hub) : Bool := decide (queueDepth q ≤ (queueOf q (getCore k h)).length)

def engCmd (x : Ctx) (c : Nat) (w rd ra rb rc : Word) : EngCmd :=
  { n := 0, ctx := c, word := w, rd := rd, ra := ra, rb := rb, rc := rc, marks := x.marks, started := false, waits := 0, todo := [],
    pc := x.pc }

/-- R335, R348: MMA and DMA. -/
def queueE (k c : Nat) (q : EngineId) (w : Word) (x : Ctx) (h : Hub) : Hub :=
  if engineFull k q h then h
  else queueCmd k q (engCmd x c w 0 (sreg x (eRa w)) 0 0) (issued k c x h)

def mmaCmd (k c : Nat) (h : Hub) : Hub :=
  issueOp 0x20 (fun w x h0 => queueE k c .matrix w x h0) k c h

def dmaCmd (k c : Nat) (h : Hub) : Hub :=
  issueOp 0x30 (fun w x h0 => queueE k c (if eQ w = 0 then .dma0 else .dma1) w x h0) k c h

/-- R340: VOP of one function; a word with a function the table reserves faults under each of these rows. -/
def vopCmd (fn : Nat) (k c : Nat) (h : Hub) : Hub :=
  let known (f : Nat) : Bool := decide (f ≤ 0x0D) || f == 0x10 || f == 0x11
  issueIf (fun w => wOp w == 0x21 && (vFunc w == fn || !known (vFunc w))) (fun w x h0 =>
    let rc := sreg x (vRc w)
    if !vecValid w rc then faultHere k c fBadCmd 0x21 0 h0
    else if engineFull k .vector h0 then h0
    else queueCmd k .vector (engCmd x c w (sreg x (sRd w)) (sreg x (sRa w)) (sreg x (sRb w)) rc) (issued k c x h0)) k c h

/- ### Ordering commands (R373 to R378) -/

/-- The context's unfinished commands on the engines of a mask. -/
def cmdsOn (k c mask : Nat) (h : Hub) : List Nat :=
  let core := getCore k h
  let sel (i : Nat) (q : List EngCmd) : List EngCmd := if mask.testBit i then q.filter (fun e => e.ctx == c) else []
  (sel 0 core.mq ++ sel 1 core.vq ++ sel 2 core.q0 ++ sel 3 core.q1).map (·.n)

/-- R374: WAIT. -/
def waitCmd (k c : Nat) (h : Hub) : Hub :=
  issueOp 0x40 (fun w x h0 =>
    let thr := ((sreg x (oRa w)).toNat + oImm w) % 2 ^ 32
    match semReached (semVal k (oSem w) h0) thr with
    | some true => issued k c x h0
    | some false => issued k c { x with st := .waiting, wait := some (oSem w, thr) } h0
    | none => faultHere k c fBadWait (oSem w) 0 h0) k c h

/-- R373: SIGNAL. -/
def signalCmd (k c : Nat) (h : Hub) : Hub :=
  issueOp 0x41 (fun w x h0 =>
    let cmds := cmdsOn k c (oMask w) h0
    if cmds = [] ∧ x.signals = [] ∧ x.marks.all (fun m => m.cmds.all (fun n => !unfinished (getCore k h0) n)) then
      applySignal k (oCore w) (oSem w) (oImm w) (issued k c x h0)
    else if 8 ≤ x.signals.length then h0
    else issued k c { x with signals := x.signals ++ [⟨oSem w, oCore w, oImm w, cmds, x.marks⟩] } h0) k c h

/-- R378: ACQUIRE. -/
def acquireCmd (k c : Nat) (h : Hub) : Hub :=
  issueOp 0x42 (fun w x h0 =>
    if oScope w = 3 then faultHere k c fBadCmd 0x42 0 h0
    else acquireDrops k (oScope w) (oMask w) (issued k c x h0)) k c h

/-- R377: RELEASE: marks whose commands are all finished hold nothing more. -/
def releaseCmd (k c : Nat) (h : Hub) : Hub :=
  issueOp 0x43 (fun w x h0 =>
    if oScope w = 3 then faultHere k c fBadCmd 0x43 0 h0
    else
      let live := x.marks.filter (fun m => m.cmds.any (unfinished (getCore k h0)))
      issued k c { x with marks := live ++ [⟨oScope w, cmdsOn k c (oMask w) h0⟩] } h0) k c h

/-- R376: FENCE. -/
def fenceCmd (k c : Nat) (h : Hub) : Hub :=
  issueOp 0x44 (fun w x h0 => issued k c { x with fence := cmdsOn k c (oMask w) h0 } h0) k c h

/-- R353: HALT. -/
def haltCmd (k c : Nat) (h : Hub) : Hub :=
  issueOp 0x60 (fun w x h0 =>
    settleCtx k c (count (corePage k) 0 1 (putCtx k c { x with ending := some (.halt (fld w 15 0)) } h0))) k c h

end Sys2Proof.Machine
end

