-- ==== Sys2Proof/Machine/Spdm.lean ====
section
/-!
DEFINITION. The SEC block's SPDM 1.2 requests (R587 to R589). DSP0274's own codes, the order it asks of a connection and
the layout of its answers come from outside the spec (PRESUMED, log entry 34).
-/
namespace Sys2Proof.Machine

/-- R588: transport 0 is the sideband, 1 and 2 DOE on C0 and C1 while the link is up. -/
def spdmUp (t : Nat) (h : Hub) : Bool :=
  h.pins.vaux3 && (if t = 0 then sideUp h else if t = 1 then h.cxl0.up else if t = 2 then h.cxl1.up else false)

def spdmOut (t code : Nat) (payload : List Byte) (h : Hub) : Hub := emit (.spdm t code payload) h

/-- R595: a request answered ERROR. -/
def spdmError (t code : Nat) (h : Hub) : Hub := spdmOut t 0x7F (bytesLE 1 code ++ [0]) (raise secPage 17 h)

def seInvalid : Nat := 0x01
def seUnexpected : Nat := 0x04
def seUnsupported : Nat := 0x07
def seSessionLimit : Nat := 0x0A

/-- A request that reaches the block, counted (R595). -/
def spdm (t : Nat) (act : Hub → Hub) (h : Hub) : Hub := if spdmUp t h then act (count secPage 0 1 h) else h

/-- A request for which GET_VERSION must have come. -/
def spdmVersioned (t : Nat) (act : Hub → Hub) (h : Hub) : Hub :=
  spdm t (fun x => if x.sec.versionDone.contains t then act x else spdmError t seUnexpected x) h

/-- A request for which the algorithms must have been agreed. -/
def spdmReady (t : Nat) (act : Hub → Hub) (h : Hub) : Hub :=
  spdm t (fun x => if x.sec.algsDone.contains t then act x else spdmError t seUnexpected x) h

/-- R588: the identity key's signature, counted (R595). -/
def spdmSign (bs : List Byte) (h : Hub) : List Byte × Hub := (Config.ecdsaSign bs, count secPage 1 1 h)

/-- R588: versions: 1.2 only. -/
def spdmVersion (t : Nat) (h : Hub) : Hub :=
  spdm t (fun x =>
    let s := x.sec
    spdmOut t 0x04 [0, 1, 0, 0x12] { x with sec := { s with
      versionDone := insertNat s.versionDone t, algsDone := s.algsDone.filter (· != t) } }) h

/-- R588: CERT, CHAL, MEAS with signature, KEY_EX, ENCRYPT, MAC, HBEAT, KEY_UPD. -/
def spdmCapabilities (t : Nat) (h : Hub) : Hub :=
  spdmVersioned t (spdmOut t 0x61 (bytesLE 4 (2 + 4 + 16 + 64 + 128 + 512 + 8192 + 16384))) h

/-- R588: ECDSA P-384, SHA-384 twice, secp384r1, AES-256-GCM. -/
def spdmAlgorithms (t : Nat) (h : Hub) : Hub :=
  spdmVersioned t (fun x => spdmOut t 0x63 (bytesLE 4 0x80 ++ bytesLE 4 0x02 ++ bytesLE 4 0x04 ++ bytesLE 2 0x10 ++ bytesLE 2 0x02)
    { x with sec := { x.sec with algsDone := insertNat x.sec.algsDone t } }) h

/-- R587: slot 0 alone. -/
def spdmDigests (t : Nat) (h : Hub) : Hub :=
  spdmReady t (fun x => spdmOut t 0x01 (1 :: Config.sha384 x.armoire.chain) x) h

/-- R587: a part of the slot 0 chain, and what is left after it. -/
def spdmCertificate (t slot off len : Nat) (h : Hub) : Hub :=
  spdmReady t (fun x =>
    let c := x.armoire.chain
    if slot ≠ 0 ∨ c.length < off then spdmError t seInvalid x
    else
      let n := min len (c.length - off)
      spdmOut t 0x02 (bytesLE 1 slot ++ bytesLE 2 n ++ bytesLE 2 (c.length - off - n) ++ sliceBytes c off n) x) h

/-- R588: CHALLENGE, signed with the identity key. -/
def spdmChallenge (t slot : Nat) (nonce : List Byte) (h : Hub) : Hub :=
  spdmReady t (fun x =>
    if slot ≠ 0 then spdmError t seInvalid x
    else
      let d := Config.sha384 x.armoire.chain
      let (sig, y) := spdmSign (nonce ++ d) x
      spdmOut t 0x03 (d ++ sig) y) h

/-- R589: block i, raw or digest. -/
def measurement (i : Nat) (h : Hub) : Option (Bool × List Byte) :=
  let a := h.armoire
  let act := (a.active.map (·.bytes)).getD []
  match i with
  | 1 => some (true, bytesLE 8 0x31424138344D4B56 ++ bytesLE 1 1 ++ bytesLE 8 a.serial)
  | 2 => some (false, Config.sha384 act)
  | 3 => some (true, bytesLE 4 (bundleSeq act) ++ bytesLE 2 (bundleFmt act))
  | 4 => some (false, Config.sha384 (a.ownerKey.getD []))
  | 5 => some (false, Config.sha384 ((a.defect.map (fun w => bytesLE 8 w.toNat)).flatten))
  | 6 => some (true, bytesLE 4 (mkFld 5 4 h.boot.pool + mkFld 3 0 h.boot.oppoint) ++ bytesLE 1 h.fitting.permit)
  | 7 => some (true, bytesLE 4 (getReg ringPage 0x100 h).toNat)
  | _ => none

/-- A block in DMTF measurement form. -/
def measurementBlock (i : Nat) (h : Hub) : List Byte :=
  match measurement i h with
  | none => []
  | some (raw, v) =>
    bytesLE 1 i ++ [1] ++ bytesLE 2 (v.length + 3) ++ bytesLE 1 (if raw then 0x83 else 0x03) ++ bytesLE 2 v.length ++ v

/-- R589: GET_MEASUREMENTS of index 0 (their number), one block, or 0xFF (all), signed where asked. -/
def spdmMeasurements (t index : Nat) (signed : Bool) (nonce : List Byte) (h : Hub) : Hub :=
  spdmReady t (fun x =>
    if 7 < index ∧ index ≠ 0xFF then spdmError t seInvalid x
    else
      let bs := if index = 0 then [7] else
        if index = 0xFF then ((natRange 1 7).map (fun i => measurementBlock i x)).flatten else measurementBlock index x
      if signed then
        (let (sig, y) := spdmSign (nonce ++ bs) x
         spdmOut t 0x60 (bs ++ sig) y)
      else spdmOut t 0x60 bs x) h

/-- R588: KEY_EXCHANGE opens a session; a fifth is refused. -/
def spdmKeyExchange (t slot : Nat) (nonce : List Byte) (h : Hub) : Hub :=
  spdmReady t (fun x =>
    if slot ≠ 0 then spdmError t seInvalid x
    else if 4 ≤ x.sec.sessions.length then spdmError t seSessionLimit (raise secPage 18 x)
    else
      let s := x.sec
      let (sig, y) := spdmSign nonce { x with sec := { s with
        sessions := s.sessions ++ [⟨s.nextSession, t, false⟩], nextSession := (s.nextSession + 1) % 65536 } }
      spdmOut t 0x64 (bytesLE 2 s.nextSession ++ sig) y) h

def spdmSession (t id : Nat) (h : Hub) : Option SpdmSession :=
  h.sec.sessions.find? (fun s => s.id == id && s.transport == t)

def setSession (v : SpdmSession) (h : Hub) : Hub :=
  let l := h.sec.sessions.map (fun s => if s.id = v.id ∧ s.transport = v.transport then v else s)
  { h with sec := { h.sec with sessions := l } }

def spdmFinish (t id : Nat) (h : Hub) : Hub :=
  spdmReady t (fun x =>
    match spdmSession t id x with
    | some s => if s.finished then spdmError t seUnexpected x else spdmOut t 0x65 [] (setSession { s with finished := true } x)
    | none => spdmError t seInvalid x) h

/-- A request that only a finished session carries. -/
def spdmInSession (t id : Nat) (act : SpdmSession → Hub → Hub) (h : Hub) : Hub :=
  spdmReady t (fun x =>
    match spdmSession t id x with
    | some s => if s.finished then act s x else spdmError t seUnexpected x
    | none => spdmError t seInvalid x) h

def spdmHeartbeat (t id : Nat) (h : Hub) : Hub := spdmInSession t id (fun _ => spdmOut t 0x68 []) h

def spdmKeyUpdate (t id : Nat) (h : Hub) : Hub := spdmInSession t id (fun _ => spdmOut t 0x69 []) h

def spdmEndSession (t id : Nat) (h : Hub) : Hub :=
  spdmInSession t id (fun s x =>
    let l := x.sec.sessions.filter (fun v => !(v.id == s.id && v.transport == s.transport))
    spdmOut t 0x6C [] { x with sec := { x.sec with sessions := l } }) h

/-- R588: IDE keys of port p are programmed only inside a session over that port's DOE; `ide`: it is IDE key management. -/
def spdmVendor (t id : Nat) (ide : Bool) (p : Nat) (h : Hub) : Hub :=
  if !ide then spdmReady t (spdmError t seUnsupported) h
  else
    spdmInSession t id (fun _ x =>
      if p < 2 ∧ t = p + 1 then
        spdmOut t 0x7E [] (putCxl p { getCxl p x with ide := true } x)
      else spdmError t seInvalid x) h

end Sys2Proof.Machine
end

