-- ==== Sys2Proof/Machine/Row.lean ====
section
/-!
DEFINITION. The shapes of a command's meaning: an event of the module, one that the other member of a pair hears of, work
of an engine, of the store, a register write on its path, a frame on its port. A meaning answers a next state; one whose
condition does not hold changes nothing.
-/
namespace Sys2Proof.Machine

abbrev Ans := Host.Outcome State Fault Refusal

def hubRow (f : Hub → Hub) (s : State) : Ans := .next (onHub f s)

/-- R607: agents lost and leases changed are sent to the other member. -/
def syncRow (f : Hub → Hub) (s : State) : Ans := .next (onHub (pairSync f) s)

/-- R107, R560, R599: engines and units work while the module serves. -/
def unitRow (f : Hub → Hub) (s : State) : Ans := .next (if serving s.hub then onHub f s else s)

/-- R107, R560: what the store has accepted goes on while the module quiesces or is fenced. -/
def storeRuns (h : Hub) : Bool := h.boot.phase == .ready || h.boot.phase == .quiescing

def storeRow (f : Hub → Hub) (s : State) : Ans := .next (if storeRuns s.hub then onHub f s else s)

def storeSyncRow (f : Hub → Hub) (s : State) : Ans := .next (if storeRuns s.hub then onHub (pairSync f) s else s)

/-- R109, R521: an event after which the hub is in reset, or has left Quiescing, empties the Pigeonholes. -/
def resetRow (f : Hub → Hub) (s : State) : Ans :=
  let t := onHub f s
  .next (if t.hub.boot.phase ≠ s.hub.boot.phase ∧ (t.hub.boot.phase = .held ∨ t.hub.boot.phase = .ledger) then pigeonReset t else t)

/-- R25, R42: a register write by a requester. -/
def regRow (r : Requester) (page off size v : Nat) (s : State) : Ans := .next (pairSyncS (regWriteFrom r page off size v) s)

/-- R251: a frame arrives on a port. -/
def frameRow (p : Nat) (f : Frame) (s : State) : Ans := .next (pairSyncS (rxFrame p f) s)

def toUnit (u : Nat) (f : Frame) : Frame := { f with dstUnit := u }

/-- R517: ADDR [7] of a frame to unit 0x87. -/
def pigeonOp (flush : Bool) (f : Frame) : Frame :=
  { f with addr := f.addr - mkFld 7 7 (nbits f.addr 7 7) + mkFld 7 7 (bit01 flush) }

/-- A command that comes as a write of the register `at_` gives, or as a frame that `mk` completes. -/
def viaRow (at_ : Nat → Nat × Nat) (mk : Frame → Frame) (via : Via) (s : State) : Ans :=
  match via with
  | .reg r i size v => regRow r (at_ i).1 (at_ i).2 size v s
  | .frame p f => frameRow p (mk f) s

/-- R47: ERR_STATUS or ERR_MASK, or the event register and mask of a page that has them. -/
def statusOff (page : Nat) (event : Bool) : Nat :=
  match (pageInfo (page % 0x1000)).bind eventRegs with
  | some e => if event then e.1 else 0x18
  | none => 0x18

def maskOff (page : Nat) (event : Bool) : Nat :=
  match (pageInfo (page % 0x1000)).bind eventRegs with
  | some e => if event then e.2 else 0x1C
  | none => 0x1C

/-- R158, R161: STU_INV_CMD and STU_PREWALK_CMD. -/
def invWord (scope tenant asid count : Nat) : Nat :=
  mkFld 63 48 asid + mkFld 43 32 tenant + mkFld 31 16 count + scope

/-- R203: TIER_CMD. -/
def tierWord (op tenant cls : Nat) : Nat := mkFld 31 20 tenant + mkFld 10 8 cls + op

/-- R539: offset and width of a shaper's register. -/
def shaperOff : ShaperReg → Nat
  | .cfg => 0x44 | .rate => 0x48 | .burst => 0x50 | .portMap p => 0x100 + 4 * p.val

def shaperSize : ShaperReg → Nat
  | .rate => 8
  | _ => 4

/-- R347: NOP. -/
def nopCmd (k c : Nat) (h : Hub) : Hub := issueOp 0x00 (fun _ x h1 => issued k c x h1) k c h

end Sys2Proof.Machine
end

