-- ==== Sys2Proof/Machine/BringCmds.lean ====
section
/-!
DEFINITION. The sequencer and the CXL links. One meaning per command of the table.
-/
namespace Sys2Proof.Machine

/-- R107: QUIESCE_DONE. -/
def execQuiesceDone (s : State) : Ans := resetRow quiesceDone s

/-- R107: QUIESCE_TIMEOUT. -/
def execQuiesceTimeout (s : State) : Ans := resetRow quiesceTimeout s

/-- R95: LEDGER_DONE. -/
def execLedgerDone (unreadable copyBad stagedOk : Bool) (s : State) : Ans :=
  hubRow (ledgerDone unreadable copyBad stagedOk) s

/-- R95: CLOCKING_DONE. -/
def execClockingDone (s : State) : Ans := .next (clockingDone s)

/-- R105: CORE_SELF_TEST_DONE. -/
def execCoreSelfTestDone (failed : List Nat) (s : State) : Ans := hubRow (coreSelfTestDone failed) s

/-- R95: TESTING_DONE. -/
def execTestingDone (report : TestReport) (s : State) : Ans := hubRow (testingDone report) s

/-- R108: RESTORING_DONE. -/
def execRestoringDone (lostHbm lostDdr : Bool) (s : State) : Ans := hubRow (restoringDone lostHbm lostDdr) s

/-- R97: T2_INIT_DONE. -/
def execT2InitDone (s : State) : Ans := hubRow (t2InitDone) s

/-- R98: CXL_LINK_UP. -/
def execCxlLinkUp (port : Fin 2) (x4 : Bool) (rate : Nat) (s : State) : Ans := hubRow (cxlLinkUp port x4 rate) s

/-- R98: CXL_CONFIG_REQUEST. -/
def execCxlConfigRequest (port : Fin 2) (ld : Nat) (write : Bool) (s : State) : Ans := hubRow (cxlConfig port ld write) s

end Sys2Proof.Machine
end

