-- ==== Sys2Proof/Machine/CohCmds.lean ====
section
/-!
DEFINITION. The coherence domain and leases. One meaning per command of the table.
-/
namespace Sys2Proof.Machine

/-- R311: COH_AGENT_WRITE. -/
def execCohAgentWrite (by_ : Requester) (agent : Fin 32) (value : Nat) (s : State) : Ans :=
  regRow by_ 0x60 (0x100 + 8 * agent.val) 8 value s

/-- R312: AGENT_HEARTBEAT_TIMEOUT. -/
def execAgentHeartbeatTimeout (agent : Fin 32) (s : State) : Ans := storeSyncRow (heartbeatTimeout agent) s

/-- R314: WALK_DONE. -/
def execWalkDone (s : State) : Ans := storeRow (walkEnd) s

/-- R316: LEASE_DEFINE. -/
def execLeaseDefine (by_ : Requester) (index : Fin 4096) (term : Nat) (s : State) : Ans :=
  regRow by_ 0x60 0x70 4 (mkFld 31 30 1 + mkFld 27 16 index.val + mkFld 15 0 term) s

/-- R316: LEASE_UNDEFINE. -/
def execLeaseUndefine (by_ : Requester) (index : Fin 4096) (term : Nat) (s : State) : Ans :=
  regRow by_ 0x60 0x70 4 (mkFld 31 30 2 + mkFld 27 16 index.val + mkFld 15 0 term) s

/-- R319: LEASE_REVOKE. -/
def execLeaseRevoke (by_ : Requester) (index : Fin 4096) (term : Nat) (s : State) : Ans :=
  regRow by_ 0x60 0x70 4 (mkFld 31 30 3 + mkFld 27 16 index.val + mkFld 15 0 term) s

/-- R317: LEASE_TAKE. -/
def execLeaseTake (by_ : Requester) (index : Fin 4096) (epoch : Nat) (s : State) : Ans :=
  regRow by_ 0x60 0x78 8 (mkFld 63 32 epoch + mkFld 31 30 1 + mkFld 27 16 index.val) s

/-- R317: LEASE_RENEW. -/
def execLeaseRenew (by_ : Requester) (index : Fin 4096) (epoch : Nat) (s : State) : Ans :=
  regRow by_ 0x60 0x78 8 (mkFld 63 32 epoch + mkFld 31 30 2 + mkFld 27 16 index.val) s

/-- R317: LEASE_GIVE. -/
def execLeaseGive (by_ : Requester) (index : Fin 4096) (epoch : Nat) (s : State) : Ans :=
  regRow by_ 0x60 0x78 8 (mkFld 63 32 epoch + mkFld 31 30 3 + mkFld 27 16 index.val) s

/-- R319: LEASE_EXPIRY. -/
def execLeaseExpiry (index : Fin 4096) (s : State) : Ans := syncRow (leaseExpire index) s

end Sys2Proof.Machine
end

