-- ==== Sys2Proof/Machine/CoreCmds.lean ====
section
/-!
DEFINITION. Compute cores, their engines and bench slots. One meaning per command of the table.
-/
namespace Sys2Proof.Machine

/-- R351: CORE_CTX_BIND_WRITE. -/
def execCoreCtxBindWrite (by_ : Requester) (core : Fin 64) (value : Nat) (s : State) : Ans :=
  regRow by_ (0x200 + core.val) 0x50 8 value s

/-- R355: START. -/
def execStart (by_ : Requester) (core : Fin 64) (s : State) : Ans := regRow by_ (0x200 + core.val) 0x90 4 1 s

/-- R353: STOP. -/
def execStop (by_ : Requester) (core : Fin 64) (s : State) : Ans := regRow by_ (0x200 + core.val) 0x90 4 2 s

/-- R351: RESET. -/
def execReset (by_ : Requester) (core : Fin 64) (s : State) : Ans := regRow by_ (0x200 + core.val) 0x90 4 3 s

/-- R354: PATTERN_LOAD. -/
def execPatternLoad (by_ : Requester) (core : Fin 64) (offset count : Nat) (s : State) : Ans :=
  regRow by_ (0x200 + core.val) 0xA8 4 (mkFld 31 30 1 + mkFld 25 13 offset + mkFld 12 0 count) s

/-- R354: PATTERN_LOAD_DONE. -/
def execPatternLoadDone (core : Fin 64) (s : State) : Ans := unitRow (patLoadDone core) s

/-- R358: COMMAND_FENCE; FENCE is bit 0 of CORE_CFG. -/
def execCommandFence (by_ : Requester) (core : Fin 64) (value : Nat) (s : State) : Ans :=
  regRow by_ (0x200 + core.val) 0x44 4 (value ||| 1) s

/-- R358: COMMAND_UNFENCE. -/
def execCommandUnfence (by_ : Requester) (core : Fin 64) (value : Nat) (s : State) : Ans :=
  regRow by_ (0x200 + core.val) 0x44 4 (value / 2 * 2) s

/-- R358: SUBSTITUTE; SUBSTITUTE is bit 2 of CORE_CFG, of a core kept fenced. -/
def execSubstitute (by_ : Requester) (core : Fin 64) (value : Nat) (s : State) : Ans :=
  regRow by_ (0x200 + core.val) 0x44 4 (value ||| 5) s

/-- R358: CORE_DRAIN_DONE. -/
def execCoreDrainDone (core : Fin 64) (s : State) : Ans := unitRow (coreDrainDone core) s

/-- R359: SUBSTITUTION_DONE. -/
def execSubstitutionDone (core : Fin 64) (pass : Bool) (s : State) : Ans := unitRow (substDone core pass) s

/-- R366: BENCH_TEST. -/
def execBenchTest (by_ : Requester) (slot : Fin 8) (s : State) : Ans := regRow by_ (0x240 + slot.val) 0x44 4 1 s

/-- R366: BENCH_TEST_DONE. -/
def execBenchTestDone (slot : Fin 8) (pass : Bool) (s : State) : Ans := unitRow (benchTestDone slot pass) s

/-- R363: CORE_FAULT_POP. -/
def execCoreFaultPop (by_ : Requester) (core : Fin 64) (s : State) : Ans := regRow by_ (0x200 + core.val) 0xD0 4 1 s

/-- R374: CORE_SEM_WRITE. -/
def execCoreSemWrite (by_ : Requester) (core sem : Fin 64) (value : Nat) (s : State) : Ans :=
  regRow by_ (0x200 + core.val) (0x400 + 4 * sem.val) 4 value s

/-- R356: WATCHDOG. -/
def execWatchdog (core : Fin 64) (ctx : Fin 8) (s : State) : Ans := unitRow (fun h => svcSettle (watchdog core ctx h)) s

/-- R367: ENGINE_COMMAND_FINISH. -/
def execEngineCommandFinish (core : Fin 64) (engine : EngineId) (s : State) : Ans :=
  unitRow (fun h => svcSettle (engineFinish core engine h)) s

/-- R349: DMA_IN. -/
def execDmaIn (core : Fin 64) (queue : Fin 2) (s : State) : Ans := unitRow (fun h => svcSettle (dmaMove core queue 1 h)) s

/-- R349: DMA_OUT. -/
def execDmaOut (core : Fin 64) (queue : Fin 2) (s : State) : Ans := unitRow (fun h => svcSettle (dmaMove core queue 2 h)) s

/-- R348: DMA_ATOMIC. -/
def execDmaAtomic (core : Fin 64) (queue : Fin 2) (s : State) : Ans :=
  unitRow (fun h => svcSettle (dmaAtomic core queue h)) s

/-- R348: DMA_ADVANCE. -/
def execDmaAdvance (core : Fin 64) (queue : Fin 2) (s : State) : Ans :=
  unitRow (fun h => svcSettle (dmaAdvance core queue h)) s

/-- R348: DMA_PIGEON. -/
def execDmaPigeon (core : Fin 64) (queue : Fin 2) (s : State) : Ans :=
  .next (if serving s.hub then onHub svcSettle (dmaPigeon core queue s) else s)

/-- R372: LINE_BUFFER_EXPIRY. -/
def execLineBufferExpiry (core : Fin 64) (queue : Fin 2) (s : State) : Ans := unitRow (bufExpire core queue) s

/-- R373: SIGNAL_APPLY. -/
def execSignalApply (core : Fin 64) (ctx : Fin 8) (s : State) : Ans :=
  unitRow (fun h => svcSettle (signalApply core ctx h)) s

end Sys2Proof.Machine
end

