-- ==== Sys2Proof/Machine/CursorCmds.lean ====
section
/-!
DEFINITION. The Cursor Engine. One meaning per command of the table.
-/
namespace Sys2Proof.Machine

/-- R238: CURSOR_DEFINE. -/
def execCursorDefine (by_ : Requester) (s : State) : Ans := regRow by_ 0xB0 0x60 4 1 s

/-- R214: CURSOR_RELEASE. -/
def execCursorRelease (by_ : Requester) (s : State) : Ans := regRow by_ 0xB0 0x60 4 2 s

/-- R239: CURSOR_DEF_WRITE; CURSOR_BIND or CURSOR_DEF. -/
def execCursorDefWrite (by_ : Requester) (bind : Bool) (value : Nat) (s : State) : Ans :=
  regRow by_ 0xB0 (if bind then 0x50 else 0x48) 8 value s

/-- R216: CURSOR_ADVANCE. -/
def execCursorAdvance (via : Via) (s : State) : Ans :=
  viaRow (fun _ => (0xB0, 0x80)) (fun f => toUnit 0x82 (asOp 0x10 f)) via s

/-- R225: DRAWER_WORK_DONE. -/
def execDrawerWorkDone (drawer : Fin 4096) (s : State) : Ans := unitRow (drawerWorkDone drawer) s

/-- R214: CURSOR_IDLE_EXPIRY. -/
def execCursorIdleExpiry (cursor : Fin 64) (s : State) : Ans := unitRow (cursorIdle cursor) s

/-- R221: DRAWER_WRITE. -/
def execDrawerWrite (by_ : Requester) (index : Fin 4096) (s : State) : Ans :=
  regRow by_ 0xB0 0xC0 4 (mkFld 31 30 1 + index.val) s

/-- R241: DRAWER_READ. -/
def execDrawerRead (by_ : Requester) (index : Fin 4096) (s : State) : Ans :=
  regRow by_ 0xB0 0xC0 4 (mkFld 31 30 2 + index.val) s

/-- R231: DRAWER_DELETE. -/
def execDrawerDelete (by_ : Requester) (index : Fin 4096) (s : State) : Ans :=
  regRow by_ 0xB0 0xC0 4 (mkFld 31 30 3 + index.val) s

/-- R242: REPORT_POP. -/
def execReportPop (by_ : Requester) (s : State) : Ans := regRow by_ 0xB0 0xE0 4 1 s

end Sys2Proof.Machine
end

