-- ==== Sys2Proof/Machine/FrameCmds.lean ====
section
/-!
DEFINITION. Yumer frames. One meaning per command of the table.
-/
namespace Sys2Proof.Machine

/-- R256: READ. -/
def execRead (port : Fin 28) (f : Frame) (s : State) : Ans := frameRow port (asOp 1 f) s

/-- R256: WRITE. -/
def execWrite (port : Fin 28) (f : Frame) (s : State) : Ans := frameRow port (asOp 2 f) s

/-- R256: WRITE_POSTED. -/
def execWritePosted (port : Fin 28) (f : Frame) (s : State) : Ans := frameRow port (asOp 3 f) s

/-- R259: ATOMIC_ADD. -/
def execAtomicAdd (port : Fin 28) (f : Frame) (s : State) : Ans := frameRow port (asAux 0x1 (asOp 4 f)) s

/-- R259: ATOMIC_AND. -/
def execAtomicAnd (port : Fin 28) (f : Frame) (s : State) : Ans := frameRow port (asAux 0x2 (asOp 4 f)) s

/-- R259: ATOMIC_OR. -/
def execAtomicOr (port : Fin 28) (f : Frame) (s : State) : Ans := frameRow port (asAux 0x3 (asOp 4 f)) s

/-- R259: ATOMIC_XOR. -/
def execAtomicXor (port : Fin 28) (f : Frame) (s : State) : Ans := frameRow port (asAux 0x4 (asOp 4 f)) s

/-- R259: ATOMIC_SWAP. -/
def execAtomicSwap (port : Fin 28) (f : Frame) (s : State) : Ans := frameRow port (asAux 0x5 (asOp 4 f)) s

/-- R259: ATOMIC_CAS. -/
def execAtomicCas (port : Fin 28) (f : Frame) (s : State) : Ans := frameRow port (asAux 0x6 (asOp 4 f)) s

/-- R259: ATOMIC_SMIN. -/
def execAtomicSmin (port : Fin 28) (f : Frame) (s : State) : Ans := frameRow port (asAux 0x7 (asOp 4 f)) s

/-- R259: ATOMIC_SMAX. -/
def execAtomicSmax (port : Fin 28) (f : Frame) (s : State) : Ans := frameRow port (asAux 0x8 (asOp 4 f)) s

/-- R259: ATOMIC_UMIN. -/
def execAtomicUmin (port : Fin 28) (f : Frame) (s : State) : Ans := frameRow port (asAux 0x9 (asOp 4 f)) s

/-- R259: ATOMIC_UMAX. -/
def execAtomicUmax (port : Fin 28) (f : Frame) (s : State) : Ans := frameRow port (asAux 0xa (asOp 4 f)) s

/-- R259: ATOMIC_FADD32. -/
def execAtomicFadd32 (port : Fin 28) (f : Frame) (s : State) : Ans := frameRow port (asAux 0x10 (asOp 4 f)) s

/-- R257: FLUSH. -/
def execFlush (port : Fin 28) (f : Frame) (s : State) : Ans := frameRow port (asOp 5 f) s

/-- R260: TILE_WRITE. -/
def execTileWrite (port : Fin 28) (f : Frame) (s : State) : Ans := frameRow port (asOp 6 f) s

/-- R614: REG_READ. -/
def execRegRead (port : Fin 28) (f : Frame) (s : State) : Ans := frameRow port (asOp 8 f) s

/-- R614: REG_WRITE. -/
def execRegWrite (port : Fin 28) (f : Frame) (s : State) : Ans := frameRow port (asOp 9 f) s

/-- R255: COMPLETION. -/
def execCompletion (port : Fin 28) (f : Frame) (s : State) : Ans := frameRow port (asOp 0x20 f) s

/-- R275: FRAME_FORWARD. -/
def execFrameForward (port : Fin 28) (f : Frame) (s : State) : Ans := frameRow port (f) s

/-- R250: RESERVED_OPCODE. -/
def execReservedOpcode (port : Fin 28) (f : Frame) (s : State) : Ans := frameRow port (f) s

/-- R305: COH_RD_SHARED. -/
def execCohRdShared (port : Fin 28) (f : Frame) (s : State) : Ans := frameRow port (asOp 0x50 f) s

/-- R305: COH_RD_OWN. -/
def execCohRdOwn (port : Fin 28) (f : Frame) (s : State) : Ans := frameRow port (asOp 0x51 f) s

/-- R305: COH_UPGRADE. -/
def execCohUpgrade (port : Fin 28) (f : Frame) (s : State) : Ans := frameRow port (asOp 0x52 f) s

/-- R306: COH_WB. -/
def execCohWb (port : Fin 28) (f : Frame) (s : State) : Ans := frameRow port (asOp 0x53 f) s

/-- R301: COH_EVICT. -/
def execCohEvict (port : Fin 28) (f : Frame) (s : State) : Ans := frameRow port (asOp 0x54 f) s

/-- R307: COH_HEARTBEAT. -/
def execCohHeartbeat (port : Fin 28) (f : Frame) (s : State) : Ans := frameRow port (asOp 0x55 f) s

/-- R308: COH_FWD_DATA. -/
def execCohFwdData (port : Fin 28) (f : Frame) (s : State) : Ans := frameRow port (asOp 0x5a f) s

/-- R305: SNOOP_RESPONSE. -/
def execSnoopResponse (port : Fin 28) (f : Frame) (s : State) : Ans := frameRow port (toUnit 0x89 (asOp 0x20 f)) s

/-- R355: WORK. -/
def execWork (port : Fin 28) (f : Frame) (s : State) : Ans := frameRow port (toUnit (f.dstUnit % 128) (asOp 0x11 f)) s

/-- R392: ATTEND. -/
def execAttend (port : Fin 28) (f : Frame) (s : State) : Ans := frameRow port (toUnit 0x83 (asAux 0x1 (asOp 0x11 f))) s

/-- R420: PUSH. -/
def execPush (port : Fin 28) (f : Frame) (s : State) : Ans := frameRow port (toUnit 0x83 (asAux 0x2 (asOp 0x11 f))) s

/-- R424: APPEND. -/
def execAppend (port : Fin 28) (f : Frame) (s : State) : Ans := frameRow port (toUnit 0x83 (asAux 0x3 (asOp 0x11 f))) s

/-- R425: SPILL. -/
def execSpill (port : Fin 28) (f : Frame) (s : State) : Ans := frameRow port (toUnit 0x83 (asAux 0x4 (asOp 0x11 f))) s

/-- R425: FETCH. -/
def execFetch (port : Fin 28) (f : Frame) (s : State) : Ans := frameRow port (toUnit 0x83 (asAux 0x5 (asOp 0x11 f))) s

/-- R426: OFFER. -/
def execOffer (port : Fin 28) (f : Frame) (s : State) : Ans := frameRow port (toUnit 0x83 (asAux 0x8 (asOp 0x11 f))) s

/-- R427: ACCEPT. -/
def execAccept (port : Fin 28) (f : Frame) (s : State) : Ans := frameRow port (toUnit 0x83 (asAux 0x9 (asOp 0x11 f))) s

/-- R427: DECLINE. -/
def execDecline (port : Fin 28) (f : Frame) (s : State) : Ans := frameRow port (toUnit 0x83 (asAux 0xa (asOp 0x11 f))) s

/-- R427: WITHDRAW. -/
def execWithdraw (port : Fin 28) (f : Frame) (s : State) : Ans := frameRow port (toUnit 0x83 (asAux 0xb (asOp 0x11 f))) s

/-- R428: WHO_OWNS. -/
def execWhoOwns (port : Fin 28) (f : Frame) (s : State) : Ans := frameRow port (toUnit 0x83 (asAux 0xc (asOp 0x11 f))) s

/-- R429: TICKET_RELEASE. -/
def execTicketRelease (port : Fin 28) (f : Frame) (s : State) : Ans :=
  frameRow port (toUnit 0x83 (asAux 0xd (asOp 0x11 f))) s

/-- R419: CREATE. -/
def execCreate (port : Fin 28) (f : Frame) (s : State) : Ans := frameRow port (toUnit 0x83 (asAux 0x10 (asOp 0x11 f))) s

/-- R430: MIRROR_CREATE. -/
def execMirrorCreate (port : Fin 28) (f : Frame) (s : State) : Ans :=
  frameRow port (toUnit 0x83 (asAux 0x20 (asOp 0x11 f))) s

/-- R431: MIRROR_UPDATE. -/
def execMirrorUpdate (port : Fin 28) (f : Frame) (s : State) : Ans :=
  frameRow port (toUnit 0x83 (asAux 0x21 (asOp 0x11 f))) s

/-- R432: PROBE. -/
def execProbe (port : Fin 28) (f : Frame) (s : State) : Ans := frameRow port (toUnit 0x83 (asAux 0x22 (asOp 0x11 f))) s

/-- R431: MIRROR_DROP. -/
def execMirrorDrop (port : Fin 28) (f : Frame) (s : State) : Ans := frameRow port (toUnit 0x83 (asAux 0x23 (asOp 0x11 f))) s

/-- R432: MIRROR_REQUEST. -/
def execMirrorRequest (port : Fin 28) (f : Frame) (s : State) : Ans := frameRow port (toUnit 0x83 (asOp 0x11 f)) s

/-- R449: GATHER. -/
def execGather (port : Fin 28) (f : Frame) (s : State) : Ans := frameRow port (toUnit 0x84 (asAux 0x1 (asOp 0x11 f))) s

/-- R450: POOL. -/
def execPool (port : Fin 28) (f : Frame) (s : State) : Ans := frameRow port (toUnit 0x84 (asAux 0x2 (asOp 0x11 f))) s

/-- R452: SCATTER. -/
def execScatter (port : Fin 28) (f : Frame) (s : State) : Ans := frameRow port (toUnit 0x84 (asAux 0x3 (asOp 0x11 f))) s

/-- R460: CUTOVER. -/
def execCutover (port : Fin 28) (f : Frame) (s : State) : Ans := frameRow port (toUnit 0x84 (asAux 0x20 (asOp 0x11 f))) s

/-- R477: QUERY. -/
def execQuery (port : Fin 28) (f : Frame) (s : State) : Ans := frameRow port (toUnit 0x85 (asAux 0x1 (asOp 0x11 f))) s

/-- R481: INSERT. -/
def execInsert (port : Fin 28) (f : Frame) (s : State) : Ans := frameRow port (toUnit 0x85 (asAux 0x2 (asOp 0x11 f))) s

/-- R482: DELETE. -/
def execDelete (port : Fin 28) (f : Frame) (s : State) : Ans := frameRow port (toUnit 0x85 (asAux 0x3 (asOp 0x11 f))) s

end Sys2Proof.Machine
end

