-- ==== Sys2Proof/Machine/HostCmds.lean ====
section
/-!
DEFINITION. CXL.mem, mailboxes and the FM API. One meaning per command of the table.
-/
namespace Sys2Proof.Machine

/-- R496: MEMRD. -/
def execMemrd (port : Fin 2) (ld : Fin 16) (hpa tag : Nat) (s : State) : Ans :=
  hubRow (overCxl port (memRd port ld hpa tag)) s

/-- R496: MEMRDDATA. -/
def execMemrddata (port : Fin 2) (ld : Fin 16) (hpa tag : Nat) (s : State) : Ans :=
  hubRow (overCxl port (memRd port ld hpa tag)) s

/-- R496: MEMSPECRD; accepted and ignored. -/
def execMemspecrd (_port : Fin 2) (_ld : Fin 16) (_hpa _tag : Nat) (s : State) : Ans := hubRow (id) s

/-- R496: MEMWR. -/
def execMemwr (port : Fin 2) (ld : Fin 16) (hpa tag : Nat) (data : List Byte) (poison : Bool) (s : State) : Ans :=
  hubRow (overCxl port (memWr port ld hpa tag data [] poison)) s

/-- R496: MEMWRPTL. -/
def execMemwrptl (port : Fin 2) (ld : Fin 16) (hpa tag : Nat) (data : List Byte) (enables : List Bool) (poison : Bool) (s : State) : Ans :=
  hubRow (overCxl port (memWr port ld hpa tag data enables poison)) s

/-- R495: IDENTIFY_MEMORY_DEVICE. -/
def execIdentifyMemoryDevice (port : Fin 2) (ld : Fin 16) (s : State) : Ans :=
  hubRow (overCxl port (identifyMemory port ld)) s

/-- R495: GET_EVENT_RECORDS. -/
def execGetEventRecords (port : Fin 2) (ld : Fin 17) (s : State) : Ans := hubRow (overCxl port (getEventRecords port ld)) s

/-- R495: CLEAR_EVENT_RECORDS. -/
def execClearEventRecords (port : Fin 2) (ld : Fin 17) (handles : List Nat) (s : State) : Ans :=
  hubRow (overCxl port (clearEventRecords port ld handles)) s

/-- R495: GET_DYNAMIC_CAPACITY_CONFIGURATION. -/
def execGetDynamicCapacityConfiguration (port : Fin 2) (ld : Fin 16) (s : State) : Ans :=
  hubRow (overCxl port (getDcConfig port ld)) s

/-- R495: GET_DYNAMIC_CAPACITY_EXTENT_LIST. -/
def execGetDynamicCapacityExtentList (port : Fin 2) (ld : Fin 16) (s : State) : Ans :=
  hubRow (overCxl port (getDcExtents port ld)) s

/-- R498: ADD_DYNAMIC_CAPACITY_RESPONSE. -/
def execAddDynamicCapacityResponse (port : Fin 2) (ld : Fin 16) (ranges : List (Nat × Nat)) (s : State) : Ans :=
  hubRow (overCxl port (dcResponse port ld ranges)) s

/-- R498: RELEASE_DYNAMIC_CAPACITY. -/
def execReleaseDynamicCapacity (port : Fin 2) (ld : Fin 16) (ranges : List (Nat × Nat)) (s : State) : Ans :=
  hubRow (overCxl port (dcRelease port ld ranges)) s

/-- R495: GET_LD_INFO. -/
def execGetLdInfo (port : Fin 2) (s : State) : Ans := hubRow (overCxl port (getLdInfo port)) s

/-- R495: GET_QOS_CONTROL. -/
def execGetQosControl (port : Fin 2) (s : State) : Ans := hubRow (overCxl port (getQosControl port)) s

/-- R503: SET_QOS_CONTROL. -/
def execSetQosControl (port : Fin 2) (control moderate severe interval basis collection : Nat) (s : State) : Ans :=
  hubRow (overCxl port (setQosControl port control moderate severe interval basis collection)) s

/-- R503: GET_QOS_STATUS. -/
def execGetQosStatus (port : Fin 2) (ld : Fin 16) (s : State) : Ans := hubRow (overCxl port (getQosStatus port ld)) s

/-- R538: GET_QOS_ALLOCATED_BW. -/
def execGetQosAllocatedBw (port : Fin 2) (ld : Fin 16) (count : Nat) (s : State) : Ans :=
  hubRow (overCxl port (getQosBw false port ld count)) s

/-- R538: SET_QOS_ALLOCATED_BW. -/
def execSetQosAllocatedBw (port : Fin 2) (ld : Fin 16) (fractions : List Nat) (s : State) : Ans :=
  hubRow (overCxl port (setQosBw false port ld fractions)) s

/-- R538: GET_QOS_BW_LIMIT. -/
def execGetQosBwLimit (port : Fin 2) (ld : Fin 16) (count : Nat) (s : State) : Ans :=
  hubRow (overCxl port (getQosBw true port ld count)) s

/-- R538: SET_QOS_BW_LIMIT. -/
def execSetQosBwLimit (port : Fin 2) (ld : Fin 16) (fractions : List Nat) (s : State) : Ans :=
  hubRow (overCxl port (setQosBw true port ld fractions)) s

/-- R495: GET_DCD_INFO. -/
def execGetDcdInfo (port : Fin 2) (s : State) : Ans := hubRow (overCxl port (getDcdInfo port)) s

/-- R495: GET_HOST_DC_REGION_CONFIGURATION. -/
def execGetHostDcRegionConfiguration (port : Fin 2) (host : Nat) (s : State) : Ans :=
  hubRow (overCxl port (getHostDcConfig port host)) s

/-- R495: SET_DC_REGION_CONFIGURATION. -/
def execSetDcRegionConfiguration (port : Fin 2) (host region blockSize : Nat) (s : State) : Ans :=
  hubRow (overCxl port (setDcConfig port host region blockSize)) s

/-- R495: GET_DC_REGION_EXTENT_LISTS. -/
def execGetDcRegionExtentLists (port : Fin 2) (host : Nat) (s : State) : Ans :=
  hubRow (overCxl port (getDcRegionExtents port host)) s

/-- R497: INITIATE_DYNAMIC_CAPACITY_ADD. -/
def execInitiateDynamicCapacityAdd (port : Fin 2) (ld : Fin 16) (extents : List (Nat × Nat × Word)) (s : State) : Ans :=
  hubRow (overCxl port (dcAdd port ld extents)) s

/-- R498: INITIATE_DYNAMIC_CAPACITY_RELEASE. -/
def execInitiateDynamicCapacityRelease (port : Fin 2) (ld : Fin 16) (forced : Bool) (ranges : List (Nat × Nat)) (s : State) : Ans :=
  hubRow (overCxl port (dcInitRelease port ld forced ranges)) s

/-- R499: DRAIN_TIMEOUT. -/
def execDrainTimeout (port : Fin 2) (extent : Fin 4096) (s : State) : Ans := storeRow (drainTimeout port extent) s

/-- R495: HDM_DECODER_COMMIT. -/
def execHdmDecoderCommit (port : Fin 2) (ld : Fin 16) (decoder : Fin 2) (base size dpa ways : Nat) (s : State) : Ans :=
  hubRow (overCxl port (decoderCommit port ld decoder base size dpa ways)) s

/-- R523: CXLP_LD_WRITE. -/
def execCxlpLdWrite (by_ : Requester) (port : Fin 2) (value : Nat) (s : State) : Ans :=
  regRow by_ (0x30 + port.val) 0x50 8 value s

/-- R505: OPEN_MODE_WRITE. -/
def execOpenModeWrite (by_ : Requester) (port : Fin 2) (value : Nat) (s : State) : Ans :=
  regRow by_ (0x30 + port.val) 0x44 4 value s

end Sys2Proof.Machine
end

