-- ==== Sys2Proof/Machine/LinkCmds.lean ====
section
/-!
DEFINITION. Time-sync frames and the Yumer links. One meaning per command of the table.
-/
namespace Sys2Proof.Machine

/-- R263: TIME_SYNC. -/
def execTimeSync (port : Fin 28) (tx echoTx echoRx hops : Nat) (s : State) : Ans :=
  hubRow (timeSync port tx echoTx echoRx hops) s

/-- R234: SYNC_SEND_TIMER. -/
def execSyncSendTimer (s : State) : Ans := hubRow (syncSend) s

/-- R235: SYNC_LOSS_TIMEOUT. -/
def execSyncLossTimeout (s : State) : Ans := hubRow (syncLoss) s

/-- R235: MASTER_TIMEOUT. -/
def execMasterTimeout (s : State) : Ans := hubRow (masterTimeout) s

/-- R251: LINK_CTRL. -/
def execLinkCtrl (port : Fin 28) (ack : Nat) (replayFrom : Option Nat) (credits : List Nat) (s : State) : Ans :=
  hubRow (linkCtrl port ack replayFrom credits) s

/-- R251: LINK_CTRL_SEND_TIMER. -/
def execLinkCtrlSendTimer (port : Fin 28) (s : State) : Ans := hubRow (linkCtrlSend port) s

/-- R251: REPLAY_TIMEOUT. -/
def execReplayTimeout (port : Fin 28) (s : State) : Ans := syncRow (replayExpiry port) s

/-- R251: FRAME_CRC_FAIL; an uncorrectable codeword, a failing HCRC, a failing FCRC, or a stomped frame. -/
def execFrameCrcFail (port : Fin 28) (f : Frame) (kind : Fin 4) (s : State) : Ans :=
  (if kind.val = 3 then frameRow port { f with stomped := true } s else hubRow (badFrame port f kind) s)

/-- R264: DEAD_TARGET_EXPIRY. -/
def execDeadTargetExpiry (tag : Nat) (s : State) : Ans := storeSyncRow (deadExpiry tag) s

/-- R260: TILE_WRITE_INCOMPLETE. -/
def execTileWriteIncomplete (s : State) : Ans := storeRow (tileWriteExpire) s

end Sys2Proof.Machine
end

