-- ==== Sys2Proof/Machine/PageCmds.lean ====
section
/-!
DEFINITION. Writes of any register page, of the RING, BRINGUP and DEFECT pages. One meaning per command of the table.
-/
namespace Sys2Proof.Machine

/-- R28: REGISTER_WRITE. -/
def execRegisterWrite (by_ : Requester) (page off size value : Nat) (s : State) : Ans := regRow by_ page off size value s

/-- R44: OWNER_WRITE. -/
def execOwnerWrite (by_ : Requester) (page value : Nat) (s : State) : Ans := regRow by_ page 0x38 8 value s

/-- R39: ERR_INJECT_ARM; ARM is bit 8. -/
def execErrInjectArm (by_ : Requester) (page value : Nat) (s : State) : Ans := regRow by_ page 0x28 8 (value ||| 0x100) s

/-- R34: CNT_CLEAR; CNT_CLEAR is bit 2 of CTRL. -/
def execCntClear (by_ : Requester) (page value : Nat) (s : State) : Ans := regRow by_ page 0x10 4 (value ||| 4) s

/-- R47: ERR_STATUS_CLEAR; ERR_STATUS, or the page's event register. -/
def execErrStatusClear (by_ : Requester) (page : Nat) (event : Bool) (bits : Nat) (s : State) : Ans :=
  regRow by_ page (statusOff page event) 4 bits s

/-- R49: COUNTER_SLOT_WRITE. -/
def execCounterSlotWrite (by_ : Requester) (page : Nat) (slot : Fin 256) (size value : Nat) (s : State) : Ans :=
  regRow by_ page (0x800 + 8 * slot.val) size value s

/-- R34: CTRL_ENABLE_WRITE. -/
def execCtrlEnableWrite (by_ : Requester) (page value : Nat) (s : State) : Ans := regRow by_ page 0x10 4 value s

/-- R47: ERR_MASK_WRITE; ERR_MASK, or the page's event mask. -/
def execErrMaskWrite (by_ : Requester) (page : Nat) (event : Bool) (value : Nat) (s : State) : Ans :=
  regRow by_ page (maskOff page event) 4 value s

/-- R282: FEATURE_FLOOR_WRITE. -/
def execFeatureFloorWrite (by_ : Requester) (value : Nat) (s : State) : Ans := regRow by_ 0x348 0x100 4 value s

/-- R84: JOIN_EN. -/
def execJoinEn (by_ : Requester) (value : Nat) (s : State) : Ans := regRow by_ 0x348 0x40 4 value s

/-- R84: CLOSE_CMD; CLOSE_CMD is bit 3 of RING_CTRL. -/
def execCloseCmd (by_ : Requester) (value : Nat) (s : State) : Ans := regRow by_ 0x348 0x40 4 (value ||| 8) s

/-- R287: NEAR_LOOP_WRITE. -/
def execNearLoopWrite (by_ : Requester) (port : Fin 28) (value : Nat) (s : State) : Ans :=
  regRow by_ (0x10 + port.val) 0x40 4 value s

/-- R117: COLD; COLD is bit 1 of BRINGUP_CTRL. -/
def execCold (by_ : Requester) (value : Nat) (s : State) : Ans := regRow by_ 0x330 0x40 4 (value ||| 2) s

/-- R93: WARM; WARM is bit 0 of BRINGUP_CTRL. -/
def execWarm (by_ : Requester) (s : State) : Ans := regRow by_ 0x330 0x40 4 1 s

/-- R126: DEFECT_ADD. -/
def execDefectAdd (by_ : Requester) (s : State) : Ans := regRow by_ 0x338 0x40 4 1 s

/-- R126: DEFECT_REMOVE. -/
def execDefectRemove (by_ : Requester) (s : State) : Ans := regRow by_ 0x338 0x40 4 2 s

end Sys2Proof.Machine
end

