-- ==== Sys2Proof/Machine/PathCmds.lean ====
section
/-!
DEFINITION. Ring paths and Yumer port training. One meaning per command of the table.
-/
namespace Sys2Proof.Machine

/-- R76: PATH_START_LOOPBACK. -/
def execPathStartLoopback (path : PathId) (s : State) : Ans := hubRow (pathStart path) s

/-- R76: LOOPBACK_QUAL_PASS. -/
def execLoopbackQualPass (path : PathId) (s : State) : Ans := hubRow (loopPass path) s

/-- R76: LOOPBACK_QUAL_FAIL. -/
def execLoopbackQualFail (path : PathId) (s : State) : Ans := hubRow (loopFail path) s

/-- R77: PATH_OPEN_DRIVE. -/
def execPathOpenDrive (path : PathId) (s : State) : Ans := hubRow (pathOpen path) s

/-- R76: SWITCH_SENSED_OPEN. -/
def execSwitchSensedOpen (path : PathId) (s : State) : Ans := hubRow (sensedOpen path) s

/-- R76: OPENING_TIMEOUT. -/
def execOpeningTimeout (path : PathId) (s : State) : Ans := hubRow (openingTimeout path) s

/-- R76: JOIN_PASS. -/
def execJoinPass (path : PathId) (s : State) : Ans := hubRow (joinPass path) s

/-- R76: JOINING_TIMEOUT. -/
def execJoiningTimeout (path : PathId) (s : State) : Ans := hubRow (joiningTimeout path) s

/-- R77: CLOSING_CONDITION. -/
def execClosingCondition (path : PathId) (s : State) : Ans := syncRow (pathCondition path) s

/-- R76: SWITCH_SENSED_CLOSED. -/
def execSwitchSensedClosed (path : PathId) (s : State) : Ans := hubRow (sensedClosed path) s

/-- R90: CLOSING_TIMEOUT. -/
def execClosingTimeout (path : PathId) (s : State) : Ans := hubRow (closingTimeout path) s

/-- R87: RING_RXPWR_UPDATE. -/
def execRingRxpwrUpdate (powers : List Nat) (s : State) : Ans := hubRow (rxPowerUpdate powers) s

/-- R99: PORT_DETECT_START. -/
def execPortDetectStart (port : Fin 28) (s : State) : Ans := hubRow (detectStart port) s

/-- R99: PARTNER_DETECTED. -/
def execPartnerDetected (port : Fin 28) (txLanes rxLanes : Nat) (s : State) : Ans :=
  hubRow (partnerDetected port txLanes rxLanes) s

/-- R99: EQUALISE_DONE. -/
def execEqualiseDone (port : Fin 28) (txFail rxFail : List Nat) (s : State) : Ans :=
  hubRow (equaliseDone port txFail rxFail) s

/-- R114: LANEMAP_DONE. -/
def execLanemapDone (port : Fin 28) (vkm : Bool) (level module role : Nat) (ownPort : Option Nat) (s : State) : Ans :=
  hubRow (laneMapDone port vkm level module role ownPort) s

/-- R100: QUALIFY_SOAK_END. -/
def execQualifySoakEnd (port : Fin 28) (txFail rxFail : List Nat) (s : State) : Ans :=
  hubRow (fun h => meetLane port (soakEnd port txFail rxFail h)) s

/-- R99: LINK_LOSS. -/
def execLinkLoss (port : Fin 28) (s : State) : Ans := syncRow (linkLoss port) s

/-- R99: RETRY_TIMER_EXPIRY. -/
def execRetryTimerExpiry (port : Fin 28) (s : State) : Ans := hubRow (retryExpiry port) s

/-- R559: LANE_BER_LIMIT. -/
def execLaneBerLimit (port : Fin 28) (rx : Bool) (lane : Nat) (uncorrectable : Bool) (s : State) : Ans :=
  syncRow (laneBer port rx lane uncorrectable) s

end Sys2Proof.Machine
end

