-- ==== Sys2Proof/Machine/PatternCmds.lean ====
section
/-!
DEFINITION. The commands of pattern memory. One meaning per command of the table.
-/
namespace Sys2Proof.Machine

/-- R347: NOP. -/
def execNop (core : Fin 64) (ctx : Fin 8) (s : State) : Ans := hubRow (nopCmd core ctx) s

/-- R347: ADDI. -/
def execAddi (core : Fin 64) (ctx : Fin 8) (s : State) : Ans :=
  hubRow (scalarRd 0x01 (fun w x => sreg x (sRa w) + sImm w) core ctx) s

/-- R347: ADD. -/
def execAdd (core : Fin 64) (ctx : Fin 8) (s : State) : Ans := hubRow (scalarRR 0x02 (· + ·) core ctx) s

/-- R347: SUB. -/
def execSub (core : Fin 64) (ctx : Fin 8) (s : State) : Ans := hubRow (scalarRR 0x03 (· - ·) core ctx) s

/-- R347: MUL. -/
def execMul (core : Fin 64) (ctx : Fin 8) (s : State) : Ans := hubRow (scalarRR 0x04 (· * ·) core ctx) s

/-- R347: AND. -/
def execAnd (core : Fin 64) (ctx : Fin 8) (s : State) : Ans := hubRow (scalarRR 0x05 (· &&& ·) core ctx) s

/-- R347: OR. -/
def execOr (core : Fin 64) (ctx : Fin 8) (s : State) : Ans := hubRow (scalarRR 0x06 (· ||| ·) core ctx) s

/-- R347: XOR. -/
def execXor (core : Fin 64) (ctx : Fin 8) (s : State) : Ans := hubRow (scalarRR 0x07 (· ^^^ ·) core ctx) s

/-- R347: SHL. -/
def execShl (core : Fin 64) (ctx : Fin 8) (s : State) : Ans := hubRow (scalarRR 0x08 (fun a b => a <<< fld b 5 0) core ctx) s

/-- R347: SHR. -/
def execShr (core : Fin 64) (ctx : Fin 8) (s : State) : Ans := hubRow (scalarRR 0x09 (fun a b => a >>> fld b 5 0) core ctx) s

/-- R347: MOVHI. -/
def execMovhi (core : Fin 64) (ctx : Fin 8) (s : State) : Ans := hubRow (scalarRd 0x0A movhiVal core ctx) s

/-- R369: LD. -/
def execLd (core : Fin 64) (ctx : Fin 8) (s : State) : Ans := hubRow (loadWord core ctx) s

/-- R369: ST. -/
def execSt (core : Fin 64) (ctx : Fin 8) (s : State) : Ans := hubRow (storeWord core ctx) s

/-- R347: CSR. -/
def execCsr (core : Fin 64) (ctx : Fin 8) (s : State) : Ans := hubRow (readCsr core ctx) s

/-- R347: BEQ. -/
def execBeq (core : Fin 64) (ctx : Fin 8) (s : State) : Ans := hubRow (branchOn 0x10 (· == ·) core ctx) s

/-- R347: BNE. -/
def execBne (core : Fin 64) (ctx : Fin 8) (s : State) : Ans := hubRow (branchOn 0x11 (· != ·) core ctx) s

/-- R347: BLT. -/
def execBlt (core : Fin 64) (ctx : Fin 8) (s : State) : Ans := hubRow (branchOn 0x12 BitVec.slt core ctx) s

/-- R347: BLTU. -/
def execBltu (core : Fin 64) (ctx : Fin 8) (s : State) : Ans := hubRow (branchOn 0x13 BitVec.ult core ctx) s

/-- R347: JMP. -/
def execJmp (core : Fin 64) (ctx : Fin 8) (s : State) : Ans := hubRow (branchOn 0x14 (fun _ _ => true) core ctx) s

/-- R347: LOOP. -/
def execLoop (core : Fin 64) (ctx : Fin 8) (s : State) : Ans := hubRow (loopCmd core ctx) s

/-- R335: MMA. -/
def execMma (core : Fin 64) (ctx : Fin 8) (s : State) : Ans := hubRow (mmaCmd core ctx) s

/-- R340: VOP_ADD. -/
def execVopAdd (core : Fin 64) (ctx : Fin 8) (s : State) : Ans := hubRow (vopCmd 0x00 core ctx) s

/-- R340: VOP_SUB. -/
def execVopSub (core : Fin 64) (ctx : Fin 8) (s : State) : Ans := hubRow (vopCmd 0x01 core ctx) s

/-- R340: VOP_MUL. -/
def execVopMul (core : Fin 64) (ctx : Fin 8) (s : State) : Ans := hubRow (vopCmd 0x02 core ctx) s

/-- R340: VOP_FMA. -/
def execVopFma (core : Fin 64) (ctx : Fin 8) (s : State) : Ans := hubRow (vopCmd 0x03 core ctx) s

/-- R340: VOP_MAX. -/
def execVopMax (core : Fin 64) (ctx : Fin 8) (s : State) : Ans := hubRow (vopCmd 0x04 core ctx) s

/-- R340: VOP_MIN. -/
def execVopMin (core : Fin 64) (ctx : Fin 8) (s : State) : Ans := hubRow (vopCmd 0x05 core ctx) s

/-- R340: VOP_EXP. -/
def execVopExp (core : Fin 64) (ctx : Fin 8) (s : State) : Ans := hubRow (vopCmd 0x06 core ctx) s

/-- R340: VOP_LOG. -/
def execVopLog (core : Fin 64) (ctx : Fin 8) (s : State) : Ans := hubRow (vopCmd 0x07 core ctx) s

/-- R340: VOP_RECIP. -/
def execVopRecip (core : Fin 64) (ctx : Fin 8) (s : State) : Ans := hubRow (vopCmd 0x08 core ctx) s

/-- R340: VOP_RSQRT. -/
def execVopRsqrt (core : Fin 64) (ctx : Fin 8) (s : State) : Ans := hubRow (vopCmd 0x09 core ctx) s

/-- R340: VOP_ADDS. -/
def execVopAdds (core : Fin 64) (ctx : Fin 8) (s : State) : Ans := hubRow (vopCmd 0x0a core ctx) s

/-- R340: VOP_MULS. -/
def execVopMuls (core : Fin 64) (ctx : Fin 8) (s : State) : Ans := hubRow (vopCmd 0x0b core ctx) s

/-- R342: VOP_CVT. -/
def execVopCvt (core : Fin 64) (ctx : Fin 8) (s : State) : Ans := hubRow (vopCmd 0x0c core ctx) s

/-- R344: VOP_QUANT_MX. -/
def execVopQuantMx (core : Fin 64) (ctx : Fin 8) (s : State) : Ans := hubRow (vopCmd 0x0d core ctx) s

/-- R341: VOP_RSUM. -/
def execVopRsum (core : Fin 64) (ctx : Fin 8) (s : State) : Ans := hubRow (vopCmd 0x10 core ctx) s

/-- R341: VOP_RMAX. -/
def execVopRmax (core : Fin 64) (ctx : Fin 8) (s : State) : Ans := hubRow (vopCmd 0x11 core ctx) s

/-- R348: DMA. -/
def execDma (core : Fin 64) (ctx : Fin 8) (s : State) : Ans := hubRow (dmaCmd core ctx) s

/-- R374: WAIT. -/
def execWait (core : Fin 64) (ctx : Fin 8) (s : State) : Ans := hubRow (waitCmd core ctx) s

/-- R373: SIGNAL. -/
def execSignal (core : Fin 64) (ctx : Fin 8) (s : State) : Ans := hubRow (signalCmd core ctx) s

/-- R378: ACQUIRE. -/
def execAcquire (core : Fin 64) (ctx : Fin 8) (s : State) : Ans := hubRow (acquireCmd core ctx) s

/-- R377: RELEASE. -/
def execRelease (core : Fin 64) (ctx : Fin 8) (s : State) : Ans := hubRow (releaseCmd core ctx) s

/-- R376: FENCE. -/
def execFence (core : Fin 64) (ctx : Fin 8) (s : State) : Ans := hubRow (fenceCmd core ctx) s

/-- R353: HALT. -/
def execHalt (core : Fin 64) (ctx : Fin 8) (s : State) : Ans := hubRow (haltCmd core ctx) s

end Sys2Proof.Machine
end

