-- ==== Sys2Proof/Machine/PoolCmds.lean ====
section
/-!
DEFINITION. Pool operations, metering, Pigeonholes and shapers. One meaning per command of the table.
-/
namespace Sys2Proof.Machine

/-- R506: POOL_SUBMIT. -/
def execPoolSubmit (via : Via) (s : State) : Ans :=
  viaRow (fun _ => (0xD0, 0x48)) (fun f => toUnit 0x86 (asAux 1 (asOp 0x11 f))) via s

/-- R510: POOL_ABORT. -/
def execPoolAbort (via : Via) (s : State) : Ans :=
  viaRow (fun _ => (0xD0, 0x50)) (fun f => toUnit 0x86 (asAux 2 (asOp 0x11 f))) via s

/-- R508: FILL. -/
def execFill (s : State) : Ans := unitRow (pouStart 1) s

/-- R508: COPY. -/
def execCopy (s : State) : Ans := unitRow (pouStart 2) s

/-- R508: COMPARE. -/
def execCompare (s : State) : Ans := unitRow (pouStart 3) s

/-- R508: REDUCE. -/
def execReduce (s : State) : Ans := unitRow (pouStart 4) s

/-- R508: POOL_PIECE_DONE. -/
def execPoolPieceDone (engine : Fin 4) (s : State) : Ans := unitRow (pouPieceDone engine) s

/-- R526: METER_CLEAR. -/
def execMeterClear (by_ : Requester) (s : State) : Ans := regRow by_ 0xE0 0x88 4 1 s

/-- R515: METER_SNAPSHOT. -/
def execMeterSnapshot (by_ : Requester) (s : State) : Ans := regRow by_ 0xE0 0x88 4 2 s

/-- R515: SNAPSHOT_DONE. -/
def execSnapshotDone (s : State) : Ans := unitRow (snapshotDone) s

/-- R513: METER_SAMPLE. -/
def execMeterSample (s : State) : Ans := unitRow (meterSample) s

/-- R517: PIGEON_SEND; `second`: the queue a register names; a frame names its own. -/
def execPigeonSend (via : Via) (second : Bool) (s : State) : Ans :=
  viaRow (fun i => (0x100 + i % 64, if second then 0x50 else 0x48)) (fun f => toUnit 0x87 (pigeonOp false (asOp 0x12 f))) via s

/-- R521: PIGEON_FLUSH. -/
def execPigeonFlush (via : Via) (s : State) : Ans :=
  viaRow (fun i => (0x100 + i % 64, 0x58)) (fun f => toUnit 0x87 (pigeonOp true (asOp 0x12 f))) via s

/-- R520: PIGEON_POP. -/
def execPigeonPop (by_ : Requester) (hole : Fin 64) (value : Nat) (s : State) : Ans :=
  regRow by_ (0x100 + hole.val) 0x88 4 value s

/-- R527: PIGEON_CLEAR. -/
def execPigeonClear (by_ : Requester) (hole : Fin 64) (queues : Nat) (s : State) : Ans :=
  regRow by_ 0xF0 0x48 4 (mkFld 8 7 queues + hole.val) s

/-- R533: WHEEL_SLOT_DUE. -/
def execWheelSlotDue (s : State) : Ans := .next (if storeRuns s.hub then wheelStep s else s)

/-- R537: SHAPER_RECONFIGURE. -/
def execShaperReconfigure (by_ : Requester) (which : ShaperReg) (value : Nat) (s : State) : Ans :=
  regRow by_ 0xD8 (shaperOff which) (shaperSize which) value s

end Sys2Proof.Machine
end

