-- ==== Sys2Proof/Machine/PowerCmds.lean ====
section
/-!
DEFINITION. Power, pins, resets and sensors. One meaning per command of the table.
-/
namespace Sys2Proof.Machine

/-- R18: POWER_CEILING_THROTTLE. -/
def execPowerCeilingThrottle (watts : Nat) (s : State) : Ans := hubRow (throttleStart .power watts) s

/-- R58: VAUX3_ON. -/
def execVaux3On (s : State) : Ans := hubRow (vaux3On) s

/-- R236: VAUX3_LOSS. -/
def execVaux3Loss (s : State) : Ans := hubRow (vaux3Loss) s

/-- R58: PWR_EN_RISE. -/
def execPwrEnRise (s : State) : Ans := hubRow (pwrEnRise) s

/-- R92: PG_OUT_RISE. -/
def execPgOutRise (s : State) : Ans := hubRow (pgOutRise) s

/-- R59: PWR_EN_FALL. -/
def execPwrEnFall (s : State) : Ans := resetRow pwrEnFall s

/-- R59: RAIL_FAULT. -/
def execRailFault (s : State) : Ans := resetRow powerDown s

/-- R92: MOD_RST_N_ASSERT. -/
def execModRstNAssert (s : State) : Ans := resetRow modRstAssert s

/-- R92: MOD_RST_N_RELEASE. -/
def execModRstNRelease (s : State) : Ans := hubRow (modRstRelease) s

/-- R93: HOST_PORT_RESET; `perst`: by PERST_N going low, else a hot reset or link down. -/
def execHostPortReset (port : Fin 2) (perst : Bool) (s : State) : Ans := syncRow (hostPortReset port perst) s

/-- R74: BYPASS_FORCE_N_LOW. -/
def execBypassForceNLow (s : State) : Ans := syncRow (bypassForce false) s

/-- R74: BYPASS_FORCE_N_HIGH. -/
def execBypassForceNHigh (s : State) : Ans := hubRow (bypassForce true) s

/-- R98: CXL_PERST_N_RELEASE. -/
def execCxlPerstNRelease (port : Fin 2) (s : State) : Ans := hubRow (perstRelease port) s

/-- R61: THERMAL_THROTTLE. -/
def execThermalThrottle (sensor : Sensor) (value : Nat) (s : State) : Ans := hubRow (throttleStart sensor value) s

/-- R61: THROTTLE_END. -/
def execThrottleEnd (sensor : Sensor) (value : Nat) (s : State) : Ans := hubRow (throttleEnd sensor value) s

/-- R61: THERMAL_TRIP. -/
def execThermalTrip (sensor : Sensor) (value : Nat) (s : State) : Ans := resetRow (thermalTrip sensor value) s

/-- R68: SPD_TEMP_READ; channel, slot, °C. -/
def execSpdTempRead (readings : List (Nat × Nat × Nat)) (s : State) : Ans := hubRow (spdTempRead readings) s

end Sys2Proof.Machine
end

