-- ==== Sys2Proof/Machine/RasCmds.lean ====
section
/-!
DEFINITION. Integrity, Armoire counters and fitting. One meaning per command of the table.
-/
namespace Sys2Proof.Machine

/-- R550: SCRUB_PATROL. -/
def execScrubPatrol (site : ErrSite) (uncorrectable scrub : Bool) (use : UnitUse) (s : State) : Ans :=
  storeSyncRow (foundError site uncorrectable scrub use) s

/-- R556: RETIRE_COPY. -/
def execRetireCopy (tile : Nat) (s : State) : Ans := storeRow (retireCopy tile) s

/-- R571: FAULT_HISTORY_FLUSH. -/
def execFaultHistoryFlush (s : State) : Ans := hubRow (historyFlush) s

/-- R563: INJECT_T0_LINE. -/
def execInjectT0Line (by_ : Requester) (ue : Bool) (s : State) : Ans := regRow by_ 0x300 0x78 4 (mkFld 7 7 (bit01 ue) + 1) s

/-- R563: INJECT_T1_LINE. -/
def execInjectT1Line (by_ : Requester) (ue : Bool) (s : State) : Ans := regRow by_ 0x300 0x78 4 (mkFld 7 7 (bit01 ue) + 2) s

/-- R563: INJECT_T2_BLOCK. -/
def execInjectT2Block (by_ : Requester) (ue : Bool) (s : State) : Ans := regRow by_ 0x300 0x78 4 (mkFld 7 7 (bit01 ue) + 3) s

/-- R563: INJECT_SCRATCHPAD. -/
def execInjectScratchpad (by_ : Requester) (ue : Bool) (s : State) : Ans :=
  regRow by_ 0x300 0x78 4 (mkFld 7 7 (bit01 ue) + 4) s

/-- R565: INJECT_YUMER_LANE. -/
def execInjectYumerLane (by_ : Requester) (ue : Bool) (s : State) : Ans :=
  regRow by_ 0x300 0x78 4 (mkFld 7 7 (bit01 ue) + 5) s

/-- R565: INJECT_SWITCH_FRAME. -/
def execInjectSwitchFrame (by_ : Requester) (ue : Bool) (s : State) : Ans :=
  regRow by_ 0x300 0x78 4 (mkFld 7 7 (bit01 ue) + 6) s

/-- R565: INJECT_POISON. -/
def execInjectPoison (by_ : Requester) (ue : Bool) (s : State) : Ans := regRow by_ 0x300 0x78 4 (mkFld 7 7 (bit01 ue) + 7) s

/-- R572: COUNTER_SAVE. -/
def execCounterSave (s : State) : Ans := hubRow (fun h => if h.pins.pgOut then counterSave h else h) s

/-- R582: MONITOR_READING. -/
def execMonitorReading (readings : List (Nat × Nat × Nat × Nat)) (s : State) : Ans := hubRow (monitorReading readings) s

/-- R583: FITTING_DUE. -/
def execFittingDue (s : State) : Ans := hubRow (fittingDueNow) s

/-- R593: RUN. -/
def execRun (by_ : Requester) (s : State) : Ans := regRow by_ 0x318 0x44 4 1 s

/-- R584: MONITORS_DONE. -/
def execMonitorsDone (curve : List Nat) (s : State) : Ans := unitRow (monitorsDone curve) s

/-- R584: LINKS_DONE. -/
def execLinksDone (low : Nat) (s : State) : Ans := unitRow (linksDone low) s

/-- R584: MEMORY_DONE. -/
def execMemoryDone (offsets : List Nat) (s : State) : Ans := unitRow (memoryDone offsets) s

/-- R584: FITTING_COMMIT. -/
def execFittingCommit (forecast : Nat) (s : State) : Ans := unitRow (fittingCommit forecast) s

end Sys2Proof.Machine
end

