-- ==== Sys2Proof/Machine/ServiceCmds.lean ====
section
/-!
DEFINITION. Attention, tickets, embedding tables and vector search. One meaning per command of the table.
-/
namespace Sys2Proof.Machine

/-- R393: ATTEND_WAIT_EXPIRY. -/
def execAttendWaitExpiry (n : Nat) (s : State) : Ans := unitRow (attendExpire n) s

/-- R394: ATTEND_DISPATCH. -/
def execAttendDispatch (s : State) : Ans := unitRow (attendDispatch) s

/-- R427: OFFER_TIMEOUT. -/
def execOfferTimeout (mirror : Bool) (index : Nat) (s : State) : Ans := unitRow (offerTimeout mirror index) s

/-- R436: FORCE_RELEASE. -/
def execForceRelease (by_ : Requester) (s : State) : Ans := regRow by_ 0xB8 0x8C 4 1 s

/-- R436: SET_OWNER. -/
def execSetOwner (by_ : Requester) (s : State) : Ans := regRow by_ 0xB8 0x8C 4 2 s

/-- R436: DROP_MIRROR. -/
def execDropMirror (by_ : Requester) (s : State) : Ans := regRow by_ 0xB8 0x8C 4 3 s

/-- R456: EMU_APPLY_DONE. -/
def execEmuApplyDone (table : Fin 256) (s : State) : Ans := unitRow (emuApplyDone table) s

/-- R441: TABLE_LOAD. -/
def execTableLoad (by_ : Requester) (table : Fin 256) (s : State) : Ans :=
  regRow by_ 0xC0 0x48 4 (mkFld 31 30 1 + table.val) s

/-- R463: TABLE_UNLOAD. -/
def execTableUnload (by_ : Requester) (table : Fin 256) (s : State) : Ans :=
  regRow by_ 0xC0 0x48 4 (mkFld 31 30 2 + table.val) s

/-- R460: MIG_START. -/
def execMigStart (by_ : Requester) (s : State) : Ans := regRow by_ 0xC0 0x58 4 1 s

/-- R460: MIG_COPY_DONE. -/
def execMigCopyDone (s : State) : Ans := unitRow (migCopyDone) s

/-- R460: MIG_FREEZE_DONE. -/
def execMigFreezeDone (s : State) : Ans := unitRow (migFreezeDone) s

/-- R466: INDEX_LOAD. -/
def execIndexLoad (by_ : Requester) (index : Fin 64) (s : State) : Ans :=
  regRow by_ 0xC8 0x48 4 (mkFld 31 30 1 + index.val) s

/-- R490: INDEX_UNLOAD. -/
def execIndexUnload (by_ : Requester) (index : Fin 64) (s : State) : Ans :=
  regRow by_ 0xC8 0x48 4 (mkFld 31 30 2 + index.val) s

/-- R487: TOMB_SCAN_DONE. -/
def execTombScanDone (index : Fin 64) (s : State) : Ans := unitRow (tombScanDone index) s

/-- R484: MERGE_START. -/
def execMergeStart (by_ : Requester) (index : Fin 64) (slots width : Nat) (s : State) : Ans :=
  regRow by_ 0xC8 0x50 4 (mkFld 31 30 1 + mkFld 29 25 slots + mkFld 15 6 width + index.val) s

/-- R486: MERGE_ABORT. -/
def execMergeAbort (by_ : Requester) (index : Fin 64) (s : State) : Ans :=
  regRow by_ 0xC8 0x50 4 (mkFld 31 30 2 + index.val) s

/-- R486: MERGE_COMMIT. -/
def execMergeCommit (s : State) : Ans := unitRow (mergeCommit) s

end Sys2Proof.Machine
end

