-- ==== Sys2Proof/Machine/SideCmds.lean ====
section
/-!
DEFINITION. The sideband and SPDM. One meaning per command of the table.
-/
namespace Sys2Proof.Machine

/-- R69: ENTDAA. -/
def execEntdaa (addr : Nat) (s : State) : Ans := hubRow (entdaa addr) s

/-- R69: MCTP_CONTROL_MESSAGE. -/
def execMctpControlMessage (s : State) : Ans := hubRow (mctpControl) s

/-- R71: GET_INFO. -/
def execGetInfo (hdr : NipHdr) (s : State) : Ans := hubRow (getInfo hdr) s

/-- R71: GET_STATUS. -/
def execGetStatus (hdr : NipHdr) (s : State) : Ans := hubRow (getStatus hdr) s

/-- R71: NIPIEB_REG_READ. -/
def execNipiebRegRead (hdr : NipHdr) (page off size : Nat) (s : State) : Ans := .next (nipRegRead hdr page off size s)

/-- R71: NIPIEB_REG_WRITE. -/
def execNipiebRegWrite (hdr : NipHdr) (page off size value : Nat) (s : State) : Ans :=
  .next (pairSyncS (nipRegWrite hdr page off size value) s)

/-- R71: SET_MODULE_ID. -/
def execSetModuleId (hdr : NipHdr) (id : Nat) (s : State) : Ans := hubRow (setModuleId hdr id) s

/-- R71: GET_MODULE_ID. -/
def execGetModuleId (hdr : NipHdr) (s : State) : Ans := hubRow (getModuleId hdr) s

/-- R73: BUNDLE_BEGIN. -/
def execBundleBegin (hdr : NipHdr) (len : Nat) (s : State) : Ans := hubRow (bundleBegin hdr len) s

/-- R71: BUNDLE_DATA. -/
def execBundleData (hdr : NipHdr) (off : Nat) (data : List Byte) (s : State) : Ans := hubRow (bundleData hdr off data) s

/-- R576: BUNDLE_COMMIT. -/
def execBundleCommit (hdr : NipHdr) (s : State) : Ans := hubRow (bundleCommit hdr) s

/-- R73: BUNDLE_TRANSFER_TIMEOUT. -/
def execBundleTransferTimeout (s : State) : Ans := hubRow (bundleTimeout) s

/-- R560: NIPIEB_FENCE. -/
def execNipiebFence (hdr : NipHdr) (s : State) : Ans := syncRow (nipFence hdr) s

/-- R560: NIPIEB_UNFENCE. -/
def execNipiebUnfence (hdr : NipHdr) (s : State) : Ans := hubRow (fun h => svcSettle (nipUnfence hdr h)) s

/-- R569: ARMOIRE_READ. -/
def execArmoireRead (hdr : NipHdr) (region off n : Nat) (s : State) : Ans := hubRow (nipArmoireRead hdr region off n) s

/-- R236: CALENDAR_SET. -/
def execCalendarSet (hdr : NipHdr) (seconds : Nat) (s : State) : Ans := hubRow (calendarSet hdr seconds) s

/-- R71: CALENDAR_GET. -/
def execCalendarGet (hdr : NipHdr) (s : State) : Ans := hubRow (calendarGet hdr) s

/-- R236: CALENDAR_HOURLY_SAVE. -/
def execCalendarHourlySave (s : State) : Ans := hubRow (fun h => if h.pins.vaux3 then calendarSave h else h) s

/-- R72: NIPIEB_UNSUPPORTED. -/
def execNipiebUnsupported (hdr : NipHdr) (cmd : Nat) (s : State) : Ans := hubRow (nipUnknown hdr cmd) s

/-- R588: GET_VERSION. -/
def execGetVersion (t : Fin 3) (s : State) : Ans := hubRow (spdmVersion t) s

/-- R588: GET_CAPABILITIES. -/
def execGetCapabilities (t : Fin 3) (s : State) : Ans := hubRow (spdmCapabilities t) s

/-- R588: NEGOTIATE_ALGORITHMS. -/
def execNegotiateAlgorithms (t : Fin 3) (s : State) : Ans := hubRow (spdmAlgorithms t) s

/-- R588: GET_DIGESTS. -/
def execGetDigests (t : Fin 3) (s : State) : Ans := hubRow (spdmDigests t) s

/-- R587: GET_CERTIFICATE. -/
def execGetCertificate (t : Fin 3) (slot off len : Nat) (s : State) : Ans := hubRow (spdmCertificate t slot off len) s

/-- R588: CHALLENGE. -/
def execChallenge (t : Fin 3) (slot : Nat) (nonce : List Byte) (s : State) : Ans := hubRow (spdmChallenge t slot nonce) s

/-- R589: GET_MEASUREMENTS. -/
def execGetMeasurements (t : Fin 3) (index : Nat) (signed : Bool) (nonce : List Byte) (s : State) : Ans :=
  hubRow (spdmMeasurements t index signed nonce) s

/-- R588: KEY_EXCHANGE. -/
def execKeyExchange (t : Fin 3) (slot : Nat) (nonce : List Byte) (s : State) : Ans := hubRow (spdmKeyExchange t slot nonce) s

/-- R588: FINISH. -/
def execFinish (t : Fin 3) (id : Nat) (s : State) : Ans := hubRow (spdmFinish t id) s

/-- R588: HEARTBEAT. -/
def execHeartbeat (t : Fin 3) (id : Nat) (s : State) : Ans := hubRow (spdmHeartbeat t id) s

/-- R588: KEY_UPDATE. -/
def execKeyUpdate (t : Fin 3) (id : Nat) (s : State) : Ans := hubRow (spdmKeyUpdate t id) s

/-- R588: END_SESSION. -/
def execEndSession (t : Fin 3) (id : Nat) (s : State) : Ans := hubRow (spdmEndSession t id) s

/-- R588: VENDOR_DEFINED_REQUEST. -/
def execVendorDefinedRequest (t : Fin 3) (id : Nat) (ide : Bool) (port : Fin 2) (s : State) : Ans :=
  hubRow (spdmVendor t id ide port) s

end Sys2Proof.Machine
end

