-- ==== Sys2Proof/Machine/StuCmds.lean ====
section
/-!
DEFINITION. Address translation. One meaning per command of the table.
-/
namespace Sys2Proof.Machine

/-- R144: TRANSLATION_WALK_DONE. -/
def execTranslationWalkDone (tenant asid vpn : Nat) (s : State) : Ans := storeRow (walkDone tenant asid vpn) s

/-- R149: INVALIDATE_ALL. -/
def execInvalidateAll (by_ : Requester) (tenant asid count : Nat) (s : State) : Ans :=
  regRow by_ 0xA1 0x48 8 (invWord 0 tenant asid count) s

/-- R149: INVALIDATE_TENANT. -/
def execInvalidateTenant (by_ : Requester) (tenant asid count : Nat) (s : State) : Ans :=
  regRow by_ 0xA1 0x48 8 (invWord 1 tenant asid count) s

/-- R149: INVALIDATE_ASID. -/
def execInvalidateAsid (by_ : Requester) (tenant asid count : Nat) (s : State) : Ans :=
  regRow by_ 0xA1 0x48 8 (invWord 2 tenant asid count) s

/-- R149: INVALIDATE_RANGE. -/
def execInvalidateRange (by_ : Requester) (tenant asid count : Nat) (s : State) : Ans :=
  regRow by_ 0xA1 0x48 8 (invWord 3 tenant asid count) s

/-- R150: INVALIDATION_DONE. -/
def execInvalidationDone (s : State) : Ans := storeRow (invDone) s

/-- R161: PREWALK_CMD. -/
def execPrewalkCmd (by_ : Requester) (tenant asid count : Nat) (s : State) : Ans :=
  regRow by_ 0xA2 0x48 8 (invWord 0 tenant asid count) s

/-- R157: STU_FAULT_POP. -/
def execStuFaultPop (by_ : Requester) (s : State) : Ans := regRow by_ 0xA0 0x60 4 1 s

/-- R155: STU_TENANT_BASE_WRITE. -/
def execStuTenantBaseWrite (by_ : Requester) (value : Nat) (s : State) : Ans := regRow by_ 0xA0 0x48 8 value s

end Sys2Proof.Machine
end

