-- ==== Sys2Proof/Machine/TierCmds.lean ====
section
/-!
DEFINITION. Tiers and tiles. One meaning per command of the table.
-/
namespace Sys2Proof.Machine

/-- R176: LINE_READ_FILL. -/
def execLineReadFill (line : Nat) (s : State) : Ans := storeRow (fillDone line) s

/-- R304: HOME_TRANSACTION_START. -/
def execHomeTransactionStart (line : Nat) (s : State) : Ans := storeRow (homeNext line) s

/-- R179: PROMOTION_DONE. -/
def execPromotionDone (tile : Nat) (s : State) : Ans := storeRow (promotionDone tile) s

/-- R180: DEMOTION_DONE. -/
def execDemotionDone (tile : Nat) (s : State) : Ans := storeRow (demotionDone tile) s

/-- R183: FREEING_DONE. -/
def execFreeingDone (tile : Nat) (s : State) : Ans := storeRow (freeingDone tile) s

/-- R190: BACKGROUND_EVICTION. -/
def execBackgroundEviction (s : State) : Ans := unitRow (backgroundEviction) s

/-- R190: AGE_EVICTION. -/
def execAgeEviction (tile : Nat) (s : State) : Ans := unitRow (ageEviction tile) s

/-- R187: STAMP_PATROL. -/
def execStampPatrol (s : State) : Ans := unitRow (stampPatrol) s

/-- R193: ALLOC. -/
def execAlloc (by_ : Requester) (tenant cls : Nat) (s : State) : Ans := regRow by_ 0x90 0x148 4 (tierWord 1 tenant cls) s

/-- R183: FREE. -/
def execFree (by_ : Requester) (tenant cls : Nat) (s : State) : Ans := regRow by_ 0x90 0x148 4 (tierWord 2 tenant cls) s

/-- R186: PIN. -/
def execPin (by_ : Requester) (tenant cls : Nat) (s : State) : Ans := regRow by_ 0x90 0x148 4 (tierWord 3 tenant cls) s

/-- R186: UNPIN. -/
def execUnpin (by_ : Requester) (tenant cls : Nat) (s : State) : Ans := regRow by_ 0x90 0x148 4 (tierWord 4 tenant cls) s

/-- R193: PROMOTE. -/
def execPromote (by_ : Requester) (tenant cls : Nat) (s : State) : Ans := regRow by_ 0x90 0x148 4 (tierWord 5 tenant cls) s

/-- R193: DEMOTE. -/
def execDemote (by_ : Requester) (tenant cls : Nat) (s : State) : Ans := regRow by_ 0x90 0x148 4 (tierWord 6 tenant cls) s

/-- R183: EVICT. -/
def execEvict (by_ : Requester) (tenant cls : Nat) (s : State) : Ans := regRow by_ 0x90 0x148 4 (tierWord 7 tenant cls) s

/-- R193: SETCLASS. -/
def execSetclass (by_ : Requester) (tenant cls : Nat) (s : State) : Ans := regRow by_ 0x90 0x148 4 (tierWord 8 tenant cls) s

/-- R171: SEAL. -/
def execSealTiles (by_ : Requester) (tenant cls : Nat) (s : State) : Ans := regRow by_ 0x90 0x148 4 (tierWord 9 tenant cls) s

/-- R193: HDR_READ. -/
def execHdrRead (by_ : Requester) (tenant cls : Nat) (s : State) : Ans := regRow by_ 0x90 0x148 4 (tierWord 10 tenant cls) s

/-- R193: TIER_CMD_DONE. -/
def execTierCmdDone (s : State) : Ans := unitRow (tierCmdDone) s

/-- R200: TIER_CFG_WRITE. -/
def execTierCfgWrite (by_ : Requester) (value : Nat) (s : State) : Ans := regRow by_ 0x90 0x40 4 value s

/-- R185: CLASS_LIMIT_WRITE. -/
def execClassLimitWrite (by_ : Requester) (cls : Fin 8) (value : Nat) (s : State) : Ans :=
  regRow by_ 0x90 (0x80 + 16 * cls.val) 8 value s

/-- R557: FREE_MAP_REBUILD_DONE. -/
def execFreeMapRebuildDone (s : State) : Ans := storeRow (freeMapDone) s

end Sys2Proof.Machine
end

