-- ==== Sys2Proof/Machine/TwinCmds.lean ====
section
/-!
DEFINITION. The bridge of a Twinset pair. One meaning per command of the table.
-/
namespace Sys2Proof.Machine

/-- R599: TWIN_HELLO. -/
def execTwinHello (port : Fin 28) (fields : List Nat) (serial : Nat) (regs : List (Nat × Nat × Nat × Nat)) (time : Nat) (s : State) : Ans :=
  .next (twinHello port fields serial regs time s)

/-- R598: TWIN_HEARTBEAT. -/
def execTwinHeartbeat (port : Fin 28) (phase fence twinState : Nat) (s : State) : Ans :=
  syncRow (twinHeartbeatOn port phase fence twinState) s

/-- R598: TWIN_HEARTBEAT_SEND. -/
def execTwinHeartbeatSend (s : State) : Ans := hubRow (twinHeartbeatSend) s

/-- R606: TWIN_REG. -/
def execTwinReg (port : Fin 28) (page off size value addr : Nat) (s : State) : Ans :=
  .next (twinReg port page off size value addr s)

/-- R602: TWIN_CTRL. -/
def execTwinCtrl (port : Fin 28) (kind : Nat) (data : List Nat) (s : State) : Ans := hubRow (twinCtrl port kind data) s

/-- R599: TWIN_LINKING_TIMEOUT. -/
def execTwinLinkingTimeout (s : State) : Ans := hubRow (twinLinkingTimeout) s

/-- R599: TWIN_SYNCING_TIMEOUT. -/
def execTwinSyncingTimeout (s : State) : Ans := hubRow (twinSyncingTimeout) s

/-- R600: TWIN_HEARTBEAT_TIMEOUT. -/
def execTwinHeartbeatTimeout (s : State) : Ans := hubRow (twinHeartbeatTimeout) s

end Sys2Proof.Machine
end

