-- ==== Sys2Proof/Machine/Dispatch.lean ====
section
/-!
DEFINITION. One arm per command: a direct call of its meaning.
-/
namespace Sys2Proof.Machine

def exec (i : Instr) (s : State) : Host.Outcome State Fault Refusal :=
  match i with
  | .registerWrite by_ page off size value => Sys2Proof.Machine.execRegisterWrite by_ page off size value s
  | .ownerWrite by_ page value => Sys2Proof.Machine.execOwnerWrite by_ page value s
  | .errInjectArm by_ page value => Sys2Proof.Machine.execErrInjectArm by_ page value s
  | .cntClear by_ page value => Sys2Proof.Machine.execCntClear by_ page value s
  | .errStatusClear by_ page event bits => Sys2Proof.Machine.execErrStatusClear by_ page event bits s
  | .counterSlotWrite by_ page slot size value => Sys2Proof.Machine.execCounterSlotWrite by_ page slot size value s
  | .powerCeilingThrottle watts => Sys2Proof.Machine.execPowerCeilingThrottle watts s
  | .vaux3On => Sys2Proof.Machine.execVaux3On s
  | .vaux3Loss => Sys2Proof.Machine.execVaux3Loss s
  | .pwrEnRise => Sys2Proof.Machine.execPwrEnRise s
  | .pgOutRise => Sys2Proof.Machine.execPgOutRise s
  | .pwrEnFall => Sys2Proof.Machine.execPwrEnFall s
  | .railFault => Sys2Proof.Machine.execRailFault s
  | .modRstNAssert => Sys2Proof.Machine.execModRstNAssert s
  | .modRstNRelease => Sys2Proof.Machine.execModRstNRelease s
  | .hostPortReset port perst => Sys2Proof.Machine.execHostPortReset port perst s
  | .bypassForceNLow => Sys2Proof.Machine.execBypassForceNLow s
  | .thermalThrottle sensor value => Sys2Proof.Machine.execThermalThrottle sensor value s
  | .thermalTrip sensor value => Sys2Proof.Machine.execThermalTrip sensor value s
  | .spdTempRead readings => Sys2Proof.Machine.execSpdTempRead readings s
  | .entdaa addr => Sys2Proof.Machine.execEntdaa addr s
  | .mctpControlMessage => Sys2Proof.Machine.execMctpControlMessage s
  | .getInfo hdr => Sys2Proof.Machine.execGetInfo hdr s
  | .getStatus hdr => Sys2Proof.Machine.execGetStatus hdr s
  | .nipiebRegRead hdr page off size => Sys2Proof.Machine.execNipiebRegRead hdr page off size s
  | .nipiebRegWrite hdr page off size value => Sys2Proof.Machine.execNipiebRegWrite hdr page off size value s
  | .setModuleId hdr id => Sys2Proof.Machine.execSetModuleId hdr id s
  | .getModuleId hdr => Sys2Proof.Machine.execGetModuleId hdr s
  | .bundleBegin hdr len => Sys2Proof.Machine.execBundleBegin hdr len s
  | .bundleData hdr off data => Sys2Proof.Machine.execBundleData hdr off data s
  | .bundleCommit hdr => Sys2Proof.Machine.execBundleCommit hdr s
  | .bundleTransferTimeout => Sys2Proof.Machine.execBundleTransferTimeout s
  | .nipiebFence hdr => Sys2Proof.Machine.execNipiebFence hdr s
  | .nipiebUnfence hdr => Sys2Proof.Machine.execNipiebUnfence hdr s
  | .armoireRead hdr region off n => Sys2Proof.Machine.execArmoireRead hdr region off n s
  | .calendarSet hdr seconds => Sys2Proof.Machine.execCalendarSet hdr seconds s
  | .calendarGet hdr => Sys2Proof.Machine.execCalendarGet hdr s
  | .calendarHourlySave => Sys2Proof.Machine.execCalendarHourlySave s
  | .joinEn by_ value => Sys2Proof.Machine.execJoinEn by_ value s
  | .closeCmd by_ value => Sys2Proof.Machine.execCloseCmd by_ value s
  | .pathStartLoopback path => Sys2Proof.Machine.execPathStartLoopback path s
  | .loopbackQualPass path => Sys2Proof.Machine.execLoopbackQualPass path s
  | .loopbackQualFail path => Sys2Proof.Machine.execLoopbackQualFail path s
  | .pathOpenDrive path => Sys2Proof.Machine.execPathOpenDrive path s
  | .switchSensedOpen path => Sys2Proof.Machine.execSwitchSensedOpen path s
  | .openingTimeout path => Sys2Proof.Machine.execOpeningTimeout path s
  | .joinPass path => Sys2Proof.Machine.execJoinPass path s
  | .joiningTimeout path => Sys2Proof.Machine.execJoiningTimeout path s
  | .closingCondition path => Sys2Proof.Machine.execClosingCondition path s
  | .switchSensedClosed path => Sys2Proof.Machine.execSwitchSensedClosed path s
  | .closingTimeout path => Sys2Proof.Machine.execClosingTimeout path s
  | .ringRxpwrUpdate powers => Sys2Proof.Machine.execRingRxpwrUpdate powers s
  | .cold by_ value => Sys2Proof.Machine.execCold by_ value s
  | .warm by_ => Sys2Proof.Machine.execWarm by_ s
  | .quiesceDone => Sys2Proof.Machine.execQuiesceDone s
  | .quiesceTimeout => Sys2Proof.Machine.execQuiesceTimeout s
  | .ledgerDone unreadable copyBad stagedOk => Sys2Proof.Machine.execLedgerDone unreadable copyBad stagedOk s
  | .clockingDone => Sys2Proof.Machine.execClockingDone s
  | .coreSelfTestDone failed => Sys2Proof.Machine.execCoreSelfTestDone failed s
  | .testingDone report => Sys2Proof.Machine.execTestingDone report s
  | .restoringDone lostHbm lostDdr => Sys2Proof.Machine.execRestoringDone lostHbm lostDdr s
  | .t2InitDone => Sys2Proof.Machine.execT2InitDone s
  | .cxlLinkUp port x4 rate => Sys2Proof.Machine.execCxlLinkUp port x4 rate s
  | .cxlConfigRequest port ld write => Sys2Proof.Machine.execCxlConfigRequest port ld write s
  | .portDetectStart port => Sys2Proof.Machine.execPortDetectStart port s
  | .partnerDetected port txLanes rxLanes => Sys2Proof.Machine.execPartnerDetected port txLanes rxLanes s
  | .equaliseDone port txFail rxFail => Sys2Proof.Machine.execEqualiseDone port txFail rxFail s
  | .lanemapDone port vkm level module role ownPort => Sys2Proof.Machine.execLanemapDone port vkm level module role ownPort s
  | .qualifySoakEnd port txFail rxFail => Sys2Proof.Machine.execQualifySoakEnd port txFail rxFail s
  | .linkLoss port => Sys2Proof.Machine.execLinkLoss port s
  | .retryTimerExpiry port => Sys2Proof.Machine.execRetryTimerExpiry port s
  | .nearLoopWrite by_ port value => Sys2Proof.Machine.execNearLoopWrite by_ port value s
  | .defectAdd by_ => Sys2Proof.Machine.execDefectAdd by_ s
  | .defectRemove by_ => Sys2Proof.Machine.execDefectRemove by_ s
  | .translationWalkDone tenant asid vpn => Sys2Proof.Machine.execTranslationWalkDone tenant asid vpn s
  | .invalidateAll by_ tenant asid count => Sys2Proof.Machine.execInvalidateAll by_ tenant asid count s
  | .invalidateTenant by_ tenant asid count => Sys2Proof.Machine.execInvalidateTenant by_ tenant asid count s
  | .invalidateAsid by_ tenant asid count => Sys2Proof.Machine.execInvalidateAsid by_ tenant asid count s
  | .invalidateRange by_ tenant asid count => Sys2Proof.Machine.execInvalidateRange by_ tenant asid count s
  | .invalidationDone => Sys2Proof.Machine.execInvalidationDone s
  | .prewalkCmd by_ tenant asid count => Sys2Proof.Machine.execPrewalkCmd by_ tenant asid count s
  | .stuFaultPop by_ => Sys2Proof.Machine.execStuFaultPop by_ s
  | .stuTenantBaseWrite by_ value => Sys2Proof.Machine.execStuTenantBaseWrite by_ value s
  | .lineReadFill line => Sys2Proof.Machine.execLineReadFill line s
  | .homeTransactionStart line => Sys2Proof.Machine.execHomeTransactionStart line s
  | .promotionDone tile => Sys2Proof.Machine.execPromotionDone tile s
  | .demotionDone tile => Sys2Proof.Machine.execDemotionDone tile s
  | .freeingDone tile => Sys2Proof.Machine.execFreeingDone tile s
  | .backgroundEviction => Sys2Proof.Machine.execBackgroundEviction s
  | .ageEviction tile => Sys2Proof.Machine.execAgeEviction tile s
  | .stampPatrol => Sys2Proof.Machine.execStampPatrol s
  | .alloc by_ tenant cls => Sys2Proof.Machine.execAlloc by_ tenant cls s
  | .free by_ tenant cls => Sys2Proof.Machine.execFree by_ tenant cls s
  | .pin by_ tenant cls => Sys2Proof.Machine.execPin by_ tenant cls s
  | .unpin by_ tenant cls => Sys2Proof.Machine.execUnpin by_ tenant cls s
  | .promote by_ tenant cls => Sys2Proof.Machine.execPromote by_ tenant cls s
  | .demote by_ tenant cls => Sys2Proof.Machine.execDemote by_ tenant cls s
  | .evict by_ tenant cls => Sys2Proof.Machine.execEvict by_ tenant cls s
  | .setclass by_ tenant cls => Sys2Proof.Machine.execSetclass by_ tenant cls s
  | .sealTiles by_ tenant cls => Sys2Proof.Machine.execSealTiles by_ tenant cls s
  | .hdrRead by_ tenant cls => Sys2Proof.Machine.execHdrRead by_ tenant cls s
  | .tierCmdDone => Sys2Proof.Machine.execTierCmdDone s
  | .tierCfgWrite by_ value => Sys2Proof.Machine.execTierCfgWrite by_ value s
  | .classLimitWrite by_ cls value => Sys2Proof.Machine.execClassLimitWrite by_ cls value s
  | .cursorDefine by_ => Sys2Proof.Machine.execCursorDefine by_ s
  | .cursorRelease by_ => Sys2Proof.Machine.execCursorRelease by_ s
  | .cursorDefWrite by_ bind value => Sys2Proof.Machine.execCursorDefWrite by_ bind value s
  | .cursorAdvance via => Sys2Proof.Machine.execCursorAdvance via s
  | .drawerWorkDone drawer => Sys2Proof.Machine.execDrawerWorkDone drawer s
  | .cursorIdleExpiry cursor => Sys2Proof.Machine.execCursorIdleExpiry cursor s
  | .drawerWrite by_ index => Sys2Proof.Machine.execDrawerWrite by_ index s
  | .drawerRead by_ index => Sys2Proof.Machine.execDrawerRead by_ index s
  | .drawerDelete by_ index => Sys2Proof.Machine.execDrawerDelete by_ index s
  | .reportPop by_ => Sys2Proof.Machine.execReportPop by_ s
  | .timeSync port tx echoTx echoRx hops => Sys2Proof.Machine.execTimeSync port tx echoTx echoRx hops s
  | .syncSendTimer => Sys2Proof.Machine.execSyncSendTimer s
  | .syncLossTimeout => Sys2Proof.Machine.execSyncLossTimeout s
  | .masterTimeout => Sys2Proof.Machine.execMasterTimeout s
  | .read port f => Sys2Proof.Machine.execRead port f s
  | .write port f => Sys2Proof.Machine.execWrite port f s
  | .writePosted port f => Sys2Proof.Machine.execWritePosted port f s
  | .atomicAdd port f => Sys2Proof.Machine.execAtomicAdd port f s
  | .atomicAnd port f => Sys2Proof.Machine.execAtomicAnd port f s
  | .atomicOr port f => Sys2Proof.Machine.execAtomicOr port f s
  | .atomicXor port f => Sys2Proof.Machine.execAtomicXor port f s
  | .atomicSwap port f => Sys2Proof.Machine.execAtomicSwap port f s
  | .atomicCas port f => Sys2Proof.Machine.execAtomicCas port f s
  | .atomicSmin port f => Sys2Proof.Machine.execAtomicSmin port f s
  | .atomicSmax port f => Sys2Proof.Machine.execAtomicSmax port f s
  | .atomicUmin port f => Sys2Proof.Machine.execAtomicUmin port f s
  | .atomicUmax port f => Sys2Proof.Machine.execAtomicUmax port f s
  | .atomicFadd32 port f => Sys2Proof.Machine.execAtomicFadd32 port f s
  | .flush port f => Sys2Proof.Machine.execFlush port f s
  | .tileWrite port f => Sys2Proof.Machine.execTileWrite port f s
  | .tileWriteIncomplete => Sys2Proof.Machine.execTileWriteIncomplete s
  | .regRead port f => Sys2Proof.Machine.execRegRead port f s
  | .regWrite port f => Sys2Proof.Machine.execRegWrite port f s
  | .completion port f => Sys2Proof.Machine.execCompletion port f s
  | .linkCtrl port ack replayFrom credits => Sys2Proof.Machine.execLinkCtrl port ack replayFrom credits s
  | .linkCtrlSendTimer port => Sys2Proof.Machine.execLinkCtrlSendTimer port s
  | .replayTimeout port => Sys2Proof.Machine.execReplayTimeout port s
  | .frameForward port f => Sys2Proof.Machine.execFrameForward port f s
  | .deadTargetExpiry tag => Sys2Proof.Machine.execDeadTargetExpiry tag s
  | .featureFloorWrite by_ value => Sys2Proof.Machine.execFeatureFloorWrite by_ value s
  | .cohRdShared port f => Sys2Proof.Machine.execCohRdShared port f s
  | .cohRdOwn port f => Sys2Proof.Machine.execCohRdOwn port f s
  | .cohUpgrade port f => Sys2Proof.Machine.execCohUpgrade port f s
  | .cohWb port f => Sys2Proof.Machine.execCohWb port f s
  | .cohEvict port f => Sys2Proof.Machine.execCohEvict port f s
  | .cohHeartbeat port f => Sys2Proof.Machine.execCohHeartbeat port f s
  | .cohFwdData port f => Sys2Proof.Machine.execCohFwdData port f s
  | .snoopResponse port f => Sys2Proof.Machine.execSnoopResponse port f s
  | .cohAgentWrite by_ agent value => Sys2Proof.Machine.execCohAgentWrite by_ agent value s
  | .agentHeartbeatTimeout agent => Sys2Proof.Machine.execAgentHeartbeatTimeout agent s
  | .walkDone => Sys2Proof.Machine.execWalkDone s
  | .leaseDefine by_ index term => Sys2Proof.Machine.execLeaseDefine by_ index term s
  | .leaseUndefine by_ index term => Sys2Proof.Machine.execLeaseUndefine by_ index term s
  | .leaseRevoke by_ index term => Sys2Proof.Machine.execLeaseRevoke by_ index term s
  | .leaseTake by_ index epoch => Sys2Proof.Machine.execLeaseTake by_ index epoch s
  | .leaseRenew by_ index epoch => Sys2Proof.Machine.execLeaseRenew by_ index epoch s
  | .leaseGive by_ index epoch => Sys2Proof.Machine.execLeaseGive by_ index epoch s
  | .leaseExpiry index => Sys2Proof.Machine.execLeaseExpiry index s
  | .coreCtxBindWrite by_ core value => Sys2Proof.Machine.execCoreCtxBindWrite by_ core value s
  | .start by_ core => Sys2Proof.Machine.execStart by_ core s
  | .stop by_ core => Sys2Proof.Machine.execStop by_ core s
  | .reset by_ core => Sys2Proof.Machine.execReset by_ core s
  | .work port f => Sys2Proof.Machine.execWork port f s
  | .patternLoad by_ core offset count => Sys2Proof.Machine.execPatternLoad by_ core offset count s
  | .patternLoadDone core => Sys2Proof.Machine.execPatternLoadDone core s
  | .commandFence by_ core value => Sys2Proof.Machine.execCommandFence by_ core value s
  | .commandUnfence by_ core value => Sys2Proof.Machine.execCommandUnfence by_ core value s
  | .substitute by_ core value => Sys2Proof.Machine.execSubstitute by_ core value s
  | .coreDrainDone core => Sys2Proof.Machine.execCoreDrainDone core s
  | .substitutionDone core pass => Sys2Proof.Machine.execSubstitutionDone core pass s
  | .benchTest by_ slot => Sys2Proof.Machine.execBenchTest by_ slot s
  | .benchTestDone slot pass => Sys2Proof.Machine.execBenchTestDone slot pass s
  | .coreFaultPop by_ core => Sys2Proof.Machine.execCoreFaultPop by_ core s
  | .coreSemWrite by_ core sem value => Sys2Proof.Machine.execCoreSemWrite by_ core sem value s
  | .watchdog core ctx => Sys2Proof.Machine.execWatchdog core ctx s
  | .nop core ctx => Sys2Proof.Machine.execNop core ctx s
  | .addi core ctx => Sys2Proof.Machine.execAddi core ctx s
  | .add core ctx => Sys2Proof.Machine.execAdd core ctx s
  | .sub core ctx => Sys2Proof.Machine.execSub core ctx s
  | .mul core ctx => Sys2Proof.Machine.execMul core ctx s
  | .and core ctx => Sys2Proof.Machine.execAnd core ctx s
  | .or core ctx => Sys2Proof.Machine.execOr core ctx s
  | .xor core ctx => Sys2Proof.Machine.execXor core ctx s
  | .shl core ctx => Sys2Proof.Machine.execShl core ctx s
  | .shr core ctx => Sys2Proof.Machine.execShr core ctx s
  | .movhi core ctx => Sys2Proof.Machine.execMovhi core ctx s
  | .ld core ctx => Sys2Proof.Machine.execLd core ctx s
  | .st core ctx => Sys2Proof.Machine.execSt core ctx s
  | .csr core ctx => Sys2Proof.Machine.execCsr core ctx s
  | .beq core ctx => Sys2Proof.Machine.execBeq core ctx s
  | .bne core ctx => Sys2Proof.Machine.execBne core ctx s
  | .blt core ctx => Sys2Proof.Machine.execBlt core ctx s
  | .bltu core ctx => Sys2Proof.Machine.execBltu core ctx s
  | .jmp core ctx => Sys2Proof.Machine.execJmp core ctx s
  | .loop core ctx => Sys2Proof.Machine.execLoop core ctx s
  | .mma core ctx => Sys2Proof.Machine.execMma core ctx s
  | .vopAdd core ctx => Sys2Proof.Machine.execVopAdd core ctx s
  | .vopSub core ctx => Sys2Proof.Machine.execVopSub core ctx s
  | .vopMul core ctx => Sys2Proof.Machine.execVopMul core ctx s
  | .vopFma core ctx => Sys2Proof.Machine.execVopFma core ctx s
  | .vopMax core ctx => Sys2Proof.Machine.execVopMax core ctx s
  | .vopMin core ctx => Sys2Proof.Machine.execVopMin core ctx s
  | .vopExp core ctx => Sys2Proof.Machine.execVopExp core ctx s
  | .vopLog core ctx => Sys2Proof.Machine.execVopLog core ctx s
  | .vopRecip core ctx => Sys2Proof.Machine.execVopRecip core ctx s
  | .vopRsqrt core ctx => Sys2Proof.Machine.execVopRsqrt core ctx s
  | .vopAdds core ctx => Sys2Proof.Machine.execVopAdds core ctx s
  | .vopMuls core ctx => Sys2Proof.Machine.execVopMuls core ctx s
  | .vopCvt core ctx => Sys2Proof.Machine.execVopCvt core ctx s
  | .vopQuantMx core ctx => Sys2Proof.Machine.execVopQuantMx core ctx s
  | .vopRsum core ctx => Sys2Proof.Machine.execVopRsum core ctx s
  | .vopRmax core ctx => Sys2Proof.Machine.execVopRmax core ctx s
  | .dma core ctx => Sys2Proof.Machine.execDma core ctx s
  | .dmaIn core queue => Sys2Proof.Machine.execDmaIn core queue s
  | .dmaOut core queue => Sys2Proof.Machine.execDmaOut core queue s
  | .dmaAtomic core queue => Sys2Proof.Machine.execDmaAtomic core queue s
  | .dmaAdvance core queue => Sys2Proof.Machine.execDmaAdvance core queue s
  | .dmaPigeon core queue => Sys2Proof.Machine.execDmaPigeon core queue s
  | .engineCommandFinish core engine => Sys2Proof.Machine.execEngineCommandFinish core engine s
  | .lineBufferExpiry core queue => Sys2Proof.Machine.execLineBufferExpiry core queue s
  | .wait core ctx => Sys2Proof.Machine.execWait core ctx s
  | .signal core ctx => Sys2Proof.Machine.execSignal core ctx s
  | .signalApply core ctx => Sys2Proof.Machine.execSignalApply core ctx s
  | .acquire core ctx => Sys2Proof.Machine.execAcquire core ctx s
  | .release core ctx => Sys2Proof.Machine.execRelease core ctx s
  | .fence core ctx => Sys2Proof.Machine.execFence core ctx s
  | .halt core ctx => Sys2Proof.Machine.execHalt core ctx s
  | .attend port f => Sys2Proof.Machine.execAttend port f s
  | .attendWaitExpiry n => Sys2Proof.Machine.execAttendWaitExpiry n s
  | .attendDispatch => Sys2Proof.Machine.execAttendDispatch s
  | .push port f => Sys2Proof.Machine.execPush port f s
  | .append port f => Sys2Proof.Machine.execAppend port f s
  | .spill port f => Sys2Proof.Machine.execSpill port f s
  | .fetch port f => Sys2Proof.Machine.execFetch port f s
  | .offer port f => Sys2Proof.Machine.execOffer port f s
  | .accept port f => Sys2Proof.Machine.execAccept port f s
  | .decline port f => Sys2Proof.Machine.execDecline port f s
  | .withdraw port f => Sys2Proof.Machine.execWithdraw port f s
  | .offerTimeout mirror index => Sys2Proof.Machine.execOfferTimeout mirror index s
  | .whoOwns port f => Sys2Proof.Machine.execWhoOwns port f s
  | .ticketRelease port f => Sys2Proof.Machine.execTicketRelease port f s
  | .create port f => Sys2Proof.Machine.execCreate port f s
  | .mirrorCreate port f => Sys2Proof.Machine.execMirrorCreate port f s
  | .mirrorUpdate port f => Sys2Proof.Machine.execMirrorUpdate port f s
  | .probe port f => Sys2Proof.Machine.execProbe port f s
  | .mirrorDrop port f => Sys2Proof.Machine.execMirrorDrop port f s
  | .mirrorRequest port f => Sys2Proof.Machine.execMirrorRequest port f s
  | .forceRelease by_ => Sys2Proof.Machine.execForceRelease by_ s
  | .setOwner by_ => Sys2Proof.Machine.execSetOwner by_ s
  | .dropMirror by_ => Sys2Proof.Machine.execDropMirror by_ s
  | .gather port f => Sys2Proof.Machine.execGather port f s
  | .pool port f => Sys2Proof.Machine.execPool port f s
  | .scatter port f => Sys2Proof.Machine.execScatter port f s
  | .emuApplyDone table => Sys2Proof.Machine.execEmuApplyDone table s
  | .tableLoad by_ table => Sys2Proof.Machine.execTableLoad by_ table s
  | .tableUnload by_ table => Sys2Proof.Machine.execTableUnload by_ table s
  | .migStart by_ => Sys2Proof.Machine.execMigStart by_ s
  | .migCopyDone => Sys2Proof.Machine.execMigCopyDone s
  | .migFreezeDone => Sys2Proof.Machine.execMigFreezeDone s
  | .cutover port f => Sys2Proof.Machine.execCutover port f s
  | .query port f => Sys2Proof.Machine.execQuery port f s
  | .insert port f => Sys2Proof.Machine.execInsert port f s
  | .delete port f => Sys2Proof.Machine.execDelete port f s
  | .indexLoad by_ index => Sys2Proof.Machine.execIndexLoad by_ index s
  | .indexUnload by_ index => Sys2Proof.Machine.execIndexUnload by_ index s
  | .tombScanDone index => Sys2Proof.Machine.execTombScanDone index s
  | .mergeStart by_ index slots width => Sys2Proof.Machine.execMergeStart by_ index slots width s
  | .mergeAbort by_ index => Sys2Proof.Machine.execMergeAbort by_ index s
  | .mergeCommit => Sys2Proof.Machine.execMergeCommit s
  | .memrd port ld hpa tag => Sys2Proof.Machine.execMemrd port ld hpa tag s
  | .memrddata port ld hpa tag => Sys2Proof.Machine.execMemrddata port ld hpa tag s
  | .memspecrd port ld hpa tag => Sys2Proof.Machine.execMemspecrd port ld hpa tag s
  | .memwr port ld hpa tag data poison => Sys2Proof.Machine.execMemwr port ld hpa tag data poison s
  | .memwrptl port ld hpa tag data enables poison => Sys2Proof.Machine.execMemwrptl port ld hpa tag data enables poison s
  | .identifyMemoryDevice port ld => Sys2Proof.Machine.execIdentifyMemoryDevice port ld s
  | .getEventRecords port ld => Sys2Proof.Machine.execGetEventRecords port ld s
  | .clearEventRecords port ld handles => Sys2Proof.Machine.execClearEventRecords port ld handles s
  | .getDynamicCapacityConfiguration port ld => Sys2Proof.Machine.execGetDynamicCapacityConfiguration port ld s
  | .getDynamicCapacityExtentList port ld => Sys2Proof.Machine.execGetDynamicCapacityExtentList port ld s
  | .addDynamicCapacityResponse port ld ranges => Sys2Proof.Machine.execAddDynamicCapacityResponse port ld ranges s
  | .releaseDynamicCapacity port ld ranges => Sys2Proof.Machine.execReleaseDynamicCapacity port ld ranges s
  | .getLdInfo port => Sys2Proof.Machine.execGetLdInfo port s
  | .getQosControl port => Sys2Proof.Machine.execGetQosControl port s
  | .setQosControl port control moderate severe interval basis collection => Sys2Proof.Machine.execSetQosControl port control moderate severe interval basis collection s
  | .getQosStatus port ld => Sys2Proof.Machine.execGetQosStatus port ld s
  | .getQosAllocatedBw port ld count => Sys2Proof.Machine.execGetQosAllocatedBw port ld count s
  | .setQosAllocatedBw port ld fractions => Sys2Proof.Machine.execSetQosAllocatedBw port ld fractions s
  | .getQosBwLimit port ld count => Sys2Proof.Machine.execGetQosBwLimit port ld count s
  | .setQosBwLimit port ld fractions => Sys2Proof.Machine.execSetQosBwLimit port ld fractions s
  | .getDcdInfo port => Sys2Proof.Machine.execGetDcdInfo port s
  | .getHostDcRegionConfiguration port host => Sys2Proof.Machine.execGetHostDcRegionConfiguration port host s
  | .setDcRegionConfiguration port host region blockSize => Sys2Proof.Machine.execSetDcRegionConfiguration port host region blockSize s
  | .getDcRegionExtentLists port host => Sys2Proof.Machine.execGetDcRegionExtentLists port host s
  | .initiateDynamicCapacityAdd port ld extents => Sys2Proof.Machine.execInitiateDynamicCapacityAdd port ld extents s
  | .initiateDynamicCapacityRelease port ld forced ranges => Sys2Proof.Machine.execInitiateDynamicCapacityRelease port ld forced ranges s
  | .drainTimeout port extent => Sys2Proof.Machine.execDrainTimeout port extent s
  | .hdmDecoderCommit port ld decoder base size dpa ways => Sys2Proof.Machine.execHdmDecoderCommit port ld decoder base size dpa ways s
  | .cxlpLdWrite by_ port value => Sys2Proof.Machine.execCxlpLdWrite by_ port value s
  | .openModeWrite by_ port value => Sys2Proof.Machine.execOpenModeWrite by_ port value s
  | .poolSubmit via => Sys2Proof.Machine.execPoolSubmit via s
  | .poolAbort via => Sys2Proof.Machine.execPoolAbort via s
  | .fill => Sys2Proof.Machine.execFill s
  | .copy => Sys2Proof.Machine.execCopy s
  | .compare => Sys2Proof.Machine.execCompare s
  | .reduce => Sys2Proof.Machine.execReduce s
  | .poolPieceDone engine => Sys2Proof.Machine.execPoolPieceDone engine s
  | .meterClear by_ => Sys2Proof.Machine.execMeterClear by_ s
  | .meterSnapshot by_ => Sys2Proof.Machine.execMeterSnapshot by_ s
  | .snapshotDone => Sys2Proof.Machine.execSnapshotDone s
  | .meterSample => Sys2Proof.Machine.execMeterSample s
  | .pigeonSend via second => Sys2Proof.Machine.execPigeonSend via second s
  | .pigeonPop by_ hole value => Sys2Proof.Machine.execPigeonPop by_ hole value s
  | .pigeonFlush via => Sys2Proof.Machine.execPigeonFlush via s
  | .pigeonClear by_ hole queues => Sys2Proof.Machine.execPigeonClear by_ hole queues s
  | .wheelSlotDue => Sys2Proof.Machine.execWheelSlotDue s
  | .shaperReconfigure by_ which value => Sys2Proof.Machine.execShaperReconfigure by_ which value s
  | .scrubPatrol site uncorrectable scrub use => Sys2Proof.Machine.execScrubPatrol site uncorrectable scrub use s
  | .retireCopy tile => Sys2Proof.Machine.execRetireCopy tile s
  | .laneBerLimit port rx lane uncorrectable => Sys2Proof.Machine.execLaneBerLimit port rx lane uncorrectable s
  | .faultHistoryFlush => Sys2Proof.Machine.execFaultHistoryFlush s
  | .injectT0Line by_ ue => Sys2Proof.Machine.execInjectT0Line by_ ue s
  | .injectT1Line by_ ue => Sys2Proof.Machine.execInjectT1Line by_ ue s
  | .injectT2Block by_ ue => Sys2Proof.Machine.execInjectT2Block by_ ue s
  | .injectScratchpad by_ ue => Sys2Proof.Machine.execInjectScratchpad by_ ue s
  | .injectYumerLane by_ ue => Sys2Proof.Machine.execInjectYumerLane by_ ue s
  | .injectSwitchFrame by_ ue => Sys2Proof.Machine.execInjectSwitchFrame by_ ue s
  | .injectPoison by_ ue => Sys2Proof.Machine.execInjectPoison by_ ue s
  | .counterSave => Sys2Proof.Machine.execCounterSave s
  | .monitorReading readings => Sys2Proof.Machine.execMonitorReading readings s
  | .fittingDue => Sys2Proof.Machine.execFittingDue s
  | .run by_ => Sys2Proof.Machine.execRun by_ s
  | .monitorsDone curve => Sys2Proof.Machine.execMonitorsDone curve s
  | .linksDone low => Sys2Proof.Machine.execLinksDone low s
  | .memoryDone offsets => Sys2Proof.Machine.execMemoryDone offsets s
  | .fittingCommit forecast => Sys2Proof.Machine.execFittingCommit forecast s
  | .getVersion t => Sys2Proof.Machine.execGetVersion t s
  | .getCapabilities t => Sys2Proof.Machine.execGetCapabilities t s
  | .negotiateAlgorithms t => Sys2Proof.Machine.execNegotiateAlgorithms t s
  | .getDigests t => Sys2Proof.Machine.execGetDigests t s
  | .getCertificate t slot off len => Sys2Proof.Machine.execGetCertificate t slot off len s
  | .challenge t slot nonce => Sys2Proof.Machine.execChallenge t slot nonce s
  | .getMeasurements t index signed nonce => Sys2Proof.Machine.execGetMeasurements t index signed nonce s
  | .keyExchange t slot nonce => Sys2Proof.Machine.execKeyExchange t slot nonce s
  | .finish t id => Sys2Proof.Machine.execFinish t id s
  | .heartbeat t id => Sys2Proof.Machine.execHeartbeat t id s
  | .keyUpdate t id => Sys2Proof.Machine.execKeyUpdate t id s
  | .endSession t id => Sys2Proof.Machine.execEndSession t id s
  | .vendorDefinedRequest t id ide port => Sys2Proof.Machine.execVendorDefinedRequest t id ide port s
  | .twinHello port fields serial regs time => Sys2Proof.Machine.execTwinHello port fields serial regs time s
  | .twinHeartbeat port phase fence twinState => Sys2Proof.Machine.execTwinHeartbeat port phase fence twinState s
  | .twinHeartbeatSend => Sys2Proof.Machine.execTwinHeartbeatSend s
  | .twinReg port page off size value addr => Sys2Proof.Machine.execTwinReg port page off size value addr s
  | .twinCtrl port kind data => Sys2Proof.Machine.execTwinCtrl port kind data s
  | .twinLinkingTimeout => Sys2Proof.Machine.execTwinLinkingTimeout s
  | .twinSyncingTimeout => Sys2Proof.Machine.execTwinSyncingTimeout s
  | .twinHeartbeatTimeout => Sys2Proof.Machine.execTwinHeartbeatTimeout s
  | .bypassForceNHigh => Sys2Proof.Machine.execBypassForceNHigh s
  | .cxlPerstNRelease port => Sys2Proof.Machine.execCxlPerstNRelease port s
  | .throttleEnd sensor value => Sys2Proof.Machine.execThrottleEnd sensor value s
  | .ctrlEnableWrite by_ page value => Sys2Proof.Machine.execCtrlEnableWrite by_ page value s
  | .errMaskWrite by_ page event value => Sys2Proof.Machine.execErrMaskWrite by_ page event value s
  | .frameCrcFail port f kind => Sys2Proof.Machine.execFrameCrcFail port f kind s
  | .reservedOpcode port f => Sys2Proof.Machine.execReservedOpcode port f s
  | .nipiebUnsupported hdr cmd => Sys2Proof.Machine.execNipiebUnsupported hdr cmd s
  | .freeMapRebuildDone => Sys2Proof.Machine.execFreeMapRebuildDone s

end Sys2Proof.Machine
end

