-- ==== Sys2Proof/Machine/Tick.lean ====
section
/-!
DEFINITION. One tick of 1 ns with no command waiting (log entry 5): clocks, calendar, metered context time, the backlog
that Get QoS Status averages, mirror records on their way, the zero-fill of T2.
-/
namespace Sys2Proof.Machine

/-- R285: mirror records on their way to the ring are written (log entry 11). -/
def mirrorFlush (h : Hub) : Hub :=
  h.mirror.buf.foldl (fun x r => ownWrite r.1 r.2 x) { h with mirror := { h.mirror with buf := [] } }

/-- R233, R236: DEV_TIME runs out of reset; the clock and calendar always. -/
def tickClocks (h : Hub) : Hub :=
  let h1 := { h with clock := h.clock + 1 }
  calendarTick (if h1.boot.phase = .held then h1 else devTick h1)

def tickHub (h : Hub) : Hub :=
  let h1 := tickClocks h
  if serving h1 then mirrorFlush (t2Tick (qosSample (meterContexts 1 h1))) else t2Tick h1

def idle (s : State) : State := onHub tickHub s

end Sys2Proof.Machine
end

