-- ==== Sys2Proof/Safety.lean ====
section
/-!
DEFINITION. What claims are stated in: runs that go on, what a command answers, and the conditions under which a register
write or a frame meets its unit.
-/
namespace Sys2Proof.Safety

open Machine

/-- The step at a state goes on: neither a fault nor a refusal. -/
def GoesOn (s : State) : Prop := ∃ t, step s = .next t

/-- The command answers a next state of which P holds. -/
def Answers (c : Instr) (s : State) (P : State → Prop) : Prop := ∃ t, exec c s = .next t ∧ P t

/-- Every step from a state that meets I leads to one that meets it. -/
def Kept (I : State → Prop) : Prop := ∀ s t, I s → step s = .next t → I t

/-- R516: a Pigeonhole queue holds at most eight words. -/
abbrev HolesBounded (s : State) : Prop := ∀ e ∈ s.holes, e.2.q0.length ≤ 8 ∧ e.2.q1.length ≤ 8

/-- R170, R176: the memory lists no address twice and no byte equal to what an unlisted address reads as. -/
abbrev MemoryCanonical (s : State) : Prop := Memory.wf s.hub.mem = true

/-! ### Register writes -/

/-- R25, R41 to R43, R111, R365, R605, R606: the write reaches a page of this member, the page is not hidden, and the
requester may write the register at the offset. -/
def admits (r : Requester) (page off : Nat) (s : State) : Bool :=
  reaches r s.hub && pageHome page s.hub == .mine (page % 0x1000) && !hiddenPage (page % 0x1000) s.hub &&
  (match pageInfo (page % 0x1000) with
   | some p => !pairBlank p s.hub && mayWrite r p (page % 0x1000) off s.hub
   | none => false)

def isBridge : Out → Bool
  | .bridge _ _ _ => true
  | _ => false

/-- A frame leaves over the bridge, counted (R610). -/
def bridged (h : Hub) (o : Out) : Hub := count twinPage 0 1 (emit o h)

/-- h2 is h1 but for bridge frames sent and counted: the other member of a pair hears of mirrored writes and lost agents (R606, R607). -/
def SameButSent (h1 h2 : Hub) : Prop := ∃ more : List Out, h2 = more.foldl bridged h1 ∧ ∀ o ∈ more, isBridge o = true

/-- The command answers the state that a change of the hub gives, but for what it sends to the other member of a pair. -/
def AnswersHub (c : Instr) (s : State) (f : Hub → Hub) : Prop :=
  Answers c s (fun t => t.pending = s.pending ∧ t.holes = s.holes ∧ SameButSent (f s.hub) t.hub)

/-- What a register reads to the fabric manager, past the gate, whole. -/
def shows (page off : Nat) (s : State) : Option Nat := (pageInfo page).map (fun p => (regValue p page off s).1)

/-! ### What a command leaves as it was -/

/-- The command changes the queue and the Pigeonholes in nothing, and P holds of all else it answers. -/
def HubAnswers (c : Instr) (s : State) (P : Hub → Prop) : Prop :=
  Answers c s (fun t => t.pending = s.pending ∧ t.holes = s.holes ∧ P t.hub)

/-- The stored bytes and their poison are as before. -/
def SameMemory (h1 h2 : Hub) : Prop := h2.mem = h1.mem ∧ h2.poison = h1.poison

/-- h2 is h1 but for what error reports, counters and frames on their way out own: registers, the kept remainders of KiB
counters, ports, the switch buffer, the mirror, the Armoire's log, what is sent, and a pending injection. -/
def ReportsOnly (h1 h2 : Hub) : Prop :=
  h2 = { h1 with regs := h2.regs, kibSpare := h2.kibSpare, ports := h2.ports, egress := h2.egress, mirror := h2.mirror,
                 armoire := h2.armoire, outs := h2.outs, ras := { h1.ras with injection := h2.ras.injection } }

/-! ### Frames -/

/-- R251, R271, R273, R281, R560: frame f is the next on Ready port p, its checks hold, and the port admits it to a
module that serves, with no injection pending. -/
def frameTaken (p : Nat) (f : Frame) (h : Hub) : Bool :=
  portReady p h && f.crcOk && f.seq == (getPort p h).rxSeq && !f.stomped && moduleValid h && bindMode p h != 2 &&
  bindOk p f h && !levelRefused p f h && h.ras.fence == .serving && h.boot.phase == .ready && h.ras.injection == none

/-- R251, R285: what the link and the mirror note of a frame that is taken. -/
def frameNoted (p : Nat) (f : Frame) (h : Hub) : Hub := mirrorPoint p false false .none f (linkCount p f (seqCheck p f.seq h).2)

/-- Frame f for a unit u of this module, which stands alone, is taken on port p. -/
def meetsUnit (p : Nat) (f : Frame) (u : Nat) (s : State) : Bool :=
  frameTaken p f s.hub && f.dstModule == moduleId s.hub && f.dstUnit == u && !pairJoined s.hub

/-- The hub that the request of a taken frame meets: the link's notes made, the request numbered. -/
def atUnit (p : Nat) (f : Frame) (h : Hub) : Hub := (newReq (frameNoted p f h)).2

/-- Frame f for STORE is taken and in form; translation, served from what the STU has cached or needing no table, gives it
the module offset off in the store range; nothing holds it back on its way: no request waits, and no lease, shaper or
pending injection is there. -/
def meetsStore (p : Nat) (f : Frame) (off : Nat) (s : State) : Bool :=
  let h := atUnit p f s.hub
  let x := xlate (ringTrusted p f h) f.tenant f.asid f.addr (max 1 (reqLen f)) (opOf f) h
  meetsUnit p f 0x80 s && formOk f && s.hub.stu.waiting == [] && decide (off < windowBase) &&
  (match x.1 with
   | .ok ((o, _) :: _) _ => o == off
   | _ => false) &&
  decide (x.2.mem = s.hub.mem ∧ x.2.poison = s.hub.poison ∧ x.2.coh = s.hub.coh ∧ x.2.tier = s.hub.tier) &&
  s.hub.coh.txs == [] && s.hub.coh.waiting == [] && s.hub.coh.leases == [] && s.hub.shapers == [] && s.hub.ras.injection == none

/-- The memory of h2 is that of h1 with bytes bs at off. -/
def storesAt (off : Nat) (bs : List Byte) (h1 h2 : Hub) : Prop :=
  ∀ a, memGet h2.mem a = if off ≤ a ∧ a < off + bs.length then bs.getD (a - off) 0 else memGet h1.mem a

/-- What is left to do at h is to send frame f. -/
def sends (f : Hub → Frame) (h1 h2 : Hub) : Prop := h2 = sendFrame (f h1) h1

/-- A WORK, CURSOR_ADVANCE or PIGEON_SEND frame in form is taken for unit u, which no shaper holds back. -/
def meetsWork (p : Nat) (f : Frame) (u : Nat) (s : State) : Bool :=
  meetsUnit p f u s && unitFormOk f && !poisonedControl f && s.hub.shapers == []

/-- The last thing done is to send frame f's completion. -/
def answers (f : Frame) (status detail op0 op1 : Nat) (h : Hub) : Prop :=
  ∃ h1, h = sendFrame { completionOf f status detail 0 false [] h1 with operand0 := op0, operand1 := op1 } h1

/-- A request of a unit of this module to a module and unit finds a way. -/
def reachable (module unit : Nat) (h : Hub) : Bool :=
  if module = moduleId h then (agentPort unit h).isSome
  else
    match routeOf module none h with
    | .ring _ | .client _ => true
    | _ => false

/-- A tile whose bytes internal units write in place: in a T1 slot, no line of the store held elsewhere, no injection. -/
def plainTile (t : Nat) (h : Hub) : Bool :=
  (getTile t h).st == .upper && h.coh.filter == [] && h.ras.injection == none

/-- An entry of the ticket table, or of the mirror table, in the Cloakroom and in memory; no other entry changes. -/
def entryBecomes (mir : Bool) (i : Nat) (t : Ticket) (h1 h2 : Hub) : Prop :=
  (∀ m j, getTicket m j h2 = if m = mir ∧ j = i then t else getTicket m j h1) ∧
  storesAt (cloakTable mir h1 + 64 * i) (ticketBytes t) h1 h2

/-- An operation for the Cloakroom, op in AUX, that passes R416's checks at an entry that has no mirror. -/
def meetsTicket (p : Nat) (f : Frame) (op : Nat) (mir : Bool) (i : Nat) (t : Ticket) (s : State) : Bool :=
  meetsWork p (toUnit 0x83 (asAux op (asOp 0x11 f))) 0x83 s && cloakLenOk op f && decide (s.hub.cloak.ops.length < 256) &&
  enabled clPage s.hub && decide (cloakFind (leAt f.payload 0 8) s.hub = .here mir i t) && f.tenant == t.tenant && cloakSource op f t &&
  (op == 0x0C || leAt f.payload 8 4 == t.epoch) && cloakStates op t.st && !t.mirrored &&
  plainTile (tileOf (cloakTable mir s.hub + 64 * i)) s.hub

/-- No optimiser apply and no attention request awaits the end of a context. -/
abbrev Settled (h : Hub) : Prop := h.cur.runs = [] ∧ h.cloak.attends = []

/-- A context that has ended with a fault. -/
def faultedCtx (code : Nat) (x : Ctx) : Ctx :=
  { x with st := .faulted, fault := code, ending := none, fence := [], marks := [], signals := [], wait := none }

/-- R346, R347, R350: context c of core k issues word w now, which breaks no rule of its format. -/
def issues (k c : Nat) (w : Word) (h : Hub) : Bool := decide (fetchWord k c h = .word w) && !badWord w

/-- R362: a command has issued, leaving its context as y. -/
def issuedAs (k c : Nat) (y : Ctx) (h : Hub) : Hub := count (0x200 + k) 0 1 (putCtx k c y h)

/-! ### Host ports and messages -/

/-- A message leaves, after what was sent before; nothing sent before is taken back. -/
def sent (o : Out) (h1 h2 : Hub) : Prop := ∃ more, h2.outs = h1.outs ++ more ∧ o ∈ more

/-- R98, R498, R501: port p has a link and logical device n's access of 64 bytes at hpa passes the extent check of extent i,
to byte off of the store. The module stands alone, and no request, lease, shaper or pending injection is there. -/
def meetsCxl (p n hpa : Nat) (write : Bool) (i off dpa : Nat) (s : State) : Bool :=
  let h := count (cxlPage p) (bit01 write) 1 s.hub
  (getCxl p s.hub).up && decide (cxlCheck p n (hpa - hpa % 64) write h = .go i off dpa) && decide (off + 64 ≤ windowBase) &&
  !pairJoined s.hub && s.hub.stu.waiting == [] && s.hub.coh.txs == [] && s.hub.coh.waiting == [] && s.hub.coh.leases == [] && s.hub.shapers == [] &&
  s.hub.ras.injection == none

/-- A mailbox of logical device n, 16 the FM-owned one, answers a command; nothing else changes. -/
def mails (p n : Nat) (cmd : String) (rc : Nat) (payload : List Nat) (c : Instr) (s : State) : Prop :=
  exec c s = .next { s with hub := emit (.mailbox p n cmd rc payload) s.hub }

/-- R507: a range of a pool command of logical device n of port p: in one tile, wholly in extent i, which serves it at byte
off of the store, where an internal unit reads and writes in place. -/
def poolRange (p n i : Nat) (write : Bool) (a len off : Nat) (h : Hub) : Bool :=
  decide (dpaParts p n write 3 a len h = some [(off, len, i)]) && decide (off % 65536 + len ≤ 65536) && plainTile (tileOf off) h

/-- The pool holds one command, of logical device n of port p, whose one extent is Active; the module stands alone and
serves, with no shaper, no lease and no request there. -/
def poolAlone (p n i : Nat) (c : PouCmd) (h : Hub) : Bool :=
  serving h && !pairJoined h && h.pou.cmds == [c] && c.sub == .ld p n && decide (p < 2) && ((getCxl p h).extents.map (fun e => (e.1, e.2.st))) == [(i, .active)] &&
  h.shapers == [] && h.coh.leases == [] && reqsInFlight h == []

end Sys2Proof.Safety
end

