-- ==== Sys2Proof/Certificates/Slice0/Obligations.lean ====
section
/-!
DEFINITION. The statements about the model that are to be proved or refuted.
-/

open Sys2Proof Sys2Proof.Machine Sys2Proof.Safety

/-- The queue is first in, first out: a step takes the front command and leaves the rest to wait. -/
def Obligations.StepTakesTheFront : Prop :=
  ∀ (c : Instr) (rest : List Instr) (s : State),
    step { s with pending := c :: rest } = exec c { s with pending := rest }

/-- An empty queue: the block's time passes, by the model's choice of log entry 5. -/
def Obligations.EmptyQueueTicks : Prop :=
  ∀ s : State, s.pending = [] →
    ∃ t, step s = .next t ∧ t.pending = [] ∧ t.holes = s.holes ∧
      (s.hub.boot.phase = .held → t.hub.clock = s.hub.clock + 1 ∧ t.hub.devTime = s.hub.devTime ∧ t.hub.mem = s.hub.mem)

/-- No command stops the machine, and none reorders, adds or removes a command that waits. -/
def Obligations.EveryCommandGoesOn : Prop :=
  ∀ (c : Instr) (s : State), Answers c s (fun t => t.pending = s.pending)

/-- R516: the bound of a queue, kept by every step from every state that meets it. -/
def Obligations.PigeonholesStayBounded : Prop := Kept HolesBounded

/-- The machine without power: the sequencer held, both paths in bypass, nothing listed. -/
def Obligations.ResetState : Prop :=
  State.reset.pending = [] ∧ State.reset.hub.boot.phase = .held ∧ State.reset.hub.pathA.st = .bypassed ∧
  State.reset.hub.pathB.st = .bypassed ∧ State.reset.hub.pins.bypassForceN = true ∧ State.reset.hub.pins.vaux3 = false ∧
  HolesBounded State.reset ∧ MemoryCanonical State.reset ∧ step State.reset = .next (idle State.reset)

/-- Each command with the whole of its effect: nothing else of the state changes. -/
def Obligations.RailsStartTheModule : Prop :=
  ∀ s : State,
    (s.hub.pins.vaux3 = false → exec .vaux3On s = .next { s with hub := { s.hub with
      pins := { s.hub.pins with vaux3 := true }
      time := { s.hub.time with calSeconds := s.hub.armoire.savedSeconds, calSet := s.hub.armoire.savedSet, calStale := true,
                                poh := s.hub.armoire.savedPoh, calMark := s.hub.clock, pohMark := s.hub.clock } } }) ∧
    exec .vaux3Loss s = .next { s with hub := { s.hub with
      pins := { s.hub.pins with vaux3 := false }, side := {}, sec := {}
      regs := s.hub.regs.filter (fun e => !(e.1 / 4096 == 0x310 || e.1 / 4096 == 0x320)) } } ∧
    exec .pwrEnRise s = .next { s with hub := { s.hub with pins := { s.hub.pins with pwrEn := true } } } ∧
    (s.hub.pins.pwrEn = true → s.hub.pins.thermTripN = true → s.hub.pins.pgOut = false → s.hub.pins.modRstN = true →
      s.hub.boot.phase = .held → exec .pgOutRise s = .next { s with hub := { s.hub with
        pins := { s.hub.pins with pgOut := true }
        boot := { s.hub.boot with kind := 0, phase := .ledger, startedAt := s.hub.clock } } }) ∧
    (s.hub.pins.pgOut = true → s.hub.boot.phase = .held → exec .modRstNRelease s = .next { s with hub := { s.hub with
      pins := { s.hub.pins with modRstN := true }
      boot := { s.hub.boot with phase := .ledger, startedAt := s.hub.clock } } }) ∧
    (s.hub.pins.pgOut = false → exec .modRstNRelease s = .next { s with hub := { s.hub with
      pins := { s.hub.pins with modRstN := true } } }) ∧
    exec (.cxlPerstNRelease 0) s = .next { s with hub := { s.hub with pins := { s.hub.pins with perst0N := true } } } ∧
    exec (.cxlPerstNRelease 1) s = .next { s with hub := { s.hub with pins := { s.hub.pins with perst1N := true } } } ∧
    (∀ (x4 : Bool) (rate : Nat), 1 ≤ rate → rate ≤ 6 → s.hub.boot.phase = .ready → s.hub.pins.perst0N = true →
      s.hub.cxl0.up = false → exec (.cxlLinkUp 0 x4 rate) s = .next { s with hub := { s.hub with
        cxl0 := { s.hub.cxl0 with up := true, width := if x4 then 4 else 8, rate := rate } } }) ∧
    (∀ (ld : Nat), s.hub.boot.phase = .ready → s.hub.pins.perst0N = true →
      exec (.cxlConfigRequest 0 ld true) s = .next { s with hub := { s.hub with outs := s.hub.outs ++ [.cxlIo 0 ld 0] } })

/-- Entry to Held: the hub's own state is gone, the pins say why. -/
def Obligations.PowerFalls : Prop :=
  ∀ s : State, s.hub.pins.pgOut = true →
    let gone (t : State) : Prop := t.pending = s.pending ∧ t.hub.boot.phase = .held ∧ t.hub.mem = [] ∧ t.hub.poison = [] ∧
      t.hub.stu = {} ∧ t.hub.tier = {} ∧ t.hub.cores = [] ∧ t.hub.cur = {} ∧ t.hub.cloak = {} ∧ t.hub.emb = {} ∧ t.hub.search = {} ∧
      t.hub.pou = {} ∧ t.hub.meter = {} ∧ t.hub.ports = [] ∧ t.hub.egress = [] ∧
      (s.hub.boot.phase ≠ .held → t.holes = []) ∧ (s.hub.boot.phase = .held → t.holes = s.holes)
    Answers .pwrEnFall s (fun t => gone t ∧
      t.hub.pins = { s.hub.pins with pgOut := false, pwrEn := false, thermTripN := true } ∧ t.hub.boot.kind = 0) ∧
    Answers .railFault s (fun t => gone t ∧ t.hub.pins = { s.hub.pins with pgOut := false } ∧ t.hub.boot.kind = 0) ∧
    (∀ (x : Sensor) (v lim : Nat), tripPoint x = some lim → lim ≤ v →
      Answers (.thermalTrip x v) s (fun t => gone t ∧ t.hub.pins = { s.hub.pins with pgOut := false, thermTripN := false })) ∧
    (s.hub.pins.modRstN = true → Answers .modRstNAssert s (fun t => gone t ∧
      t.hub.pins = { s.hub.pins with modRstN := false } ∧
      t.hub.boot.kind = if s.hub.boot.phase = .held then s.hub.boot.kind else 1))

/-- A throttle is an interval between two readings of one sensor. -/
def Obligations.SensorsThrottle : Prop :=
  ∀ (s : State) (x : Sensor) (v lim : Nat), s.hub.pins.pgOut = true → throttlePoint x = some lim →
    (lim ≤ v → x ∉ s.hub.ras.throttled → Answers (.thermalThrottle x v) s (fun t =>
      t.hub.ras.throttled = x :: s.hub.ras.throttled ∧ (x, s.hub.clock) ∈ t.hub.ras.throttleStart ∧
      t.hub.ras.temps = setTemp x v s.hub.ras.temps ∧ t.hub.mem = s.hub.mem ∧ t.holes = s.holes ∧ t.hub.regs = s.hub.regs)) ∧
    (1500 ≤ v → Sensor.power ∉ s.hub.ras.throttled → Answers (.powerCeilingThrottle v) s (fun t =>
      t.hub.ras.throttled = Sensor.power :: s.hub.ras.throttled ∧ t.hub.mem = s.hub.mem ∧ t.holes = s.holes ∧
      t.hub.regs = s.hub.regs)) ∧
    (v < lim → x ∈ s.hub.ras.throttled → Answers (.throttleEnd x v) s (fun t =>
      x ∉ t.hub.ras.throttled ∧ (∀ y, y ≠ x → (y ∈ t.hub.ras.throttled ↔ y ∈ s.hub.ras.throttled)) ∧ t.hub.mem = s.hub.mem ∧
      t.holes = s.holes)) ∧
    (∀ (ch slot : Nat), ch < 16 → slot < 2 → Answers (.spdTempRead [(ch, slot, v)]) s (fun t =>
      t.hub.ras.temps = setTemp (.dimm ch slot) v s.hub.ras.temps ∧ t.hub.regs = s.hub.regs ∧ t.hub.mem = s.hub.mem)) ∧
    (s.hub.pathA.st = .bypassed → s.hub.pathB.st = .bypassed →
      Answers .bypassForceNLow s (fun t => t.hub.pins = { s.hub.pins with bypassForceN := false } ∧ t.hub.pathA = s.hub.pathA ∧
        t.hub.pathB = s.hub.pathB ∧ t.hub.mem = s.hub.mem ∧ t.holes = s.holes ∧
        (s.hub.pins.bypassForceN = true → regBit 0x348 0x18 20 t.hub = true)) ∧
      exec .bypassForceNHigh s = .next { s with hub := { s.hub with pins := { s.hub.pins with bypassForceN := true } } }) ∧
    (∀ (p : Fin 2) (perst : Bool), Answers (.hostPortReset p perst) s (fun t =>
      (getCxl p t.hub).up = false ∧ (getCxl p t.hub).width = 0 ∧ (getCxl p t.hub).rate = 0))

/-- The phases of R95, one clause for each command that ends one. -/
def Obligations.PhasesFollow : Prop :=
  ∀ s : State,
    (s.hub.boot.phase = .quiescing → s.hub.coh.txs = [] → s.hub.coh.waiting = [] → s.hub.coh.filter = [] →
      Answers .quiesceDone s (fun t => t.hub.boot.phase = .ledger ∧ t.holes = [] ∧ t.hub.boot.coreTested = false)) ∧
    (s.hub.boot.phase = .quiescing → s.hub.boot.startedAt + 30000000 ≤ s.hub.clock →
      Answers .quiesceTimeout s (fun t => t.hub.boot.phase = .ledger ∧ t.holes = [] ∧ regBit 0x330 0x18 24 t.hub = true)) ∧
    (∀ bad staged : Bool, s.hub.boot.phase = .ledger →
      Answers (.ledgerDone false bad staged) s (fun t => t.hub.boot.phase = .clocking ∧ t.holes = s.holes) ∧
      Answers (.ledgerDone true bad staged) s (fun t => regBit 0x330 0x18 16 t.hub = true ∧ t.holes = s.holes)) ∧
    (s.hub.boot.phase = .clocking → s.hub.boot.warm = false → s.hub.armoire.active = none →
      Answers .clockingDone s (fun t => t.hub.boot.phase = .testing ∧ t.hub.boot.loading = false ∧
        t.hub.boot.coreTested = false ∧ t.holes = s.holes)) ∧
    (∀ failed : List Nat, s.hub.boot.phase = .testing → s.hub.boot.coreTested = false →
      Answers (.coreSelfTestDone failed) s (fun t => t.hub.boot.coreTested = true ∧ t.hub.boot.phase = .testing ∧
        t.hub.mem = s.hub.mem ∧ t.holes = s.holes)) ∧
    (∀ r : TestReport, s.hub.boot.phase = .testing → s.hub.boot.coreTested = true → s.hub.boot.warm = false →
      s.hub.armoire.defect = [] → r.hbmFailed = [] → r.waysFailed = [] → r.rowsFailed = [] → r.bankFailed = false →
      Answers (.testingDone r) s (fun t => t.hub.boot.phase = .ready ∧ t.hub.boot.hbmOk = 255 ∧
        t.hub.boot.lastKind = s.hub.boot.kind ∧ t.holes = s.holes)) ∧
    (∀ lostHbm lostDdr : Bool, s.hub.boot.phase = .restoring → s.hub.boot.warm = true →
      Answers (.restoringDone lostHbm lostDdr) s (fun t => t.hub.boot.phase = .ready ∧ t.hub.boot.warm = false ∧
        t.hub.boot.lastKind = (if lostHbm || lostDdr then 3 else 2) ∧ t.holes = s.holes ∧
        ((lostHbm || lostDdr) = true → t.hub.boot.degraded = true))) ∧
    (s.hub.boot.phase = .ready → s.hub.boot.t2Done = false →
      exec .t2InitDone s = .next { s with hub := { s.hub with boot := { s.hub.boot with
        t2Done := true, watermark := channelBytes s.hub / 1048576 } } })

/-- The commands that are writes of these pages, each with its effect under the register gate. -/
def Obligations.PageCommandsAct : Prop :=
  ∀ (r : Requester) (s : State),
    (∀ v : Nat, admits r 0x348 0x100 s = true → v ≤ 2 →
      AnswersHub (.featureFloorWrite r v) s (putReg 0x348 0x100 (w64 (0x200 + v)))) ∧
    (∀ v : Nat, admits r 0x348 0x100 s = true → 2 < v → v < 16 →
      Answers (.featureFloorWrite r v) s (fun t => regBit 0x348 0x18 22 t.hub = true ∧
        getReg 0x348 0x100 t.hub = getReg 0x348 0x100 s.hub ∧ t.hub.mem = s.hub.mem ∧ t.holes = s.holes)) ∧
    (∀ v : Nat, admits r 0x348 0x40 s = true → v < 16 → s.hub.pathA.st = .bypassed → s.hub.pathB.st = .bypassed →
      AnswersHub (.joinEn r v) s (putReg 0x348 0x40 (w64 v &&& w64 0xB))) ∧
    (admits r 0x348 0x40 s = true → closable s.hub.pathA.st = true →
      Answers (.closeCmd r 3) s (fun t => t.hub.pathA.drive = false ∧
        t.hub.pathA.st = (if s.hub.pathA.sense then .closing else .bypassed) ∧ t.holes = s.holes)) ∧
    (∀ (p : Fin 28) (v : Nat), admits r (0x10 + p.val) 0x40 s = true → v < 4 → (getPort p s.hub).st = .disabled →
      AnswersHub (.nearLoopWrite r p v) s (putReg (0x10 + p.val) 0x40 (w64 v))) ∧
    (admits r 0x330 0x40 s = true → s.hub.boot.phase = .ready → s.hub.ras.fence ≠ .fatal →
      Answers (.warm r) s (fun t => t.hub.boot.phase = .quiescing ∧ t.hub.boot.warm = true ∧ t.hub.boot.kind = 2 ∧
        t.hub.boot.startedAt = s.hub.clock ∧ t.holes = s.holes)) ∧
    (∀ v : Nat, admits r 0x330 0x40 s = true → v < 4 → s.hub.pins.pgOut = true → s.hub.pins.modRstN = true →
      Answers (.cold r v) s (fun t => t.hub.boot.phase = .ledger ∧ t.hub.boot.kind = 1 ∧ t.hub.boot.startedAt = s.hub.clock ∧
        t.hub.mem = [] ∧ t.hub.tier = {} ∧ t.hub.stu = {} ∧ t.holes = [] ∧ t.hub.pins = s.hub.pins)) ∧
    (admits r 0x338 0x40 s = true → s.hub.armoire.defect.length < 1024 →
      locOk (regFld 0x338 0x58 63 60 s.hub) (regFld 0x338 0x58 47 0 s.hub) = true →
      AnswersHub (.defectAdd r) s (fun h => setDefects (h.armoire.defect ++
        [defectEntry (regFld 0x338 0x58 63 60 h) 3 (regFld 0x338 0x58 47 0 h)]) h)) ∧
    (∀ w : Word, admits r 0x338 0x40 s = true → s.hub.armoire.defect[regFld 0x338 0x48 9 0 s.hub]? = some w → fld w 59 58 ≠ 0 →
      AnswersHub (.defectRemove r) s (fun h => setDefects (h.armoire.defect.eraseIdx (regFld 0x338 0x48 9 0 h)) h))

/-- The header commands on any page of the map. -/
def Obligations.HeaderCommandsAct : Prop :=
  ∀ (r : Requester) (page : Nat) (p : PageInfo) (s : State), page < 0x1000 → pageInfo page = some p →
    (∀ v : Nat, admits r page 0x38 s = true → v < 2 ^ 64 → s.hub.twin.en = false →
      AnswersHub (.ownerWrite r page v) s (fun h =>
        putReg page 0x30 (putFld (getReg page 0x30 h) 14 13 0) (putReg page 0x38 (w64 v &&& w64 (masks [(25, 4), (2, 0)])) h))) ∧
    (∀ v : Nat, admits r page 0x10 s = true → v < 2 ^ 32 → v.testBit 2 = false →
      p.blk ≠ .port → p.blk ≠ .mirror → p.blk ≠ .shape → p.blk ≠ .tier → p.blk ≠ .emb → p.blk ≠ .fitting →
      AnswersHub (.ctrlEnableWrite r page v) s (putReg page 0x10 (w64 v &&& w64 (masks [(31, 16), (1, 0)])))) ∧
    (∀ v : Nat, admits r page 0x10 s = true → v < 2 ^ 32 → regBit page 0x10 0 s.hub = v.testBit 0 →
      Answers (.cntClear r page v) s (fun t =>
        (∀ k, counterClass p k = 1 → k < 24 → getReg page (0x800 + 8 * k) t.hub = 0 ∧
          Tab.get? t.hub.kibSpare (regKey page (0x800 + 8 * k)) = none) ∧
        getReg page 0x10 t.hub = w64 v &&& w64 (masks [(31, 16), (1, 0)]) ∧ t.hub.mem = s.hub.mem ∧ t.holes = s.holes)) ∧
    (∀ v : Nat, admits r page 0x1C s = true → v < 2 ^ 32 →
      Answers (.errMaskWrite r page false v) s (fun t => getReg page 0x1C t.hub = w64 v &&& w64 (errBits p ||| 0x1F) ∧
        t.hub.mem = s.hub.mem ∧ t.holes = s.holes)) ∧
    (∀ v : Nat, admits r page 0x18 s = true → v < 2 ^ 32 → regBit page 0x30 14 s.hub = false →
      Answers (.errStatusClear r page false v) s (fun t =>
        getReg page 0x18 t.hub = getReg page 0x18 s.hub &&& ~~~ (w64 v &&& w64 (masks [(31, 16), (4, 0)])) ∧
        (∀ o, o ≠ 0x18 → o < 0x1000 → getReg page o t.hub = getReg page o s.hub) ∧ t.hub.mem = s.hub.mem ∧ t.holes = s.holes)) ∧
    (∀ v : Nat, admits r page 0x28 s = true → v < 2 ^ 64 → (errBits p ||| 0x1B).testBit (v % 32) = true →
      Answers (.errInjectArm r page v) s (fun t => regBit page 0x18 (v % 32) t.hub = true ∧ regBit page 0x18 2 t.hub = true ∧
        t.hub.mem = s.hub.mem ∧ t.holes = s.holes)) ∧
    (∀ (k : Fin 256) (size v : Nat), admits r page (0x800 + 8 * k.val) s = true → counterClass p k = 1 → size = 4 ∨ size = 8 →
      AnswersHub (.counterSlotWrite r page k size 0) s (fun h => { putReg page (0x800 + 8 * k.val) 0 h with
        kibSpare := Tab.erase h.kibSpare (regKey page (0x800 + 8 * k.val)) }) ∧
      (0 < v → v < 2 ^ 32 → Answers (.counterSlotWrite r page k size v) s (fun t => regBit page 0x18 0 t.hub = true ∧
        t.hub.mem = s.hub.mem ∧ t.holes = s.holes)))

/-- The commands of a ring path; `getPath i` reads path i. -/
def Obligations.RingPathsMove : Prop :=
  ∀ (i : PathId) (s : State),
    ((getPath i s.hub).st = .bypassed → joinEn i s.hub = true → moduleValid s.hub = true → s.hub.boot.phase = .ready →
      closingCond s.hub = false →
      HubAnswers (.pathStartLoopback i) s (fun h => getPath i h = { getPath i s.hub with st := .loopback, since := s.hub.clock })) ∧
    ((getPath i s.hub).st = .loopback → (∀ p ∈ pathPorts i, (getPort p s.hub).st = .ready) →
      HubAnswers (.loopbackQualPass i) s (fun h =>
        getPath i h = { getPath i s.hub with st := .qualified, since := s.hub.clock, qual := true })) ∧
    ((getPath i s.hub).st = .loopback →
      HubAnswers (.loopbackQualFail i) s (fun h =>
        getPath i h = { getPath i s.hub with st := .refused, since := s.hub.clock } ∧ regBit 0x348 0x18 17 h = true)) ∧
    ((getPath i s.hub).st = .qualified → (getPath (otherPath i) s.hub).st ∉ [.opening, .joining] →
      (i = .b → (getPath .a s.hub).st ≠ .qualified) → closingCond s.hub = false → joinEn i s.hub = true →
      HubAnswers (.pathOpenDrive i) s (fun h =>
        getPath i h = { getPath i s.hub with st := .opening, since := s.hub.clock, drive := true })) ∧
    HubAnswers (.switchSensedOpen i) s (fun h =>
      getPath i h = if (getPath i s.hub).st = .opening then { getPath i s.hub with st := .joining, since := s.hub.clock, sense := true }
                    else { getPath i s.hub with sense := true }) ∧
    ((getPath i s.hub).st = .opening → (getPath i s.hub).sense = false → (getPath i s.hub).since + 10000000 ≤ s.hub.clock →
      HubAnswers (.openingTimeout i) s (fun h =>
        getPath i h = { getPath i s.hub with st := .closing, since := s.hub.clock, drive := false } ∧
        regBit 0x348 0x18 16 h = true)) ∧
    ((getPath i s.hub).st = .joining → (∀ p ∈ pathPorts i, (getPort p s.hub).st = .ready) →
      HubAnswers (.joinPass i) s (fun h =>
        getPath i h = { getPath i s.hub with st := .joined, since := s.hub.clock } ∧ regBit 0x348 0x18 18 h = true ∧
        getPath (otherPath i) h = getPath (otherPath i) s.hub ∧ SameMemory s.hub h)) ∧
    ((getPath i s.hub).st = .joining → (getPath i s.hub).since + 10000000000 ≤ s.hub.clock →
      HubAnswers (.joiningTimeout i) s (fun h =>
        getPath i h = { getPath i s.hub with st := .closing, since := s.hub.clock, drive := false })) ∧
    (closingCond s.hub = true → closable (getPath i s.hub).st = true →
      HubAnswers (.closingCondition i) s (fun h => (getPath i h).drive = false ∧
        (getPath i h).st = if (getPath i s.hub).sense then .closing else .bypassed)) ∧
    HubAnswers (.switchSensedClosed i) s (fun h =>
      getPath i h = if (getPath i s.hub).st = .closing then
                      { getPath i s.hub with st := .bypassed, since := s.hub.clock, sense := false, qual := false }
                    else { getPath i s.hub with sense := false }) ∧
    ((getPath i s.hub).st = .closing → (getPath i s.hub).sense = true → (getPath i s.hub).since + 10000000 ≤ s.hub.clock →
      HubAnswers (.closingTimeout i) s (fun h => regBit 0x348 0x18 16 h = true ∧ ReportsOnly s.hub h))

/-- The commands of port training; `linkClear` is a link with no frame, credit or partner. -/
def Obligations.PortsTrain : Prop :=
  ∀ (p : Fin 28) (s : State),
    let o := getPort p s.hub
    let become (st : PortState) : Port := { linkClear o with st := st, since := s.hub.clock }
    (o.st = .disabled → enabled (0x10 + p.val) s.hub = true → portMayStart p s.hub = true →
      exec (.portDetectStart p) s = .next { s with hub := putPort p (become .detect) s.hub }) ∧
    (∀ tx rx : Nat, o.st = .detect → 8 ≤ tx → 8 ≤ rx →
      exec (.partnerDetected p tx rx) s = .next { s with hub := putPort p (become .equalise) s.hub }) ∧
    (∀ tx rx : List Nat, o.st = .equalise →
      (portOutcome o tx rx = (.pass, .pass) →
        exec (.equaliseDone p tx rx) s = .next { s with hub := putPort p (become .laneMap) s.hub }) ∧
      (∀ l, portOutcome o tx rx = (.retire l, .pass) →
        HubAnswers (.equaliseDone p tx rx) s (fun h => (getPort p h).st = .laneMap ∧ (getPort p h).txRetired = some l ∧
          (getPort p h).rxRetired = o.rxRetired ∧ regBit (0x10 + p.val) 0x18 17 h = true ∧ SameMemory s.hub h)) ∧
      (∀ l, portOutcome o tx rx = (.pass, .retire l) →
        HubAnswers (.equaliseDone p tx rx) s (fun h => (getPort p h).st = .laneMap ∧ (getPort p h).rxRetired = some l ∧
          (getPort p h).txRetired = o.txRetired ∧ regBit (0x10 + p.val) 0x18 17 h = true ∧ SameMemory s.hub h)) ∧
      ((portOutcome o tx rx).1 = .retry → (portOutcome o tx rx).2 = .pass →
        exec (.equaliseDone p tx rx) s = .next { s with hub := putPort p { become .retry with secondFail := false } s.hub }) ∧
      ((portOutcome o tx rx).1 = .second →
        HubAnswers (.equaliseDone p tx rx) s (fun h => (getPort p h).st = .retry ∧ (getPort p h).secondFail = true ∧
          regBit 0x330 0x18 22 h = true ∧ SameMemory s.hub h))) ∧
    (∀ (vkm : Bool) (level module role : Nat) (own : Option Nat), o.st = .laneMap →
      (regBit (0x10 + p.val) 0x40 1 s.hub = true →
        exec (.lanemapDone p vkm level module role own) s = .next { s with hub := putPort p { become .qualify with level := 2 } s.hub }) ∧
      (regBit (0x10 + p.val) 0x40 1 s.hub = false → ¬(isRingPort p = true ∧ (getPath (pathOf p) s.hub).st = .loopback) →
        (bindMode p s.hub ≠ 2 ∨ s.hub.twin.en = false) →
        (1 ≤ level → level ≤ 3 → ¬(vkm = true ∧ moduleValid s.hub = true ∧ module = moduleId s.hub) →
          HubAnswers (.lanemapDone p vkm level module role own) s (fun h => (getPort p h).st = .qualify ∧
            (getPort p h).partnerV = true ∧ (getPort p h).partnerVkm = vkm ∧ (getPort p h).partnerModule = module ∧
            (getPort p h).partnerLevel = level ∧ (getPort p h).level = min 2 level ∧ SameMemory s.hub h)) ∧
        ((level = 0 ∨ 3 < level) →
          HubAnswers (.lanemapDone p vkm level module role own) s (fun h => (getPort p h).st = .retry ∧
            regBit (0x10 + p.val) 0x18 20 h = true ∧ SameMemory s.hub h)) ∧
        (1 ≤ level → level ≤ 3 → vkm = true → moduleValid s.hub = true → module = moduleId s.hub →
          HubAnswers (.lanemapDone p vkm level module role own) s (fun h => (getPort p h).st = .retry ∧
            regBit 0x330 0x18 23 h = true ∧ SameMemory s.hub h)))) ∧
    (∀ (vkm : Bool) (level module role : Nat), o.st = .laneMap → regBit (0x10 + p.val) 0x40 1 s.hub = false →
      (∀ q : Nat, isRingPort p = true → (getPath (pathOf p) s.hub).st = .loopback → q ≠ p.val → q < 4 → pathOf q = pathOf p →
        HubAnswers (.lanemapDone p vkm level module role (some q)) s (fun h => (getPort p h).st = .qualify ∧
          (getPort p h).partnerModule = moduleId s.hub ∧ SameMemory s.hub h)) ∧
      (isRingPort p = true → (getPath (pathOf p) s.hub).st = .loopback →
        HubAnswers (.lanemapDone p vkm level module role none) s (fun h => (getPath (pathOf p) h).st = .refused ∧
          regBit 0x348 0x18 17 h = true)) ∧
      (∀ own : Option Nat, isRingPort p = false → bindMode p s.hub = 2 → s.hub.twin.en = true → 1 ≤ level → level ≤ 3 →
        HubAnswers (.lanemapDone p vkm level module role own) s (fun h => SameMemory s.hub h ∧ (getPort p h).st =
          if s.hub.armoire.moduleId = some module ∧ role ≠ s.hub.twin.role ∧ vkm = true then .qualify else .retry))) ∧
    (∀ tx rx : List Nat, o.st = .qualify → portOutcome o tx rx = (.pass, .pass) → s.hub.ras.injection = none →
      HubAnswers (.qualifySoakEnd p tx rx) s (fun h => (getPort p h).st = .ready ∧ (getPort p h).wasReady = true ∧
        (getPort p h).since = s.hub.clock ∧ SameMemory s.hub h)) ∧
    (o.st = .ready → (bindMode p s.hub ≠ 2 ∨ s.hub.twin.en = false) →
      HubAnswers (.linkLoss p) s (fun h => (getPort p h).st = .detect)) ∧
    (o.st = .retry → o.since + 1000000000 ≤ s.hub.clock →
      (o.secondFail = false → exec (.retryTimerExpiry p) s = .next { s with hub := putPort p (become .detect) s.hub }) ∧
      (o.secondFail = true → HubAnswers (.retryTimerExpiry p) s (fun h => getPort p h = become .disabled ∧
        regBit (0x10 + p.val) 0x10 0 h = false ∧ SameMemory s.hub h))) ∧
    (∀ (rx uncorr : Bool) (lane : Nat), o.st = .ready → lane ≤ 8 → (if rx then o.rxRetired else o.txRetired) ≠ some lane →
      (enabled 0x300 s.hub = true → regBit 0x300 0x40 3 s.hub = false →
        HubAnswers (.laneBerLimit p rx lane uncorr) s (fun h => (getPort p h).st = .ready ∧ SameMemory s.hub h)) ∧
      (enabled 0x300 s.hub = true → regBit 0x300 0x40 3 s.hub = true → (if rx then o.rxRetired else o.txRetired) = none →
        (bindMode p s.hub ≠ 2 ∨ s.hub.twin.en = false) →
        HubAnswers (.laneBerLimit p rx lane uncorr) s (fun h => (getPort p h).st = .equalise))) ∧
    (∀ powers : List Nat, HubAnswers (.ringRxpwrUpdate powers) s (fun h =>
      (∀ q < 4, (getPort q h).rxPower = powers.getD q 0x80 % 256) ∧
      (∀ q < 4, (getPath (pathOf q) s.hub).st ∈ [.joining, .joined] →
        powerOf (powers.getD q 0x80 % 256) < powerOf (regFld 0x348 0x5C 7 0 s.hub) → regBit 0x348 0x18 19 h = true) ∧
      SameMemory s.hub h)) ∧
    (∀ l, l ≤ 8 → dirOutcome none [] = .pass ∧ dirOutcome none [l] = .retire l ∧ dirOutcome (some l) [l] = .pass ∧
      ∀ m, m ≤ 8 → m ≠ l → dirOutcome none [l, m] = .retry ∧ dirOutcome (some l) [m] = .second)

/-- R25, at each size R27 takes; reads past what hides a page (R111, R560), which other rules state. -/
def Obligations.UndefinedAddressesReadZero : Prop :=
  ∀ (r : Requester) (page pg off size v : Nat) (s : State), pageHome page s.hub = .mine pg →
    (pageInfo pg = none → regRead r page off size s = (0, s) ∧ exec (.registerWrite r page off size v) s = .next s) ∧
    (∀ p : PageInfo, pageInfo pg = some p → accessOk off size = true →
      (if 0x800 ≤ off then counterClass p ((off - 0x800) / 8) = 0
       else regAt p off = none ∧ (size = 8 → regAt p (off + 4) = none)) →
      (hiddenPage pg s.hub = false → fenceHides pg s.hub = false → regRead r page off size s = (0, s)) ∧
      (isFm r = true → exec (.registerWrite r page off size v) s = .next s))

/-- REGISTER_WRITE, through the gate that every register write passes. -/
def Obligations.RegisterWritesPassTheGate : Prop :=
  ∀ (r : Requester) (off size v : Nat) (s : State),
    (∀ (page : Nat) (p : PageInfo) (d : RegDef) (k : Nat), page < 0x1000 → pageInfo page = some p →
      p.blk ∈ [.dev, .time, .switch, .scache, .hbmc, .ddrc, .codec, .sec] → regAt p off = some ⟨d, k, 0⟩ → 0x40 ≤ off →
      off < 0x800 → d.width = size → accessOk off size = true → v < 2 ^ (8 * size) → admits r page off s = true →
      AnswersHub (.registerWrite r page off size v) s (storeFields page off d v)) ∧
    (∀ (page pg : Nat) (p : PageInfo), pageHome page s.hub = .mine pg → pageInfo pg = some p → hiddenPage pg s.hub = false →
      reaches r s.hub = true →
      (accessOk off size = false → (regRead r page off size s).1 = 2 ^ (8 * size) - 1 ∧
        HubAnswers (.registerWrite r page off size v) s (fun h => regBit pg 0x18 0 h = true ∧ SameMemory s.hub h)) ∧
      (accessOk off size = true → pairBlank p s.hub = false → mayWrite r p pg off s.hub = false →
        HubAnswers (.registerWrite r page off size v) s (fun h => regBit pg 0x18 1 h = true ∧
          getReg 0 0x58 h = w64 (mkFld 50 38 pg + mkFld 37 26 off + denyBits r) ∧ SameMemory s.hub h))) ∧
    (∀ page : Nat, reaches r s.hub = false ∨ (∃ pg, pageHome page s.hub = .mine pg ∧ hiddenPage pg s.hub = true) →
      exec (.registerWrite r page off size v) s = .next s)

/-- R155. The reserved bits hold 0 in every state a run reaches; the premise says so of the state before. -/
def Obligations.TenantBaseIsLocked : Prop :=
  ∀ (r : Requester) (v : Nat) (s : State), admits r 0xA0 0x48 s = true → v < 2 ^ 64 →
    (enabled 0xA0 s.hub = true →
      HubAnswers (.stuTenantBaseWrite r v) s (fun h => getReg 0xA0 0x48 h = getReg 0xA0 0x48 s.hub ∧
        regBit 0xA0 0x18 18 h = true ∧ SameMemory s.hub h)) ∧
    (enabled 0xA0 s.hub = false → getReg 0xA0 0x48 s.hub &&& ~~~ (w64 (maskOf 45 16)) = 0 →
      AnswersHub (.stuTenantBaseWrite r v) s (putReg 0xA0 0x48 (w64 v &&& w64 (maskOf 45 16))))

/-- R157. -/
def Obligations.FaultFifoPops : Prop :=
  ∀ (r : Requester) (s : State),
    (s.hub.stu.faults.length ≤ 16 → shows 0xA0 0x60 s = some (s.hub.stu.faults.length * 65536)) ∧
    (admits r 0xA0 0x60 s = true →
      AnswersHub (.stuFaultPop r) s (fun h => { h with stu := { h.stu with faults := h.stu.faults.tail } })) ∧
    (admits r 0xA0 0x60 s = true → s.hub.stu.faults = [] → AnswersHub (.stuFaultPop r) s (fun h => h))

/-- The commands of the STU but for STU_TENANT_BASE and STU_FAULT_CTRL. -/
def Obligations.TranslationCommandsAct : Prop :=
  ∀ (r : Requester) (tenant asid n : Nat) (s : State),
    (∀ (scope : Nat) (c : Instr), (scope, c) ∈ [(0, .invalidateAll r tenant asid n), (1, .invalidateTenant r tenant asid n),
        (2, .invalidateAsid r tenant asid n), (3, .invalidateRange r tenant asid n)] →
      admits r 0xA1 0x48 s = true → tenant < 4096 → asid < 65536 → n < 65536 →
      (s.hub.stu.invs.length < 16 →
        HubAnswers c s (fun h => h.stu.issuedSeq = (s.hub.stu.issuedSeq + 1) % 65536 ∧
          h.stu.invs.length = s.hub.stu.invs.length + 1 ∧ SameMemory s.hub h ∧
          (s.hub.stu.invs = [] → ∀ e ∈ h.stu.leaves, e ∈ s.hub.stu.leaves ∧
            invCovers ⟨0, scope, tenant, asid, (getReg 0xA1 0x40 s.hub).toNat / 2 ^ 21 * 2 ^ 21, max 1 n, false, []⟩
              e.tenant e.asid e.base e.size = false))) ∧
      (16 ≤ s.hub.stu.invs.length →
        HubAnswers c s (fun h => regBit 0xA1 0x18 16 h = true ∧ h.stu = s.hub.stu ∧ SameMemory s.hub h))) ∧
    (∀ (c : InvCmd) (cs : List InvCmd), storeRuns s.hub = true → s.hub.stu.invs = c :: cs →
      (∀ i ∈ c.waitFor, i ∉ (heldAtShapers s.hub).map (·.id)) →
      HubAnswers .invalidationDone s (fun h => h.stu.doneSeq = c.seq ∧ h.stu.invs.length = cs.length ∧
        regBit 0xA1 0x58 0 h = true ∧ SameMemory s.hub h)) ∧
    (admits r 0xA2 0x48 s = true → tenant < 4096 → asid < 65536 → n < 65536 →
      let va := (getReg 0xA2 0x40 s.hub).toNat / 2 ^ 21 * 2 ^ 21
      (s.hub.stu.prewalks = [] → s.hub.stu.walks.length < 32 → pfWalks s.hub.stu < pfLimit s.hub → va < 2 ^ 57 →
        findLeaf tenant asid va s.hub = none → walking tenant asid (va / 2 ^ 21) s.hub.stu = false →
        HubAnswers (.prewalkCmd r tenant asid n) s (fun h => walking tenant asid (va / 2 ^ 21) h.stu = true ∧ SameMemory s.hub h)) ∧
      (16 ≤ s.hub.stu.prewalks.length →
        HubAnswers (.prewalkCmd r tenant asid n) s (fun h => regBit 0xA2 0x18 16 h = true ∧ h.stu = s.hub.stu ∧
          SameMemory s.hub h))) ∧
    (∀ (vpn : Nat) (w : Walk), storeRuns s.hub = true → s.hub.stu.waiting = [] → s.hub.stu.prewalks = [] →
      s.hub.stu.walks.find? (fun w => w.tenant == tenant && w.asid == asid && w.vpn == vpn) = some w →
      (w.again = true →
        exec (.translationWalkDone tenant asid vpn) s = .next { s with hub := { s.hub with stu := { s.hub.stu with
          walks := s.hub.stu.walks.filter (fun v => v != w) } } }) ∧
      (∀ (e k : Nat) (h1 : Hub), w.again = false → walkPage tenant asid (vpn * 2 ^ 21) s.hub = (.ok (e, k), h1) →
        HubAnswers (.translationWalkDone tenant asid vpn) s (fun h =>
          ⟨tenant, asid, vpn * 2 ^ 21 / k * k, k, e, !w.demand⟩ ∈ h.stu.leaves ∧ w ∉ h.stu.walks)))

/-- The commands that are writes of TIER_CMD. `left` is the command as it stands at the head afterwards. -/
def Obligations.TierCommandsAct : Prop :=
  ∀ (r : Requester) (tenant cls : Nat) (s : State), admits r 0x90 0x148 s = true → tenant < 4096 → cls < 8 →
    let a := getReg 0x90 0x140 s.hub
    let t := fld a 28 0
    let v := getTile t s.hub
    let seq := (s.hub.tier.issuedSeq + 1) % 65536
    let left (op done : Nat) (started : Bool) (result : Option Nat) : List TierCmd :=
      [{ seq := seq, tile := t, count := fld a 63 48, op := op, cls := cls, tenant := tenant, done := done, started := started,
         result := result }]
    let ends (op done : Nat) (result : Nat) (h : Hub) : Hub :=
      { h with tier := { h.tier with issuedSeq := seq, cmds := left op done false (some result) } }
    let room (k : Nat) : Prop := usedOf k s.hub < ceilingOf k s.hub ∧ slotsUsed s.hub < s.hub.tier.slots
    (16 ≤ s.hub.tier.cmds.length → ∀ c ∈ [Instr.alloc r tenant cls, .free r tenant cls, .pin r tenant cls, .unpin r tenant cls,
        .promote r tenant cls, .demote r tenant cls, .evict r tenant cls, .setclass r tenant cls, .sealTiles r tenant cls,
        .hdrRead r tenant cls],
      HubAnswers c s (fun h => regBit 0x90 0x18 18 h = true ∧ h.tier = s.hub.tier ∧ SameMemory s.hub h)) ∧
    (enabled 0x90 s.hub = true → s.hub.tier.cmds = [] → fld a 63 48 ≤ 1 →
      (v.st ∈ [.upper, .clean, .lower, .promoting, .demoting] → AnswersHub (.alloc r tenant cls) s (ends 1 1 0)) ∧
      (v.st = .free → room cls →
        HubAnswers (.alloc r tenant cls) s (fun h => h.tier.cmds = left 1 1 false (some 0) ∧
          getTile t h = { st := .upper, cls := cls, owner := tenant, stamp := ageNow s.hub } ∧
          ∀ k < 65536, memGet h.mem (65536 * t + k) = 0)) ∧
      (0 < v.pins → AnswersHub (.free r tenant cls) s (ends 2 0 2)) ∧
      (v.pins = 0 → v.st = .free → AnswersHub (.free r tenant cls) s (ends 2 1 0)) ∧
      (v.pins = 0 → v.st ∈ [.upper, .clean, .lower] →
        HubAnswers (.free r tenant cls) s (fun h => getTile t h = { v with st := .freeing } ∧ h.tier.cmds = left 2 0 true none)) ∧
      (v.st ∈ [.upper, .clean, .demoting] → v.pins < 255 → lockRefused t s.hub = false →
        AnswersHub (.pin r tenant cls) s (fun h => putTile t { v with pins := v.pins + 1 } (ends 3 1 0 h))) ∧
      (v.st ∈ [.free, .void] → AnswersHub (.pin r tenant cls) s (ends 3 0 5)) ∧
      AnswersHub (.unpin r tenant cls) s (fun h =>
        if v.pins = 0 then ends 4 1 0 h else putTile t { v with pins := v.pins - 1 } (ends 4 1 0 h)) ∧
      (v.st ∈ [.free, .upper, .clean, .demoting, .freeing, .void] → AnswersHub (.promote r tenant cls) s (ends 5 1 0)) ∧
      (v.st = .lower → room v.cls →
        HubAnswers (.promote r tenant cls) s (fun h => getTile t h = { v with st := .promoting, stamp := ageNow s.hub } ∧
          h.tier.cmds = left 5 0 true none ∧ SameMemory s.hub h)) ∧
      (v.st ∈ [.free, .clean, .lower, .promoting, .freeing, .void] → AnswersHub (.demote r tenant cls) s (ends 6 1 0)) ∧
      (v.st = .upper → s.hub.ras.freeMapBad = false → findRun (imageGranules (imageUnits t s.hub)) s.hub ≠ none →
        HubAnswers (.demote r tenant cls) s (fun h => (getTile t h).st = .demoting ∧ h.tier.cmds = left 6 0 true none)) ∧
      (0 < v.pins → AnswersHub (.evict r tenant cls) s (ends 7 0 2)) ∧
      (v.st = .clean → v.pins = 0 → v.holds = 0 →
        HubAnswers (.evict r tenant cls) s (fun h => (getTile t h).st = .lower ∧ t ∉ h.tier.ageQ ∧
          h.tier.cmds = left 7 1 false (some 0) ∧ h.mem = s.hub.mem)) ∧
      (v.st = .lower → AnswersHub (.setclass r tenant cls) s (fun h => putTile t { v with cls := cls } (ends 8 1 0 h))) ∧
      (v.st ∈ [.upper, .clean, .promoting, .demoting] →
        HubAnswers (.setclass r tenant cls) s (fun h => getTile t h = { v with cls := cls, stamp := ageNow s.hub } ∧
          h.tier.cmds = left 8 1 false (some 0) ∧ SameMemory s.hub h)) ∧
      (¬(v.st = .upper ∧ v.sealed = 0) → AnswersHub (.sealTiles r tenant cls) s (ends 9 1 0)) ∧
      (v.st = .upper → v.sealed = 0 → s.hub.coh.filter = [] → s.hub.coh.txs = [] → s.hub.coh.waiting = [] →
        HubAnswers (.sealTiles r tenant cls) s (fun h => (getTile t h).sealed = 2 ∧ (getTile t h).bsel = bselOf t s.hub ∧
          (getTile t h).sealTime = s.hub.devTime % 2 ^ 48 ∧ h.tier.cmds = left 9 1 false (some 0) ∧ SameMemory s.hub h)) ∧
      (v.st ∉ [.free, .void] →
        AnswersHub (.hdrRead r tenant cls) s (fun h => let x := ends 10 1 0 h
          { x with tier := { x.tier with hdr := (List.range 16).map (fun j => w64 (leAt (headerOfTile t v) (8 * j) 8)) } })))

/-- The commands of the tiers other than writes of TIER_CMD. -/
def Obligations.TierEventsAct : Prop :=
  ∀ (r : Requester) (t line : Nat) (s : State),
    (∀ (c : TierCmd) (res : Nat), serving s.hub = true → s.hub.tier.cmds = [c] → c.result = some res →
      HubAnswers .tierCmdDone s (fun h => h.tier = { s.hub.tier with cmds := [], doneSeq := c.seq, result := res, doneTiles := c.done } ∧
        regBit 0x90 0x160 0 h = true ∧ SameMemory s.hub h)) ∧
    (∀ v : Nat, admits r 0x90 0x40 s = true → v < 2 ^ 32 →
      (enabled 0x90 s.hub = true → nbits v 15 0 ≠ regFld 0x90 0x40 15 0 s.hub →
        HubAnswers (.tierCfgWrite r v) s (fun h => regBit 0x90 0x18 19 h = true ∧ getReg 0x90 0x40 h = getReg 0x90 0x40 s.hub ∧
          SameMemory s.hub h)) ∧
      (enabled 0x90 s.hub = false ∨ nbits v 15 0 = regFld 0x90 0x40 15 0 s.hub →
        AnswersHub (.tierCfgWrite r v) s (putReg 0x90 0x40 (w64 v &&& w64 (masks [(31, 24), (17, 0)]))))) ∧
    (∀ (c : Fin 8) (v : Nat), admits r 0x90 (0x80 + 16 * c.val) s = true → v < 2 ^ 64 →
      let floors := ((List.range 8).map (fun k => if k = c.val then nbits v 23 0 else floorOf k s.hub)).sum
      (nbits v 23 0 ≤ nbits v 55 32 → floors ≤ s.hub.tier.slots →
        AnswersHub (.classLimitWrite r c v) s (putReg 0x90 (0x80 + 16 * c.val) (w64 v &&& w64 (masks [(55, 32), (23, 0)])))) ∧
      (nbits v 55 32 < nbits v 23 0 ∨ s.hub.tier.slots < floors →
        HubAnswers (.classLimitWrite r c v) s (fun h => regBit 0x90 0x18 17 h = true ∧
          getReg 0x90 (0x80 + 16 * c.val) h = getReg 0x90 (0x80 + 16 * c.val) s.hub ∧ SameMemory s.hub h))) ∧
    (storeRuns s.hub = true → s.hub.tier.cmds = [] → s.hub.coh.txs = [] →
      ((getTile t s.hub).st = .promoting → HubAnswers (.promotionDone t) s (fun h => (getTile t h).st = .clean ∧ h.mem = s.hub.mem)) ∧
      ((getTile t s.hub).st = .demoting → (getTile t s.hub).next = .stay → recalling t s.hub = false → s.hub.ras.freeMapBad = false →
        HubAnswers (.demotionDone t) s (fun h => h.mem = s.hub.mem ∧
          (((getTile t h).st = .clean ∧ (getTile t h).run ≠ none) ∨ ((getTile t h).st = .upper ∧ regBit 0x90 0x160 2 h = true)))) ∧
      ((getTile t s.hub).st = .freeing → recalling t s.hub = false →
        HubAnswers (.freeingDone t) s (fun h => getTile t h = {} ∧ ∀ a, memGet h.mem a = if a / 65536 = t then 0 else memGet s.hub.mem a))) ∧
    (serving s.hub = true → enabled 0x90 s.hub = true → regFld 0x90 0x40 31 24 s.hub ≠ 0 →
      (slotsFree s.hub < regFld 0x90 0x44 23 0 s.hub → backgroundVictim s.hub = some t → (getTile t s.hub).st = .clean →
        HubAnswers .backgroundEviction s (fun h => (getTile t h).st = .lower ∧ h.mem = s.hub.mem)) ∧
      (regBit 0x90 0x40 16 s.hub = true → evictable (getTile t s.hub) = true → (getTile t s.hub).st = .clean →
        0 < ageLimitOf (getTile t s.hub).cls s.hub → ageLimitOf (getTile t s.hub).cls s.hub ≤ ageOf (getTile t s.hub) s.hub →
        floorOf (getTile t s.hub).cls s.hub < usedOf (getTile t s.hub).cls s.hub →
        HubAnswers (.ageEviction t) s (fun h => (getTile t h).st = .lower ∧ h.mem = s.hub.mem))) ∧
    (serving s.hub = true → HubAnswers .stampPatrol s (fun h => h = { s.hub with tier := { s.hub.tier with tiles := h.tier.tiles } } ∧
      h.tier.tiles.map (fun e => (e.1, { e.2 with stamp := 0 })) = s.hub.tier.tiles.map (fun e => (e.1, { e.2 with stamp := 0 })) ∧
      ∀ e ∈ h.tier.tiles, ageOf e.2 h ≤ 2 ^ 30)) ∧
    (storeRuns s.hub = true → s.hub.ras.freeMapBad = true → s.hub.tier.cmds = [] →
      exec .freeMapRebuildDone s = .next { s with hub := { s.hub with ras := { s.hub.ras with freeMapBad := false } } }) ∧
    (∀ (x : HomeTx) (q : Nat), storeRuns s.hub = true → s.hub.coh.txs = [x] → x.wait = .fill → x.lines = [line] →
      x.req.src = .frame q → x.req.frame.opcode = 1 → (getTile (line / 512) s.hub).st = .upper → s.hub.ras.injection = none →
      HubAnswers (.lineReadFill line) s (fun h => inT0 line h = true ∧ h.coh.txs = [] ∧ h.mem = s.hub.mem)) ∧
    (∀ (x : Req) (q : Nat), storeRuns s.hub = true → s.hub.coh.waiting = [x] → s.hub.coh.txs = [] → s.hub.coh.filter = [] →
      x.src = .frame q → x.frame.opcode = 1 → line ∈ reqLines x → (getTile (tileOf x.off) s.hub).st = .upper →
      HubAnswers (.homeTransactionStart line) s (fun h => h.coh.waiting = [] ∧ h.mem = s.hub.mem ∧ h.coh.txs =
        if (reqLines x).all (fun l => inT0 l s.hub) then [] else [⟨x, reqLines x, [], .fill, false, false, false⟩]))

/-- The commands of the Cursor Engine; c is the cursor that CURSOR_SEL selects. -/
def Obligations.CursorCommandsAct : Prop :=
  ∀ (r : Requester) (s : State),
    let c := regFld 0xB0 0x44 5 0 s.hub
    let x := getCursor c s.hub
    (admits r 0xB0 0x60 s = true →
      (x.st = .free → AnswersHub (.cursorDefine r) s (putCursor c { x with st := .armed, step := 0, pos := 0 })) ∧
      (x.st ≠ .free → HubAnswers (.cursorDefine r) s (fun h => regBit 0xB0 0x18 17 h = true ∧ h.cur = s.hub.cur ∧ SameMemory s.hub h)) ∧
      HubAnswers (.cursorRelease r) s (fun h => getCursor c h = { x with st := .free, step := 0, pos := 0 } ∧
        drawersOf c h = [] ∧ (∀ k ∈ h.cur.holds, k.cursor ≠ c) ∧ SameMemory s.hub h)) ∧
    (∀ (bind : Bool) (v : Nat), admits r 0xB0 (if bind then 0x50 else 0x48) s = true → v < 2 ^ 64 →
      (x.st = .free → AnswersHub (.cursorDefWrite r bind v) s (putCursor c
        (if bind then { x with bind := w64 v &&& w64 (masks [(25, 4), (if s.hub.twin.en then 3 else 2, 0)]) }
         else { x with defn := w64 v &&& w64 (masks [(63, 48), (43, 0)]) }))) ∧
      (x.st ≠ .free → HubAnswers (.cursorDefWrite r bind v) s (fun h => regBit 0xB0 0x18 17 h = true ∧ h.cur = s.hub.cur ∧
        SameMemory s.hub h))) ∧
    (∀ v : Nat, admits r 0xB0 0x80 s = true → v < 2 ^ 64 →
      let k := nbits v 5 0
      let y := getCursor k s.hub
      y.st ≠ .free → nbits v 31 16 ≤ fld y.defn 15 0 →
      (advAllowed y (.reg r) s.hub = true → s.hub.cur.drawers = [] → s.hub.cur.runs = [] → s.hub.cur.missed = [] →
        s.hub.cur.holds = [] → s.hub.cur.moved = [] → s.hub.emb.tables = [] →
        (y.st = .armed → HubAnswers (.cursorAdvance (.reg r 0 8 v)) s (fun h => SameMemory s.hub h ∧
          getCursor k h = { y with st := .running, step := nbits v 63 32, pos := nbits v 31 16, lastAdv := s.hub.devTime })) ∧
        (∀ d : Int, y.st ≠ .armed → posDist y.step y.pos (nbits v 63 32) (nbits v 31 16) y.m = some d →
          (0 < d → (regFld 0xB0 0x40 15 0 s.hub = 0 ∨ d ≤ (regFld 0xB0 0x40 15 0 s.hub : Int)) →
            HubAnswers (.cursorAdvance (.reg r 0 8 v)) s (fun h => SameMemory s.hub h ∧
              getCursor k h = { y with st := .running, step := nbits v 63 32, pos := nbits v 31 16, lastAdv := s.hub.devTime })) ∧
          (d < 0 → v.testBit 15 = false →
            HubAnswers (.cursorAdvance (.reg r 0 8 v)) s (fun h => getCursor k h = y ∧ SameMemory s.hub h)))) ∧
      (advAllowed y (.reg r) s.hub = false → s.hub.cur.moved = [] →
        HubAnswers (.cursorAdvance (.reg r 0 8 v)) s (fun h => regBit 0xB0 0x18 18 h = true ∧ h.cur = s.hub.cur ∧ SameMemory s.hub h))) ∧
    (∀ (k : Fin 64), let y := getCursor k s.hub
      serving s.hub = true → y.st = .running → 0 < fld y.defn 63 48 → y.lastAdv + 1000000 * fld y.defn 63 48 ≤ s.hub.devTime →
      HubAnswers (.cursorIdleExpiry k) s (fun h => getCursor k h = { y with st := .stalled } ∧ (∀ q ∈ h.cur.holds, q.cursor ≠ k) ∧
        regBit 0xB0 0xE8 2 h = true ∧ SameMemory s.hub h)) ∧
    (∀ i : Fin 4096, admits r 0xB0 0xC0 s = true →
      let d : Drawer := ⟨stagingWord 0 s.hub, putFld (stagingWord 1 s.hub) 15 14 0, stagingWord 2 s.hub,
        if fld (stagingWord 1 s.hub) 57 54 = 4 then putFld (stagingWord 3 s.hub) 63 32 0 else stagingWord 3 s.hub, false, none⟩
      (drawerBusy i s.hub = true →
        AnswersHub (.drawerWrite r i) s (fun h => { h with cur := { h.cur with result := 1 } })) ∧
      (drawerBusy i s.hub = false → drawerBad d s.hub = true →
        HubAnswers (.drawerWrite r i) s (fun h => regBit 0xB0 0x18 16 h = true ∧ h.cur = { s.hub.cur with result := 2 } ∧ SameMemory s.hub h)) ∧
      (drawerBusy i s.hub = false → drawerBad d s.hub = false → (d.kind = 4 → fld d.w3 31 0 = 0) →
        (getCursor d.cursor s.hub).st = .armed →
        HubAnswers (.drawerWrite r i) s (fun h => Tab.get? h.cur.drawers i = some d ∧ h.cur.result = 0 ∧ SameMemory s.hub h)) ∧
      (Tab.get? s.hub.cur.drawers i = none →
        AnswersHub (.drawerRead r i) s (fun h => { h with cur := { h.cur with result := 3 } }) ∧
        AnswersHub (.drawerDelete r i) s (fun h => { h with cur := { h.cur with result := 3 } })) ∧
      (∀ e : Drawer, Tab.get? s.hub.cur.drawers i = some e →
        (drawerBusy i s.hub = false →
          HubAnswers (.drawerRead r i) s (fun h => h.cur = { s.hub.cur with result := 0 } ∧ SameMemory s.hub h ∧
            getReg 0xB0 0xA0 h = e.w0 ∧ getReg 0xB0 0xB0 h = e.w2)) ∧
        HubAnswers (.drawerDelete r i) s (fun h => Tab.get? h.cur.drawers i = none ∧ h.cur.result = 0 ∧
          (∀ q ∈ h.cur.holds, q.drawer ≠ i) ∧ SameMemory s.hub h))) ∧
    (∀ (q : DrawerRun) (i : Fin 4096), serving s.hub = true → s.hub.cur.runs = [q] → q.drawer = i → q.todo = [] → q.wait = [] →
      q.apply = none → q.doneAt = none → q.deleted = false →
      (q.lateAt = none → exec (.drawerWorkDone i) s = .next { s with hub := { s.hub with cur := { s.hub.cur with
        runs := [{ q with doneAt := some s.hub.devTime }] } } }) ∧
      (∀ t : Nat, q.lateAt = some t → s.hub.cur.reports.length < 64 →
        HubAnswers (.drawerWorkDone i) s (fun h => h.cur.runs = [] ∧ h.cur.reports.length = s.hub.cur.reports.length + 1 ∧
          regBit 0xB0 0xE8 0 h = true ∧ SameMemory s.hub h))) ∧
    (admits r 0xB0 0xE0 s = true →
      AnswersHub (.reportPop r) s (fun h => { h with cur := { h.cur with reports := h.cur.reports.tail } }))

/-- The commands of the time base and of the Yumer links. -/
def Obligations.LinksKeepTheirFrames : Prop :=
  ∀ s : State,
    (∀ (p : Fin 28) (tx eTx eRx hops : Nat), syncEn s.hub = true → syncPort p s.hub = true →
      let o : Port := { getPort p s.hub with syncTx := tx, syncRx := s.hub.devTime, syncHops := hops }
      let h1 := putPort p o { s.hub with time := { s.hub.time with lastSync := s.hub.devTime } }
      (s.hub.time.sync = 3 ∨ eTx = 0 → exec (.timeSync p tx eTx eRx hops) s = .next { s with hub := h1 }) ∧
      (s.hub.time.sync ≠ 3 → eTx ≠ 0 → bestSync h1 = some p.val → s.hub.time.locked = false → masterEn s.hub = false →
        0 < syncOffset eTx eRx tx s.hub.devTime →
        exec (.timeSync p tx eTx eRx hops) s = .next { s with hub := { h1 with
          devTime := s.hub.devTime + (syncOffset eTx eRx tx s.hub.devTime).toNat
          time := { h1.time with offset := wrapInt 32 (syncOffset eTx eRx tx s.hub.devTime), source := p, locked := true,
                                 slewForward := 0, slewBack := 0, sync := 1, hops := min 0xFE (hops + 1) } } })) ∧
    (syncEn s.hub = true →
      exec .syncSendTimer s = .next { s with hub := { s.hub with
        outs := s.hub.outs ++ ((List.range 28).filter (fun p => syncPort p s.hub)).map (fun p => .frame p
          { opcode := 0x41, posted := true, len := 32, payload := syncPayload p s.hub, scarry := scarryOf (syncPayload p s.hub) }) } }) ∧
    (syncEn s.hub = true → s.hub.time.sync = 1 → s.hub.time.lastSync + 1000000 ≤ s.hub.devTime →
      HubAnswers .syncLossTimeout s (fun h => h.time = { s.hub.time with sync := 2 } ∧ regBit 1 0x18 16 h = true ∧
        h.devTime = s.hub.devTime ∧ SameMemory s.hub h)) ∧
    (masterEn s.hub = true → s.hub.time.locked = false → s.hub.time.sync ≠ 3 → s.hub.time.lastSync + 100000000 ≤ s.hub.devTime →
      exec .masterTimeout s = .next { s with hub := { s.hub with time := { s.hub.time with sync := 3, hops := 0 } } }) ∧
    (∀ p : Fin 28, (getPort p s.hub).st = .ready → let o := getPort p s.hub
      (∀ (ack : Nat) (credits : List Nat), s.hub.egress = [] →
        exec (.linkCtrl p ack none credits) s = .next { s with hub := putPort p { o with
          replay := o.replay.filter (fun f => !ackedBy ack f.frame.seq)
          credits := (List.range 8).map (fun c => o.credits.getD c 0 + credits.getD c 0) } s.hub }) ∧
      (let g := (List.range 8).map (fun c => grantable p c s.hub)
       exec (.linkCtrlSendTimer p) s = .next { s with hub :=
        { putPort p { o with granted := (List.range 8).map (fun c => o.granted.getD c 0 + g.getD c 0) } s.hub with
          outs := s.hub.outs ++ [.linkCtrl p ((o.rxSeq + 65535) % 65536) (if o.discarding then some o.rxSeq else none) g] } }) ∧
      ((∀ f ∈ o.replay, f.replays < 3) →
        HubAnswers (.replayTimeout p) s (fun h => (getPort p h).st = .ready ∧ SameMemory s.hub h ∧
          ∀ f ∈ o.replay, f.sentAt + 20000 ≤ s.hub.devTime → Out.frame p f.frame ∈ h.outs)) ∧
      ((∃ f ∈ o.replay, f.replays = 3 ∧ f.sentAt + 20000 ≤ s.hub.devTime) → (bindMode p s.hub ≠ 2 ∨ s.hub.twin.en = false) →
        HubAnswers (.replayTimeout p) s (fun h => (getPort p h).st = .detect))) ∧
    (∀ (p : Fin 28) (f : Frame) (k : Fin 4), portReady p s.hub = true →
      (k.val < 2 → (getPort p s.hub).discarding = false →
        HubAnswers (.frameCrcFail p f k) s (fun h => getPort p h = { getPort p s.hub with discarding := true } ∧ SameMemory s.hub h ∧
          Out.linkCtrl p (((getPort p s.hub).rxSeq + 65535) % 65536) (some (getPort p s.hub).rxSeq) (List.replicate 8 0) ∈ h.outs)) ∧
      (k.val = 3 → f.crcOk = true → f.seq = (getPort p s.hub).rxSeq →
        HubAnswers (.frameCrcFail p f k) s (fun h => regBit (0x10 + p.val) 0x18 21 h = true ∧ SameMemory s.hub h))) ∧
    (∀ (tag : Nat) (o : Outstanding), storeRuns s.hub = true → s.hub.outstanding = [o] → o.frame.tag = tag → o.purpose = .notify →
      o.issued + deadBound s.hub ≤ s.hub.devTime → s.hub.cur.runs = [] → s.hub.cloak = {} →
      HubAnswers (.deadTargetExpiry tag) s (fun h => h.outstanding = [] ∧ regBit 0x40 0x18 16 h = true ∧
        (⟨o.frame.srcUnit, tag, s.hub.devTime + 2 * deadBound s.hub⟩ : DeadTag) ∈ h.deadTags ∧ SameMemory s.hub h)) ∧
    (∀ a : Assembly, storeRuns s.hub = true → s.hub.assemblies = [a] → a.dead = false → a.started + deadBound s.hub ≤ s.hub.devTime →
      HubAnswers .tileWriteIncomplete s (fun h => h.assemblies = [] ∧ SameMemory s.hub h))

/-- Requests for STORE whose translation the caches serve and that nothing holds back, at a tile in a T1 slot. -/
def Obligations.StoreFramesAct : Prop :=
  ∀ (p : Fin 28) (f : Frame) (off : Nat) (s : State), (getTile (tileOf off) s.hub).st = .upper → s.hub.coh.filter = [] →
    (meetsStore p (asOp 1 f) off s = true → (∀ l ∈ linesOf off f.len, inT0 l s.hub = true) →
      HubAnswers (.read p f) s (fun h => ∃ h1 sc, SameMemory s.hub h1 ∧ SameMemory s.hub h ∧
        sends (fun x => { completionOf (asOp 1 f) (if (memRead off f.len s.hub).2 then stPoisoned else stOk) 0 0
          (memRead off f.len s.hub).2 (memRead off f.len s.hub).1 x with scarry := sc }) h1 h)) ∧
    (meetsStore p (asOp 2 f) off s = true →
      HubAnswers (.write p f) s (fun h => storesAt off f.payload s.hub h ∧
        ∀ l ∈ linesOf off f.len, Tab.get? h.coh.t0 l = some .dirty)) ∧
    (meetsStore p (asOp 3 f) off s = true →
      HubAnswers (.writePosted p f) s (fun h => storesAt off f.payload s.hub h ∧
        ∀ l ∈ linesOf off f.len, Tab.get? h.coh.t0 l = some .dirty)) ∧
    (let n := if f.aux.testBit 8 then 8 else 4
     let x := f.operand0 % 2 ^ (8 * n)
     let y := f.operand1 % 2 ^ (8 * n)
     let old := ofBytesLE (memGetN s.hub.mem off n)
     ∀ (op new : Nat) (c : Instr), (op, new, c) ∈ [(1, (old + x) % 2 ^ (8 * n), .atomicAdd p f), (2, old &&& x, .atomicAnd p f),
        (3, old ||| x, .atomicOr p f), (4, old ^^^ x, .atomicXor p f), (5, x, .atomicSwap p f),
        (6, if old = x then y else old, .atomicCas p f),
        (7, if sextNat (8 * n) x < sextNat (8 * n) old then x else old, .atomicSmin p f),
        (8, if sextNat (8 * n) old < sextNat (8 * n) x then x else old, .atomicSmax p f),
        (9, min old x, .atomicUmin p f), (10, max old x, .atomicUmax p f), (16, fadd32 old x, .atomicFadd32 p f)] →
      meetsStore p (asAux op (asOp 4 f)) off s = true → anyPoison off n s.hub = false →
      HubAnswers c s (fun h => storesAt off (bytesLE n new) s.hub h)) ∧
    (meetsUnit p (asOp 5 f) 0x80 s = true → f.posted = false → s.hub.shapers = [] → s.hub.stu.waiting = [] → s.hub.coh.txs = [] →
      s.hub.coh.waiting = [] →
      HubAnswers (.flush p f) s (fun h => SameMemory s.hub h ∧
        ∃ h1, SameMemory s.hub h1 ∧ sends (completionOf (asOp 5 f) stOk 0 0 false []) h1 h)) ∧
    (meetsStore p (asOp 6 f) off s = true → s.hub.assemblies = [] →
      HubAnswers (.tileWrite p f) s (fun h => SameMemory s.hub h ∧
        h.assemblies = [⟨f.srcModule, f.srcUnit, f.tag, f.addr, s.hub.devTime, [(nbits f.aux 4 0, asOp 6 f)], false, p⟩]))

/-- Coherence requests and answers, under the conditions of `meetsStore`. -/
def Obligations.CoherenceFramesAct : Prop :=
  ∀ (p : Fin 28) (f : Frame) (off k : Nat) (s : State), agentIndex f.srcModule f.srcUnit s.hub = some k → off % 128 = 0 →
    ((getTile (tileOf off) s.hub).st = .upper → s.hub.coh.filter = [] →
      (meetsStore p (asOp 0x50 f) off s = true → inT0 (lineOf off) s.hub = true →
        HubAnswers (.cohRdShared p f) s (fun h => SameMemory s.hub h ∧
          (getFilter (lineOf off) h).map (·.owner) = some (if regBit 0x60 0x40 0 s.hub then some k else none))) ∧
      (meetsStore p (asOp 0x51 f) off s = true →
        HubAnswers (.cohRdOwn p f) s (fun h => SameMemory s.hub h ∧ (getFilter (lineOf off) h).map (·.owner) = some (some k))) ∧
      (meetsStore p (asOp 0x52 f) off s = true →
        HubAnswers (.cohUpgrade p f) s (fun h => SameMemory s.hub h ∧ (getFilter (lineOf off) h).map (·.owner) = some (some k)))) ∧
    (∀ g : Nat, s.hub.coh.filter = [(lineOf off, ⟨some k, g⟩)] →
      (meetsStore p (asOp 0x53 f) off s = true →
        HubAnswers (.cohWb p f) s (fun h => storesAt off f.payload s.hub h ∧
          (getFilter (lineOf off) h).map (·.owner) = if f.aux.testBit 0 then some none else none)) ∧
      (meetsStore p (asOp 0x54 f) off s = true →
        HubAnswers (.cohEvict p f) s (fun h => getFilter (lineOf off) h = none ∧ SameMemory s.hub h))) ∧
    (meetsUnit p (asOp 0x55 f) 0x80 s = true → formOk (asOp 0x55 f) = true →
      HubAnswers (.cohHeartbeat p f) s (fun h => getAgent k h = { getAgent k s.hub with lastHb := s.hub.devTime } ∧ SameMemory s.hub h)) ∧
    (∀ (x : HomeTx) (n : Snoop), meetsUnit p (toUnit 0x89 (asOp 0x20 f)) 0x89 s = true → s.hub.coh.txs = [x] → x.snoops = [n] →
      n.tag = f.tag → n.kind = 2 → x.req.src = .tileRecall false → x.req.frame = {} →
      HubAnswers (.snoopResponse p f) s (fun h => h.coh.txs = [] ∧
        (getFilter n.line h).map (·.owner) = (if nbits f.aux 1 0 = 0 then none else some none) ∧
        (if f.payload.length = 128 then storesAt (128 * n.line) f.payload s.hub h else SameMemory s.hub h))) ∧
    (∀ q : Nat, frameTaken p (asOp 0x5A f) s.hub = true → pairJoined s.hub = false → f.dstModule = moduleId s.hub → 0xC0 ≤ f.dstUnit →
      agentPort f.dstUnit s.hub = some q →
      exec (.cohFwdData p f) s = .next { s with hub := enqueue raise p q (asOp 0x5A f) (frameNoted p (asOp 0x5A f) s.hub) })

/-- The commands of the COH page and its timers, of a module that stands alone. -/
def Obligations.AgentsAndLeasesAct : Prop :=
  ∀ (r : Requester) (s : State), pairJoined s.hub = false →
    (∀ (a : Fin 32) (v : Nat), admits r 0x60 (0x100 + 8 * a.val) s = true → v < 2 ^ 64 → a.val < agentCount s.hub →
      let e := getAgent a s.hub
      (e.st = .off ∨ e.st = .walked → v.testBit 0 = true →
        AnswersHub (.cohAgentWrite r a v) s (putAgent a
          { e with st := .active, en := true, module := nbits v 17 8, unit := nbits v 25 18, lastHb := s.hub.devTime })) ∧
      (e.st = .active ∨ e.st = .lost → nbits v 25 18 ≠ e.unit ∨ nbits v 17 8 ≠ e.module →
        HubAnswers (.cohAgentWrite r a v) s (fun h => regBit 0x60 0x18 17 h = true ∧ h.coh = s.hub.coh ∧ SameMemory s.hub h))) ∧
    (∀ a : Fin 32, let e := getAgent a s.hub
      storeRuns s.hub = true → e.st = .active → 0 < regFld 0x60 0x40 31 16 s.hub →
      e.lastHb + 1000 * regFld 0x60 0x40 31 16 s.hub ≤ s.hub.devTime → s.hub.coh.txs = [] → s.hub.coh.leases = [] →
      HubAnswers (.agentHeartbeatTimeout a) s (fun h => getAgent a h = { e with st := .lost } ∧
        h.coh.walks = s.hub.coh.walks ++ [a.val] ∧ regBit 0x60 0x18 16 h = true ∧ SameMemory s.hub h)) ∧
    (∀ (k : Nat) (rest : List Nat), storeRuns s.hub = true → s.hub.coh.walks = k :: rest →
      HubAnswers .walkDone s (fun h => (getAgent k h).st = .walked ∧ h.coh.walks = rest ∧ regBit 0x60 0xF0 0 h = true ∧
        (∀ e ∈ h.coh.filter, e.2.owner ≠ some k) ∧ h.mem = s.hub.mem)) ∧
    (∀ (i : Fin 4096) (term : Nat), let l := getLease i s.hub
      admits r 0x60 0x70 s = true → term < 65536 → leaseUsable i s.hub = true → s.hub.ras.injection = none →
      (let tile := regFld 0x60 0x68 28 0 s.hub
       let n := max 1 (regFld 0x60 0x68 63 48 s.hub)
       l.st = .undefined → (∀ e ∈ s.hub.coh.leases, e.2.st = .undefined ∨ tile + n ≤ e.2.tile ∨ e.2.tile + e.2.count ≤ tile) →
       tile + n ≤ 2 ^ 29 →
       HubAnswers (.leaseDefine r i term) s (fun h => getLease i h = { st := .idle, tile := tile, count := n, termMs := term })) ∧
      (l.st = .idle → HubAnswers (.leaseUndefine r i term) s (fun h => getLease i h = {})) ∧
      (l.st ≠ .idle → HubAnswers (.leaseUndefine r i term) s (fun h => regBit 0x60 0x18 20 h = true ∧
        h.coh.leases = s.hub.coh.leases ∧ SameMemory s.hub h)) ∧
      (l.st = .held → HubAnswers (.leaseRevoke r i term) s (fun h =>
        getLease i h = { l with st := .idle, epoch := (l.epoch + 1) % 2 ^ 32 }))) ∧
    (∀ (i : Fin 4096) (epoch : Nat) (w : Holder), let l := getLease i s.hub
      admits r 0x60 0x78 s = true → epoch < 2 ^ 32 → holderOf r s.hub = some w → enabled 0x60 s.hub = true → leaseUsable i s.hub = true → s.hub.ras.injection = none →
      (l.st = .idle → HubAnswers (.leaseTake r i epoch) s (fun h => getLease i h =
        { l with st := .held, holder := w, epoch := (l.epoch + 1) % 2 ^ 32, started := s.hub.devTime })) ∧
      (l.st = .held → l.holder = w → l.epoch = epoch →
        HubAnswers (.leaseRenew r i epoch) s (fun h => getLease i h = { l with started := s.hub.devTime }) ∧
        HubAnswers (.leaseGive r i epoch) s (fun h => getLease i h = { l with st := .idle }))) ∧
    (∀ i : Fin 4096, let l := getLease i s.hub
      leaseUsable i s.hub = true → l.st = .held → 0 < l.termMs → l.started + 1000000 * l.termMs ≤ s.hub.devTime →
      HubAnswers (.leaseExpiry i) s (fun h => getLease i h = { l with st := .idle, epoch := (l.epoch + 1) % 2 ^ 32 } ∧
        regBit 0x60 0xF0 1 h = true))

/-- Frames that no store, ticket or engine takes, at a module that stands alone. -/
def Obligations.RegisterAndSwitchFramesAct : Prop :=
  ∀ (p : Fin 28) (f : Frame) (s : State), pairJoined s.hub = false →
    (let g := asOp 8 f
     let v := regRead (.agent f.srcModule f.srcUnit f.tenant) (f.addr / 4096) (f.addr % 4096) f.len (onHub (frameNoted p g) s)
     meetsUnit p g 0x81 s = true → regFormOk g = true →
      exec (.regRead p f) s = .next (onHub (fun h => sendFrame (completionOf g stOk 0 0 false (bytesLE f.len v.1) h) h) v.2)) ∧
    (let g := asOp 9 f
     let w := regWrite (.agent f.srcModule f.srcUnit f.tenant) (f.addr / 4096) (f.addr % 4096) f.len (ofBytesLE f.payload)
       (onHub (frameNoted p g) s)
     meetsUnit p g 0x81 s = true → regFormOk g = true → poisonedControl g = false →
      exec (.regWrite p f) s = .next (onHub (fun h => sendFrame
        (completionOf g (match w.1 with | .ok => stOk | .denied => stDenied | .badAccess => stBadRequest) 0 0 false [] h) h) w.2)) ∧
    (let g := asOp 0x20 f
     meetsUnit p g f.dstUnit s = true → f.dstUnit < 0xC0 → f.dstUnit ≠ 0x89 →
      (∀ (o : Outstanding) (l m : List Outstanding), s.hub.outstanding = l ++ o :: m → o.frame.srcUnit = f.dstUnit → o.frame.tag = f.tag →
        (∀ x ∈ l, x.frame.srcUnit ≠ f.dstUnit ∨ x.frame.tag ≠ f.tag) →
        exec (.completion p f) s = .next (onHub (fun h => svcSettle (completeFor o g { frameNoted p g h with outstanding := l ++ m })) s) ∧
        (o.purpose = .notify → s.hub.cur.runs = [] → s.hub.cloak.attends = [] →
          exec (.completion p f) s = .next (onHub (fun h =>
            (if f.status = stOk then id else raise 0xB8 17) { frameNoted p g h with outstanding := l ++ m }) s))) ∧
      ((∀ x ∈ s.hub.outstanding, x.frame.srcUnit ≠ f.dstUnit ∨ x.frame.tag ≠ f.tag) →
        (∃ d ∈ s.hub.deadTags, d.unit = f.dstUnit ∧ d.tag = f.tag ∧ s.hub.devTime < d.until_) →
        HubAnswers (.completion p f) s (fun h => ReportsOnly s.hub h ∧ regBit 0x40 0x18 19 h = true))) ∧
    (frameTaken p f s.hub = true → f.dstModule ≠ moduleId s.hub → f.opcode ∉ [0x40, 0x41] → ¬(0x60 ≤ f.opcode ∧ f.opcode ≤ 0x6F) →
      let way := routeOf f.dstModule (if isRingPort p then some p.val else none) (frameNoted p f s.hub)
      (∀ east, way = .ring east →
        exec (.frameForward p f) s = .next (onHub (fun h => sendRing raise p east f (frameNoted p f h)) s)) ∧
      (∀ q, way = .client q → exec (.frameForward p f) s = .next (onHub (fun h => enqueue raise p q f (frameNoted p f h)) s)) ∧
      (way = .dead → f.posted = false → f.opcode ≠ 0x20 →
        HubAnswers (.frameForward p f) s (fun h => ReportsOnly s.hub h ∧ ∃ h1, h = count 0x40 3 1 (sendFrame
          { completionOf f stTargetDead 0 0 (decide (0 < deadBytes f)) (poisonPattern (deadBytes f)) h1 with
            srcModule := moduleId h1, srcUnit := 0x8A } h1))) ∧
      (way = .dead → f.posted = true →
        exec (.frameForward p f) s = .next (onHub (fun h => dropFrame p false .noRoute f (frameNoted p f h)) s))) ∧
    (meetsUnit p f f.dstUnit s = true → f.dstUnit < 0x88 → ¬(0x40 ≤ f.dstUnit ∧ f.dstUnit < 0x80) → definedOpcode f.opcode = false →
      ¬(0x60 ≤ f.opcode ∧ f.opcode ≤ 0x6F) →
      (f.posted = false → exec (.reservedOpcode p f) s = .next (onHub (fun h =>
        sendFrame (completionOf f stUnsupported 0 0 false [] (frameNoted p f h)) (frameNoted p f h)) s)) ∧
      (f.posted = true → exec (.reservedOpcode p f) s = .next (onHub (frameNoted p f) s)))

/-- Operations on a ticket under `meetsTicket`. -/
def Obligations.TicketFramesAct : Prop :=
  ∀ (p : Fin 28) (f : Frame) (mir : Bool) (i : Nat) (t : Ticket) (s : State),
    let at_ (op : Nat) : Frame := toUnit 0x83 (asAux op (asOp 0x11 f))
    let next : Ticket := { t with st := .held, epoch := (t.epoch + 1) % 2 ^ 32, takerM := 0, takerU := 0, deadline := 0 }
    (∀ t1 : Ticket, t1 = { t with
        st := .offered, takerM := nbits (leAt f.payload 8 8) 41 32, takerU := nbits (leAt f.payload 8 8) 49 42
        notify := leAt f.payload 16 8, deadline := s.hub.devTime + 1000 * max 100 (regFld 0xB8 0x48 23 0 s.hub) } →
      meetsTicket p f 0x08 mir i t s = true → leAt f.payload 16 8 % 64 = 0 → nbits (leAt f.payload 16 8) 63 57 = 0 →
      nbits (leAt f.payload 8 8) 63 50 = 0 →
      HubAnswers (.offer p f) s (fun h => entryBecomes mir i t1 s.hub h ∧ answers (at_ 0x08) 0 0 (entryOperand t1) 0 h)) ∧
    (∀ t1 : Ticket, t1 = { next with ownerM := t.takerM, ownerU := t.takerU } → meetsTicket p f 0x09 mir i t s = true →
      HubAnswers (.accept p f) s (fun h => entryBecomes mir i t1 s.hub h ∧ answers (at_ 0x09) 0 0 (entryOperand t1) 0 h)) ∧
    (meetsTicket p f 0x0A mir i t s = true →
      HubAnswers (.decline p f) s (fun h => entryBecomes mir i next s.hub h ∧ answers (at_ 0x0A) 0 0 (entryOperand next) 0 h)) ∧
    (meetsTicket p f 0x0B mir i t s = true →
      HubAnswers (.withdraw p f) s (fun h => entryBecomes mir i next s.hub h ∧ answers (at_ 0x0B) 0 0 (entryOperand next) 0 h)) ∧
    (meetsTicket p f 0x0C mir i t s = true →
      HubAnswers (.whoOwns p f) s (fun h => h.cloak = s.hub.cloak ∧ SameMemory s.hub h ∧
        answers (at_ 0x0C) 0 0 (entryOperand t) (mkFld 9 0 t.takerM + mkFld 17 10 t.takerU +
          mkFld 41 18 (if t.st = .offered then (t.deadline - s.hub.devTime) / 1000 else 0) + mkFld 43 43 (bit01 t.spilled)) h)) ∧
    (∀ t1 : Ticket, t1 = { t with st := .releasing } → meetsTicket p f 0x0D mir i t s = true → t.refs ≠ 0 →
      HubAnswers (.ticketRelease p f) s (fun h => entryBecomes mir i t1 s.hub h ∧ answers (at_ 0x0D) 0 0 (entryOperand t1) 0 h)) ∧
    (meetsTicket p f 0x0D mir i t s = true → t.refs = 0 →
      HubAnswers (.ticketRelease p f) s (fun h =>
        (∀ m j, getTicket m j h = if m = mir ∧ j = i then { gen := (t.gen + 1) % 256 } else getTicket m j s.hub) ∧
        (∀ k, t.runBase ≤ k → k < t.runBase + t.runTiles → k ≠ tileOf (cloakTable mir s.hub + 64 * i) → (getTile k h).st = .free))) ∧
    (∀ t1 : Ticket, t1 = { t with spilled := true } → meetsTicket p f 0x04 mir i t s = true → s.hub.cloak.moves = [] →
      (∀ k, t.runBase + t.lt ≤ k → k < t.runBase + t.runTiles →
        (getTile k s.hub).st = .clean ∧ (getTile k s.hub).pins = 0 ∧ (getTile k s.hub).holds = 0) →
      HubAnswers (.spill p f) s (fun h => entryBecomes mir i t1 s.hub h ∧ answers (at_ 0x04) 0 0 (entryOperand t1) 0 h ∧
        h.cloak.moves = [] ∧ ∀ k, t.runBase + t.lt ≤ k → k < t.runBase + t.runTiles → (getTile k h).st = .lower)) ∧
    (∀ (up : Bool) (t1 : Ticket) (c : Instr), (up, t1, c) ∈ [(false, { t with spilled := true }, .spill p f), (true, { t with spilled := false }, .fetch p f)] →
      meetsTicket p f (if up then 0x05 else 0x04) mir i t s = true → s.hub.cloak.moves = [] →
      (∀ k, t.runBase + t.lt ≤ k → k < t.runBase + t.runTiles → (getTile k s.hub).st = (if up then .demoting else .promoting)) →
      HubAnswers c s (fun h => entryBecomes mir i t1 s.hub h ∧ answers (at_ (if up then 0x05 else 0x04)) 0 0 (entryOperand t1) 0 h ∧
        h.cloak.moves = (natRange (t.runBase + t.lt) (t.runTiles - t.lt)).map (fun k => (k, up))))

/-- CREATE, PUSH, APPEND and ATTEND frames. -/
def Obligations.TicketsAreFilled : Prop :=
  ∀ (p : Fin 28) (f : Frame) (s : State),
    let at_ (op : Nat) : Frame := toUnit 0x83 (asAux op (asOp 0x11 f))
    (∀ (i base : Nat) (h1 : Hub), let g := at_ 0x10
      let h0 := meterAdd f.tenant 6 1 (atUnit p g s.hub)
      let t := createTicket g i base h0
      meetsWork p g 0x83 s = true → f.len = 16 → s.hub.cloak.ops.length < 256 → enabled clPage s.hub = true → createBad g s.hub = false →
      (leAt f.payload 0 8).testBit 30 = false → (createTicket g 0 0 h0).runTiles ≤ regFld clPage 0x40 63 32 s.hub → nextIndex h0 = some i →
      arenaFind (createTicket g 0 0 h0).runTiles h0 = some base → writeLists t h0 = some h1 →
      HubAnswers (.create p f) s (fun h => getTicket false i h = t ∧ t.st = .held ∧ t.ownerM = f.srcModule ∧ t.ownerU = f.srcUnit ∧
        h.cloak.lastIndex = i ∧ answers g 0 0 t.tid (mkFld 28 0 base + mkFld 63 32 t.runTiles) h)) ∧
    (∀ (i : Nat) (t : Ticket),
      let w1 := leAt f.payload 8 8
      let w2 := leAt f.payload 16 8
      let w3 := leAt f.payload 24 8
      meetsTicket p f 0x02 false i t s = true → s.hub.cloak.ops = [] → nbits w1 47 32 ≤ t.layersM1 → nbits w3 56 0 % 65536 = 0 →
      nbits w3 62 57 = 0 → nbits w1 63 56 = 0 → nbits w1 55 48 < t.heads → nbits w2 31 0 = 0 → 0 < nbits w2 63 32 →
      nbits w2 63 32 ≤ t.maxTokens → t.d < 3 → t.fmt ∈ [4, 5, 6] → reachable f.srcModule f.srcUnit s.hub = true →
      HubAnswers (.push p f) s (fun h => getTicket false i h = { t with refs := t.refs + 1 } ∧
        ∃ o, h.cloak.ops = [o] ∧ o.n = s.hub.cloak.nextOp ∧ o.kind = .push ∧ o.frame = at_ 0x02 ∧ o.index = i ∧ o.layer = nbits w1 47 32 ∧
          o.headFirst = nbits w1 55 48 ∧ o.tokenEnd = nbits w2 63 32 ∧ o.running = true ∧ o.reads = 16)) ∧
    (∀ (i : Nat) (t : Ticket),
      let layer := nbits (leAt f.payload 8 8) 47 32
      let head := nbits (leAt f.payload 8 8) 55 48
      let token := leAt f.payload 16 4
      let rec_ := t.base + t.record layer head
      meetsTicket p f 0x03 false i t s = true → s.hub.cloak.ops = [] → s.hub.cloak.readies = [] → appendLenOk f t = true →
      nbits (leAt f.payload 8 8) 63 56 = 0 → layer ≤ t.layersM1 → head < t.heads → token < t.maxTokens → t.maxTokens < 2 ^ 32 → t.d < 3 → t.fmt ∈ [4, 5, 6] →
      t.runBase + t.runTiles < 2 ^ 29 → t.runTiles = t.runLen →
      (∀ k, t.runBase ≤ k → k < t.runBase + t.runTiles → (getTile k s.hub).st = .upper) →
      ¬(t.runBase ≤ tileOf (cloakTable false s.hub + 64 * i) ∧ tileOf (cloakTable false s.hub + 64 * i) < t.runBase + t.runTiles) →
      (memRead rec_ 4 s.hub).2 = false → ofBytesLE (memRead rec_ 4 s.hub).1 = token →
      HubAnswers (.append p f) s (fun h => ofBytesLE (memGetN h.mem rec_ 4) = token + 1 ∧ getTicket false i h = t ∧ h.cloak.ops = [])) ∧
    (∀ (mir : Bool) (i : Nat) (t : Ticket), let g := at_ 0x01
      let w := reqWord g 1
      let c := (tokenCount t (nbits w 15 0) (nbits w 23 16) (atUnit p g s.hub)).1
      meetsWork p g 0x83 s = true → attendLenOk g = true → enabled clPage s.hub = true → s.hub.cloak.attends.length < 1024 →
      svcAny s.hub = true → cloakFind (reqWord g 0) s.hub = .here mir i t → f.tenant = t.tenant → attendBadDesc g t = false →
      nbits (reqWord g 2) 31 0 + nbits (reqWord g 2) 63 32 ≤ c →
      HubAnswers (.attend p f) s (fun h => getTicket mir i h = { t with refs := t.refs + 1 } ∧
        h.cloak.attends = s.hub.cloak.attends ++ [⟨s.hub.cloak.nextOp, g, mir, i, s.hub.devTime, .queued⟩]))

/-- Operations between a ticket's home and its mirror. -/
def Obligations.MirrorFramesAct : Prop :=
  ∀ (p : Fin 28) (f : Frame) (s : State),
    let at_ (op : Nat) : Frame := toUnit 0x83 (asAux op (asOp 0x11 f))
    let ok (op : Nat) : Bool := meetsWork p (at_ op) 0x83 s && mirrorOk p (at_ op) (atUnit p (at_ op) s.hub) && f.len == 72
    let i := tidMslot (leAt f.payload 0 8)
    let old := getTicket true i s.hub
    let e := entryOf f.payload
    (∀ (slot base : Nat) (h1 : Hub), let h0 := atUnit p (at_ 0x20) s.hub
      let t : Ticket := { e with st := .mirror, runBase := base, runTiles := e.runLen, mirrorModule := f.srcModule, tid := tidOf (tidIndex e.tid) (tidHome e.tid) (moduleId s.hub) slot e.gen }
      ok 0x20 = true → s.hub.cloak.ops.length < 256 → enabled clPage s.hub = true → regBit clPage 0x40 8 s.hub = true →
      freeSlot h0 = some slot → arenaFind e.runLen h0 = some base → writeLists t h0 = some h1 →
      HubAnswers (.mirrorCreate p f) s (fun h => getTicket true slot h = t ∧ answers (at_ 0x20) 0 0 slot base h)) ∧
    (∀ t : Ticket, t = { old with epoch := e.epoch, ownerM := e.ownerM, ownerU := e.ownerU, takerM := e.takerM, takerU := e.takerU
                                  deadline := e.deadline, notify := e.notify, tenant := e.tenant } →
      ok 0x21 = true → old.st = .mirror ∨ old.st = .probing → old.gen = tidGen (leAt f.payload 0 8) →
      plainTile (tileOf (cloakTable true s.hub + 64 * i)) s.hub = true →
      HubAnswers (.mirrorUpdate p f) s (fun h => entryBecomes true i t s.hub h ∧ answers (at_ 0x21) 0 0 0 0 h)) ∧
    (ok 0x23 = true → old.st = .mirror ∨ old.st = .probing → old.gen = tidGen (leAt f.payload 0 8) →
      HubAnswers (.mirrorDrop p f) s (fun h =>
        (∀ m j, getTicket m j h = if m = true ∧ j = i then { gen := (old.gen + 1) % 256 } else getTicket m j s.hub) ∧
        (∀ k, old.runBase ≤ k → k < old.runBase + old.runTiles → k ≠ tileOf (cloakTable true s.hub + 64 * i) → (getTile k h).st = .free) ∧
        answers (at_ 0x23) 0 0 0 0 h)) ∧
    (let id := leAt f.payload 0 8
     ok 0x22 = true → tidHome id = moduleId s.hub → (getTicket false (tidIndex id) s.hub).st ≠ .free →
      (getTicket false (tidIndex id) s.hub).gen = tidGen id →
      HubAnswers (.probe p f) s (fun h => h.cloak = s.hub.cloak ∧ SameMemory s.hub h ∧ answers (at_ 0x22) 0 0 0 0 h)) ∧
    (∀ (j : Nat) (t : Ticket), let g := toUnit 0x83 (asOp 0x11 f)
      meetsWork p g 0x83 s = true → nbits f.aux 7 0 = 0x0C → cloakLenOk 0x0C f = true → s.hub.cloak.ops.length < 256 →
      enabled clPage s.hub = true → cloakFind (leAt f.payload 0 8) s.hub = .copy j t → t.st = .mirror →
      reachable t.mirrorModule 0x83 s.hub = true → t.mirrorModule ≠ moduleId s.hub →
      HubAnswers (.mirrorRequest p f) s (fun h => getTicket true j h = { t with st := .probing } ∧
        issueRemote (mirrorFrame t 0x22) (.mirror j mirrorNone 0x22) (putTicket true j { t with st := .probing }
          (cloakAnswer g stUnit ucRetry t.mirrorModule 0 0 (atUnit p g s.hub))) = .ok h))

/-- WORK frames at cores, the EMU and the SCU, under `meetsWork`. -/
def Obligations.UnitFramesAct : Prop :=
  ∀ (p : Fin 28) (f : Frame) (s : State),
    (∀ k c : Nat, let g := toUnit k (asOp 0x11 f)
      let w := leAt f.payload 0 8
      let x := getCtx k c s.hub
      k < 64 → f.dstUnit % 128 = k → meetsWork p g k s = true → f.payload.length = 40 → nbits w 15 3 = 0 → nbits w 30 29 = 0 →
      nbits w 63 32 = 0 → nbits w 2 0 = c → coreServes k s.hub = true → bitOf x.bind 44 = true → fld x.bind 43 32 = f.tenant → x.st = .ready →
      HubAnswers (.work p f) s (fun h => SameMemory s.hub h ∧ answers g 0 0 0 0 h ∧
        getCtx k c h = { x with
          st := .running, pc := if w.testBit 31 then nbits w 28 16 else x.entry
          regs := startRegs ((List.range 4).map (fun j => w64 (leAt f.payload (8 + 8 * j) 8))) c (coreUnit k s.hub)
          starter := mkFld 9 0 f.srcModule + mkFld 17 10 f.srcUnit, startedAt := s.hub.devTime, tenant := f.tenant
          asid := fld x.bind 31 16, wait := none, fence := [], marks := [], signals := [], ending := none, sawPoison := false })) ∧
    (∀ (op : Nat) (t : EmbTable) (c : Instr), (op, c) ∈ [(1, .gather p f), (2, .pool p f), (3, .scatter p f)] →
      let g := toUnit 0x84 (asAux op (asOp 0x11 f))
      let i := nbits (emuWord f 0) 7 0
      meetsWork p g 0x84 s = true → f.len = 64 → enabled embPage s.hub = true → s.hub.emb.reqs = [] → getTable i s.hub = some t →
      t.unloading = false → f.tenant = t.d.tenant → emuBad g t.d = false → t.applying = none →
      (op = 3 → nbits (emuWord f 6) 63 32 = (t.lastStep + 1) % 2 ^ 32) → reachable f.srcModule f.srcUnit s.hub = true →
      HubAnswers c s (fun h => SameMemory s.hub h ∧ h.emb.tables = s.hub.emb.tables ∧
        ∃ r, h.emb.reqs = [r] ∧ r.n = s.hub.emb.nextReq ∧ r.frame = g ∧ r.table = i ∧ r.started = true ∧ 0 < r.reads)) ∧
    (∀ t : EmbTable, let g := toUnit 0x84 (asAux 0x20 (asOp 0x11 f))
      let w := leAt f.payload 0 8
      let k := nbits w 23 8
      let e := (dirEntry t.d k (atUnit p g s.hub)).1
      meetsWork p g 0x84 s = true → f.len = 8 → getTable (nbits w 7 0) s.hub = some t → t.unloading = false → k < t.d.buckets → e.1 = 3 →
      nbits w 63 32 = t.lastStep → t.d.opt = 0 → (t.d.dir + 8 * k) % 8 = 0 → plainTile (tileOf (t.d.dir + 8 * k)) s.hub = true →
      HubAnswers (.cutover p f) s (fun h => storesAt (t.d.dir + 8 * k) (bytesLE 8 (1 + mkFld 61 16 e.2.2)) s.hub h ∧
        answers g 0 0 0 0 h ∧ h.emb = s.hub.emb)) ∧
    (∀ (op : Nat) (x : ScuIndex), let g := toUnit 0x85 (asAux op (asOp 0x11 f))
      let i := nbits (scuWord f 0) 7 0
      let r : ScuReq := { n := s.hub.search.nextReq, frame := g, index := i, epoch := none, waits := 0 }
      let h0 := atUnit p g s.hub
      let h1 := setScu { h0.search with reqs := h0.search.reqs ++ [r], nextReq := h0.search.nextReq + 1 } (meterAdd f.tenant 6 1 h0)
      meetsWork p g 0x85 s = true → scuLenOk g (some x) = true → s.hub.search.reqs.length < 256 → enabled scPage s.hub = true →
      getIndex i s.hub = some x → x.unloading = false → f.tenant = x.d.tenant → scuReqBad g x = false → s.hub.search.merge = none →
      (op = 1 → (scuWord f 0).testBit 8 = false → sideCount x = 0 →
        (let b := (tenantRead x.d.tenant (x.region false) 4096 h1).1
         b.2 = false ∧ (parseHdr b.1).entries = []) →
        HubAnswers (.query p f) s (fun h => ∃ y : Hub, h = sendFrame { completionOf g stUnit sdShort 0 false [] y with
          operand0 := 0, operand1 := mkFld 63 48 x.epoch + mkFld 47 0 x.committed } y)) ∧
      (op = 2 → (scuWord f 6).testBit 63 = false → sideCount x < x.d.sideLen → x.nextId ≠ x.d.nodeMax →
        HubAnswers (.insert p f) s (fun h => answers g 0 0 x.nextId x.committed h ∧
          getIndex i h = some { x with nextId := x.nextId + 1, committed := x.committed + 1, sideTail := (x.sideTail + 1) % 2 ^ 32 })) ∧
      (op = 3 → (liveNow x (leAt f.payload 8 4) h1).1 = true →
        HubAnswers (.delete p f) s (fun h => answers g 0 0 0 x.committed h ∧ getIndex i h = some { x with committed := x.committed + 1 })))

/-- The commands and events of a core page and of the bench. -/
def Obligations.CoreCommandsAct : Prop :=
  ∀ (r : Requester) (k : Fin 64) (s : State), Settled s.hub →
    let page := 0x200 + k.val
    let core := getCore k s.hub
    let c := regFld page 0x48 2 0 s.hub
    let x := getCtx k c s.hub
    (∀ v : Nat, admits r page 0x50 s = true → v < 2 ^ 64 →
      (x.st ≠ .running → x.st ≠ .waiting → AnswersHub (.coreCtxBindWrite r k v) s (putCtx k c { x with
        bind := w64 v &&& (w64 (maskOf 44 16) ||| 1)
        st := if v.testBit 0 = false then .free else if x.st = .free then .ready else x.st })) ∧
      (x.st = .running ∨ x.st = .waiting → HubAnswers (.coreCtxBindWrite r k v) s (fun h =>
        h.cores = s.hub.cores ∧ regBit page 0x18 16 h = true ∧ SameMemory s.hub h))) ∧
    (admits r page 0x90 s = true →
      (x.st = .ready → coreServes k s.hub = true → HubAnswers (.start r k) s (fun h => SameMemory s.hub h ∧
        getCtx k c h = { x with
          st := .running, pc := x.entry, regs := startRegs x.args c (coreUnit k s.hub), starter := 0, startedAt := s.hub.devTime,
          tenant := fld x.bind 43 32, asid := fld x.bind 31 16, wait := none, fence := [], marks := [], signals := [],
          ending := none, sawPoison := false })) ∧
      (x.st = .running ∨ x.st = .waiting → x.ending = none → allCmds core = [] →
        HubAnswers (.stop r k) s (fun h => getCtx k c h = faultedCtx 0xB x ∧ regBit page 0xE0 (8 + c) h = true ∧ SameMemory s.hub h)) ∧
      (x.st = .faulted → AnswersHub (.reset r k) s (putCtx k c { x with st := .ready, regs := List.replicate 31 0, pc := 0 }))) ∧
    (∀ offset count : Nat, admits r page 0xA8 s = true → core.load = none → offset + max 1 count ≤ 8192 → offset < 8192 → count < 8192 →
      x.st ≠ .free →
      AnswersHub (.patternLoad r k offset count) s (putCore k { core with
        load := some { ctx := c, addr := regFld page 0xA0 56 0 s.hub, off := offset, count := max 1 count, crc := regFld page 0xAC 31 0 s.hub } })) ∧
    (∀ (l : PatLoad) (bs : List Byte) (h1 : Hub), serving s.hub = true → core.load = some l →
      loadRead k { tenant := fld (getCtx k l.ctx s.hub).bind 43 32, asid := fld (getCtx k l.ctx s.hub).bind 31 16 }
        (cutRow (l.count / 512 + 2) l.addr 0 (8 * l.count)) s.hub = (.ok bs, h1) →
      (crc32c bs = l.crc → exec (.patternLoadDone k) s = .next (onHub (fun _ => putCore k { getCore k h1 with
          load := none, loadResult := 0, pat := patWrite l.off l.count bs (getCore k h1).pat,
          badWords := (getCore k h1).badWords.filter (fun w => decide (w < l.off ∨ l.off + l.count ≤ w)) } h1) s)) ∧
      (crc32c bs ≠ l.crc → HubAnswers (.patternLoadDone k) s (fun h => regBit page 0x18 17 h = true ∧
        getCore k h = { getCore k h1 with load := none, loadResult := 1 }))) ∧
    (∀ v : Nat, admits r page 0x44 s = true → v < 2 ^ 32 →
      (core.st = .inService → allCmds core = [] → HubAnswers (.commandFence r k v) s (fun h =>
        (getCore k h).st = .draining ∧ (getCore k h).drainAt = s.hub.devTime ∧ SameMemory s.hub h ∧
        ∀ i : Fin 8, getCtx k i h = if (getCtx k i s.hub).st = .running ∨ (getCtx k i s.hub).st = .waiting
          then faultedCtx 0xC (getCtx k i s.hub) else getCtx k i s.hub)) ∧
      (core.st = .fenced → core.byRas = false → HubAnswers (.commandUnfence r k v) s (fun h =>
        getCore k h = { core with st := .inService } ∧ SameMemory s.hub h)) ∧
      (∀ j, core.st = .fenced → readySlot 0 s.hub = some j → HubAnswers (.substitute r k v) s (fun h =>
        getCore k h = { core with st := .substituting, slot := some j } ∧ getBench j h = .testing ∧ SameMemory s.hub h))) ∧
    (serving s.hub = true → coreDrained k s.hub = true → regBit page 0x44 1 s.hub = false →
      HubAnswers (.coreDrainDone k) s (fun h => getCore k h = { core with st := .fenced, slot := none } ∧ regBit page 0xE0 17 h = true ∧
        SameMemory s.hub h)) ∧
    (∀ j : Nat, serving s.hub = true → core.st = .substituting → core.slot = some j →
      (k.val < s.hub.boot.coreMap.length → HubAnswers (.substitutionDone k true) s (fun h =>
        (getCore k h).st = .inService ∧ nth h.boot.coreMap k 0xFF = nth s.hub.boot.benchMap j 0xFF ∧ (∀ i, (getCtx k i h).st = .free) ∧
        (getCore k h).sems = [] ∧ regBit page 0xE0 16 h = true ∧ ∀ o < 0x180000, memGet h.mem (scratchAddr k o) = 0)) ∧
      HubAnswers (.substitutionDone k false) s (fun h => getBench j h = .failed ∧ SameMemory s.hub h ∧
        (readySlot (j + 1) s.hub = none → (getCore k h).st = .fenced))) ∧
    (∀ j : Fin 8,
      (admits r (0x240 + j.val) 0x44 s = true → getBench j s.hub = .ready → AnswersHub (.benchTest r j) s (putBench j .testing)) ∧
      (∀ pass : Bool, serving s.hub = true → getBench j s.hub = .testing → slotTaken j s.hub = false →
        exec (.benchTestDone j pass) s = .next { s with hub := putBench j (if pass then .ready else .failed) s.hub })) ∧
    (admits r page 0xD0 s = true → AnswersHub (.coreFaultPop r k) s (putCore k { core with faults := core.faults.drop 1 })) ∧
    (∀ (i : Fin 64) (v : Nat), admits r page (0x400 + 4 * i.val) s = true → (∀ e ∈ core.ctxs, e.2.st ≠ .waiting) →
      AnswersHub (.coreSemWrite r k i v) s (putCore k { core with sems := Tab.set core.sems i (v % 2 ^ 32) })) ∧
    (serving s.hub = true → ∀ i : Fin 8, let y := getCtx k i s.hub
      0 < regFld page 0x44 31 16 s.hub → y.st = .running ∨ y.st = .waiting → y.ending = none → allCmds core = [] →
      y.startedAt + 1000000 * regFld page 0x44 31 16 s.hub < s.hub.devTime →
      HubAnswers (.watchdog k i) s (fun h => getCtx k i h = faultedCtx 0xA y ∧ SameMemory s.hub h))

/-- Commands of the engines' queues while the module serves. -/
def Obligations.EnginesAct : Prop :=
  ∀ (k : Fin 64) (q : Fin 2) (s : State), serving s.hub = true → s.hub.ras.injection = none →
    (∀ (e : EngCmd) (d : DmaDesc), d.module = moduleId s.hub →
      let x := getCtx k e.ctx s.hub
      let dq := dmaQueue q
      (∀ (a sp n : Nat) (bs : List Byte) (h1 : Hub), let h0 := countKib (0x200 + k.val) 3 (d.rows * d.len) s.hub
        dmaHead k q 1 s.hub = .desc e d → dmaFits d = true → dmaPieces d = [(a, sp, n)] → bufServe k q d x a n h0 = none →
        localRead k x (dmaAsid d x) a n h0 = (.ok (bs, false), h1) → Settled h1 → h1.ras.injection = none → e ∈ queueOf dq (getCore k h1) →
        HubAnswers (.dmaIn k q) s (fun h => storesAt (scratchAddr k sp) bs h1 h ∧
          { e with started := true } ∈ queueOf dq (getCore k h))) ∧
      (∀ (a sp n : Nat) (h1 : Hub), let h0 := countKib (0x200 + k.val) 4 (d.rows * d.len) s.hub
        dmaHead k q 2 s.hub = .desc e d → dmaFits d = true → dmaPieces d = [(a, sp, n)] →
        localWrite k x (dmaAsid d x) a (spBytes k sp n h0) (spPoison k sp n h0) (bufDrop k d x a n h0) = (.ok (), h1) → Settled h1 →
        exec (.dmaOut k q) s = .next { s with hub := putCmd k dq { e with started := true } h1 }) ∧
      (∀ (off m old : Nat) (ps : List (Nat × Nat)) (h2 h3 : Hub),
        let aux := nbits d.len 15 0
        let n := if aux.testBit 8 then 8 else 4
        let op1 := spNum k (d.sp + 8) 8 s.hub
        let f := dmaFrame k d x 4 d.addr 0 aux d.operand op1 [] false
        dmaHead k q 3 s.hub = .desc e d → spFits d.sp 16 = true → formOk f = true →
        xlateNow false 1 k x.tenant (dmaAsid d x) d.addr n (opOf f) (bufDrop k d x d.addr n s.hub) = (.ok ((off, m) :: ps), h2) →
        leaseDenies (coreIssuer k h2) off n h2 = false →
        engAtomic off n (nbits aux 7 0) d.operand op1 x.tenant h2 = some ((old, false), h3) → Settled h3 →
        exec (.dmaAtomic k q) s = .next (onHub (fun _ => putCmd k dq { e with started := true }
          (if atomicReturns aux then spStore (scratchAddr k d.sp) (bytesLE n old) false h3 else h3)) s)) ∧
      (dmaHead k q 4 s.hub = .desc e d → pairJoined s.hub = false → nbits d.addr 55 46 = moduleId s.hub →
        let a := advance (w64 d.operand) (.frame (moduleId s.hub) k x.tenant) s.hub
        a.1 = advOk → Settled (emuDrain a.2) →
        exec (.dmaAdvance k q) s = .next { s with hub := putCmd k dq { e with started := true } (emuDrain a.2) }) ∧
      (dmaHead k q 5 s.hub = .desc e d → pairJoined s.hub = false → nbits d.addr 55 46 = moduleId s.hub →
        let f := dmaCtlFrame k 0x12 0x87 d x s.hub
        let w := pigeonTake f s
        pigeonFormOk f = true → w.1.1 = stOk → Settled w.2.hub →
        exec (.dmaPigeon k q) s = .next (onHub (putCmd k dq { e with started := true }) w.2))) ∧
    (∀ (g : EngineId) (e : EngCmd), Settled s.hub → queueOf g (getCore k s.hub) = [e] → e.started = true → e.waits = 0 → e.todo = [] →
      (getCtx k e.ctx s.hub).ending = none →
      exec (.engineCommandFinish k g) s = .next { s with hub := putCore k (setQueue g [] (getCore k s.hub)) s.hub }) ∧
    exec (.lineBufferExpiry k q) s = .next { s with hub := putCore k (setBuf q
      ((bufOf q (getCore k s.hub)).filter (fun b => decide (s.hub.devTime < b.filled + 100000))) (getCore k s.hub)) s.hub } ∧
    (∀ (c : Fin 8) (g : HeldSignal) (rest : List HeldSignal), let x := getCtx k c s.hub
      let t := if g.core = 0xFF then k.val else g.core
      Settled s.hub → x.signals = g :: rest → x.ending = none → signalReady (coreUnit k s.hub) g (getCore k s.hub) = true → pairJoined s.hub = false → coreServes t s.hub = true →
      (∀ e ∈ (getCore t s.hub).ctxs, e.2.st ≠ .waiting) → x.st ≠ .waiting →
      HubAnswers (.signalApply k c) s (fun h => semVal t g.sem h = (semVal t g.sem s.hub + g.imm) % 2 ^ 32 ∧
        getCtx k c h = { x with signals := rest } ∧ SameMemory s.hub h))

/-- The scalar and ordering commands of pattern memory. -/
def Obligations.PatternCommandsAct : Prop :=
  ∀ (k : Fin 64) (c : Fin 8) (w : Word) (s : State), issues k c w s.hub = true →
    let x := getCtx k c s.hub
    let core := getCore k s.hub
    let a := sreg x (sRa w)
    let b := sreg x (sRb w)
    let on (y : Ctx) : Ctx := { y with pc := x.pc + 1 }
    (wOp w = 0 → exec (.nop k c) s = .next { s with hub := issuedAs k c (on x) s.hub }) ∧
    (∀ (op : Nat) (v : Word) (i : Instr), (op, v, i) ∈ [(1, a + sImm w, .addi k c), (2, a + b, .add k c), (3, a - b, .sub k c),
        (4, a * b, .mul k c), (5, a &&& b, .and k c), (6, a ||| b, .or k c), (7, a ^^^ b, .xor k c), (8, a <<< (b.toNat % 64), .shl k c),
        (9, a >>> (b.toNat % 64), .shr k c), (10, BitVec.ofNat 64 (fld w 31 0 * 2 ^ 32 + fld a 31 0), .movhi k c)] → wOp w = op →
      exec i s = .next { s with hub := issuedAs k c (on (setSreg (sRd w) v x)) s.hub }) ∧
    (∀ p : Nat, p = (a + sImm w).toNat → p % 8 = 0 → p + 8 ≤ 0x180000 → s.hub.ras.injection = none →
      (wOp w = 11 → anyPoison (scratchAddr k p) 8 s.hub = false →
        exec (.ld k c) s = .next { s with hub := issuedAs k c (on (setSreg (sRd w) (BitVec.ofNat 64 (ofBytesLE (memGetN s.hub.mem (scratchAddr k p) 8))) x)) s.hub }) ∧
      (wOp w = 12 → HubAnswers (.st k c) s (fun h => storesAt (scratchAddr k p) (bytesLE 8 b.toNat) s.hub h ∧ getCtx k c h = on x))) ∧
    (∀ (i : Nat) (v : Word), (i, v) ∈ [(0, BitVec.ofNat 64 s.hub.devTime), (1, BitVec.ofNat 64 (coreUnit k s.hub)), (2, BitVec.ofNat 64 c),
        (3, BitVec.ofNat 64 (moduleId s.hub)), (4, x.src), (5, BitVec.ofNat 64 x.starter), (6, x.seed)] → wOp w = 13 → (sImm w).toNat = i →
      exec (.csr k c) s = .next { s with hub := issuedAs k c (on (setSreg (sRd w) v x)) s.hub }) ∧
    (∀ (op : Nat) (taken : Prop) (i : Instr), let p := sreg x (bRa w)
      let q := sreg x (bRb w)
      (op, taken, i) ∈ [(0x10, p = q, .beq k c), (0x11, p ≠ q, .bne k c), (0x12, p.toInt < q.toInt, .blt k c), (0x13, p.toNat < q.toNat, .bltu k c),
        (0x14, True, .jmp k c)] → wOp w = op →
      (taken → exec i s = .next { s with hub := issuedAs k c { x with pc := bTarget w } s.hub }) ∧
      (¬taken → exec i s = .next { s with hub := issuedAs k c (on x) s.hub })) ∧
    (wOp w = 0x15 → let y := setSreg (bRa w) (sreg x (bRa w) - 1) x
      (sreg y (bRa w) ≠ 0 → exec (.loop k c) s = .next { s with hub := issuedAs k c { y with pc := bTarget w } s.hub }) ∧
      (sreg y (bRa w) = 0 → exec (.loop k c) s = .next { s with hub := issuedAs k c (on y) s.hub })) ∧
    (wOp w = 0x40 → let thr := ((sreg x (oRa w)).toNat + oImm w) % 2 ^ 32
      let past := (semVal k (oSem w) s.hub + 2 ^ 32 - thr) % 2 ^ 32
      semVal k (oSem w) s.hub < 2 ^ 32 →
      (past < 2 ^ 31 → exec (.wait k c) s = .next { s with hub := issuedAs k c (on x) s.hub }) ∧
      (2 ^ 31 < past → Settled s.hub → exec (.wait k c) s = .next (onHub (issuedAs k c
        { on x with st := .waiting, wait := some (oSem w, thr) }) s))) ∧
    (wOp w = 0x41 →
      (pairJoined s.hub = false → cmdsOn k c (oMask w) s.hub = [] → x.signals = [] → x.marks = [] → coreServes (if oCore w = 0xFF then k else oCore w) s.hub = true →
        (∀ e ∈ (getCore (if oCore w = 0xFF then k else oCore w) s.hub).ctxs, e.2.st ≠ .waiting) →
        HubAnswers (.signal k c) s (fun h => let t := if oCore w = 0xFF then k.val else oCore w
          semVal t (oSem w) h = (semVal t (oSem w) s.hub + oImm w) % 2 ^ 32 ∧ getCtx k c h = on x ∧ SameMemory s.hub h)) ∧
      (cmdsOn k c (oMask w) s.hub ≠ [] → x.signals.length < 8 →
        exec (.signal k c) s = .next (onHub (issuedAs k c { on x with
          signals := x.signals ++ [⟨oSem w, oCore w, oImm w, cmdsOn k c (oMask w) s.hub, x.marks⟩] }) s))) ∧
    (wOp w = 0x42 → oScope w ≠ 3 → HubAnswers (.acquire k c) s (fun h => getCtx k c h = on x ∧ SameMemory s.hub h ∧
      (getCore k h).retained = (if (oMask w).testBit 0 then none else core.retained) ∧
      (oScope w = 2 → (oMask w).testBit 2 = true → (getCore k h).buf0 = []) ∧
      (oScope w = 2 → (oMask w).testBit 3 = true → (getCore k h).buf1 = []))) ∧
    (wOp w = 0x43 → oScope w ≠ 3 → exec (.release k c) s = .next (onHub (issuedAs k c { on x with
      marks := x.marks.filter (fun m => m.cmds.any (unfinished core)) ++ [⟨oScope w, cmdsOn k c (oMask w) s.hub⟩] }) s)) ∧
    (wOp w = 0x44 → exec (.fence k c) s = .next { s with hub := issuedAs k c { on x with fence := cmdsOn k c (oMask w) s.hub } s.hub }) ∧
    (wOp w = 0x60 → allCmds core = [] → x.signals = [] → Settled s.hub → HubAnswers (.halt k c) s (fun h =>
      getCtx k c h = { x with st := .ready, exit := fld w 15 0, ending := none, fence := [], marks := [] } ∧
      regBit (0x200 + k.val) 0xE0 c h = true ∧ SameMemory s.hub h))

/-- MMA, the functions of VOP, and DMA. -/
def Obligations.EngineCommandsAct : Prop :=
  ∀ (k : Fin 64) (c : Fin 8) (w : Word) (s : State), issues k c w s.hub = true → s.hub.ras.injection = none →
    let x := getCtx k c s.hub
    let core := getCore k s.hub
    (∀ q : EngineId, wOp w = 0x30 → q = (if eQ w = 0 then .dma0 else .dma1) → (queueOf q core).length < 16 →
      HubAnswers (.dma k c) s (fun h => SameMemory s.hub h ∧ getCtx k c h = { x with pc := x.pc + 1 } ∧
        queueOf q (getCore k h) = queueOf q core ++ [⟨core.nextCmd, c, w, 0, sreg x (eRa w), 0, 0, x.marks, false, 0, [], x.pc⟩])) ∧
    (wOp w = 0x20 → core.mq = [] →
      let at_ := (sreg x (eRa w)).toNat
      let d := parseMat (memGetN s.hub.mem (scratchAddr k at_) 32)
      let rows (off stride row n : Nat) : List (List Byte) := readRows k off stride row n s.hub
      let r := matRows d (rows d.aOff d.aStride (aRow d) d.m) (rows d.bOff d.bStride (bRow d) d.n)
        (if d.aScaled then rows d.saOff (scaleStride d.aFmt d.aStride) (d.k / 32) d.m else [])
        (if d.bScaled then rows d.sbOff (scaleStride d.bFmt d.bStride) (d.k / 32) d.n else []) (rows d.cOff d.cStride (4 * d.n) d.m)
      at_ + 32 ≤ 0x180000 → s.hub.poison = [] → core.retained = none → matBad (memGetN s.hub.mem (scratchAddr k at_) 32) d = none →
      matRange d = none → matOverlap d = false →
      HubAnswers (.mma k c) s (fun h => getCtx k c h = { x with pc := x.pc + 1 } ∧
        h.mem = (List.range d.m).foldl (fun m i => memPutN m (scratchAddr k (d.cOff + i * d.cStride)) (nth r.1 i [])) s.hub.mem ∧
        (getCore k h).mq = [⟨core.nextCmd, c, w, 0, sreg x (eRa w), 0, 0, x.marks, true, 0, [], x.pc⟩] ∧
        ((getCore k h).retained.isSome ↔ retainBytes d ≤ 655360))) ∧
    (∀ (fn : Nat) (i : Instr), (fn, i) ∈ [(0, .vopAdd k c), (1, .vopSub k c), (2, .vopMul k c), (3, .vopFma k c), (4, .vopMax k c),
        (5, .vopMin k c), (6, .vopExp k c), (7, .vopLog k c), (8, .vopRecip k c), (9, .vopRsqrt k c), (0xA, .vopAdds k c), (0xB, .vopMuls k c),
        (0xC, .vopCvt k c), (0xD, .vopQuantMx k c), (0x10, .vopRsum k c), (0x11, .vopRmax k c)] →
      let l := (sreg x (vRc w)).toNat
      let sh := vecShape fn l (vSfmt w) (vDfmt w)
      let d := (sreg x (sRd w)).toNat
      let a := (sreg x (sRa w)).toNat
      let rb := sreg x (sRb w)
      let src := memGetN s.hub.mem (scratchAddr k a) sh.readA
      wOp w = 0x21 → vFunc w = fn → vecValid w (sreg x (vRc w)) = true → core.vq = [] → s.hub.poison = [] → a + sh.readA ≤ 0x180000 →
      (sh.readB ≠ 0 ∨ sh.writeB ≠ 0 → rb.toNat + max sh.readB sh.writeB ≤ 0x180000) → d + max sh.readD sh.writeD ≤ 0x180000 →
      HubAnswers i s (fun h =>
        (getCore k h).vq = [⟨core.nextCmd, c, w, sreg x (sRd w), sreg x (sRa w), rb, sreg x (vRc w), x.marks, true, 0, [], x.pc⟩] ∧
        (fn ≤ 0xB → getCtx k c h = { x with pc := x.pc + 1 } ∧ h.mem = memPutN s.hub.mem (scratchAddr k d)
          (((List.range l).map (fun j => bytesLE 4 (laneFn fn (laneAt src j) (laneAt (memGetN s.hub.mem (scratchAddr k rb.toNat) sh.readB) j)
            (laneAt (memGetN s.hub.mem (scratchAddr k d) sh.readD) j) (BitVec.ofNat 32 rb.toNat)).toNat)).flatten)) ∧
        (fn = 0xC → let r := cvtRow w l src x.seed x.src
          getCtx k c h = { x with pc := x.pc + 1, src := x.src + BitVec.ofNat 64 r.2.2 } ∧ h.mem = memPutN s.hub.mem (scratchAddr k d) r.1) ∧
        (fn = 0xD → let r := quantRow w l src x.seed x.src
          getCtx k c h = { x with pc := x.pc + 1, src := x.src + BitVec.ofNat 64 r.2.2.2 } ∧
          h.mem = memPutN (memPutN s.hub.mem (scratchAddr k rb.toNat) r.1) (scratchAddr k d) r.2.1) ∧
        (fn = 0x10 → h.mem = memPutN s.hub.mem (scratchAddr k d) (bytesLE 4
          (reduceLanes (fun p q => laneOf p q ((laneVal p).add (laneVal q))) (some 0) ((List.range l).map (laneAt src))).toNat)) ∧
        (fn = 0x11 → h.mem = memPutN s.hub.mem (scratchAddr k d) (bytesLE 4
          (reduceLanes (laneMax true) none ((List.range l).map (laneAt src))).toNat))))

/-- The commands of the CLOAK, EMB and SEARCH pages and the units' own events. -/
def Obligations.ServicesAct : Prop :=
  ∀ (r : Requester) (s : State),
    (serving s.hub = true →
      (∀ a : AttendReq, s.hub.cloak.attends = [a] → a.st = .queued → attendReady a s.hub = false →
        a.admittedAt + 1000 * nbits (reqWord a.frame 1) 63 48 ≤ s.hub.devTime →
        HubAnswers (.attendWaitExpiry a.n) s (fun h => h.cloak.attends = [])) ∧
      (∀ (a : AttendReq) (j k c : Nat), s.hub.cloak.attends = [a] → a.st = .queued → attendReady a s.hub = true → nextSvc s.hub = some (j, k, c) →
        s.hub.ras.injection = none → HubAnswers .attendDispatch s (fun h => h.cloak.attends = [{ a with st := .running k c }] ∧ h.cloak.lastSvc = j ∧
          (getCtx k c h).st = .running ∧ (getCtx k c h).pc = (getCtx k c s.hub).entry ∧
          storesAt (scratchAddr k (workBlock c)) (attendBlock a (getTicket a.inMirror a.index s.hub) s.hub) s.hub h)) ∧
      (∀ (mir : Bool) (i : Nat), let t := getTicket mir i s.hub
        t.st = .offered → t.deadline ≤ s.hub.devTime → t.mirrored = false → pairJoined s.hub = false →
        ticketUsable mir i s.hub = true → plainTile (tileOf (cloakTable mir s.hub + 64 * i)) s.hub = true →
        HubAnswers (.offerTimeout mir i) s (fun h => regBit 0xB8 0xF0 0 h = true ∧
          entryBecomes mir i { t with st := .held, epoch := (t.epoch + 1) % 2 ^ 32, takerM := 0, takerU := 0, deadline := 0 } s.hub h))) ∧
    (∀ (mir : Bool) (i : Nat) (t : Ticket), admits r 0xB8 0x8C s = true → pairJoined s.hub = false →
      cloakFind (getReg 0xB8 0x80 s.hub).toNat s.hub = .here mir i t →
      plainTile (tileOf (cloakTable mir s.hub + 64 * i)) s.hub = true → t.st = .held →
      (t.refs ≠ 0 → HubAnswers (.forceRelease r) s (fun h => entryBecomes mir i { t with st := .releasing } s.hub h ∧ h.cloak.fmResult = 0)) ∧
      (t.mirrored = false → HubAnswers (.setOwner r) s (fun h => h.cloak.fmResult = 0 ∧ entryBecomes mir i { t with
        epoch := (t.epoch + 1) % 2 ^ 32, ownerM := regFld 0xB8 0x88 9 0 s.hub, ownerU := regFld 0xB8 0x88 17 10 s.hub } s.hub h)) ∧
      (t.mirrored = true → HubAnswers (.dropMirror r) s (fun h => entryBecomes mir i { t with mirrored := false } s.hub h ∧
        h.cloak.fmResult = 0))) ∧
    (∀ (i : Fin 256) (t : EmbTable),
      (∀ st : Nat, serving s.hub = true → getTable i s.hub = some t → t.applying = some st → t.fires = [] → t.unloading = false →
        s.hub.emb.reqs = [] → s.hub.emb.mig = none →
        HubAnswers (.emuApplyDone i) s (fun h => getTable i h = some { t with lastStep := st, logUsed := 0, applying := none } ∧
          regBit 0xC0 0x60 0 h = true)) ∧
      (let b := storeRead (mkFld 45 15 (regFld 0xC0 0x40 45 15 s.hub) + 128 * i.val) 128 s.hub
       admits r 0xC0 0x48 s = true → tableMigrating i s.hub = false → b.1.2 = false → embBad b.1.1 b.2 = false →
       getTable i s.hub = none →
        HubAnswers (.tableLoad r i) s (fun h => h.emb.cmdResult = 0 ∧ getTable i h = some
          { desc := b.1.1, lastStep := nbits (descWord b.1.1 9) 31 0, logUsed := nbits (descWord b.1.1 9) 63 32 })) ∧
      (admits r 0xC0 0x48 s = true → tableMigrating i s.hub = false → getTable i s.hub = some t → t.applying = none → s.hub.emb.reqs = [] →
        HubAnswers (.tableUnload r i) s (fun h => getTable i h = none ∧ h.emb.cmdResult = 0 ∧ SameMemory s.hub h)) ∧
      (admits r 0xC0 0x58 s = true → regFld 0xC0 0x50 7 0 s.hub = i → getTable i s.hub = some t → s.hub.emb.mig = none →
        regFld 0xC0 0x50 23 8 s.hub < t.d.buckets → (dirEntry t.d (regFld 0xC0 0x50 23 8 s.hub) s.hub).1.1 = 1 →
        reachable (regFld 0xC0 0x50 33 24 s.hub) 0x80 s.hub = true →
        HubAnswers (.migStart r) s (fun h => ∃ m, h.emb.mig = some m ∧ m.table = i ∧ m.bucket = regFld 0xC0 0x50 23 8 s.hub ∧
          m.dest = regFld 0xC0 0x50 33 24 s.hub ∧ m.phase = 1 ∧ m.gen = s.hub.emb.nextMig)) ∧
      (∀ m : EmbMig, serving s.hub = true → s.hub.emb.mig = some m → m.table = i → getTable i s.hub = some t →
        (m.phase = 1 → m.waits = 0 → t.d.rows ≤ m.next → t.applying = none →
          exec .migCopyDone s = .next (onHub (fun h => { h with emb := { h.emb with mig := some { m with
            phase := 2, early := (h.emb.reqs.filter (fun q => q.started)).map (·.n) } } }) s)) ∧
        (m.phase = 2 → s.hub.emb.reqs = [] → t.d.opt = 0 → reachable m.dest 0x84 s.hub = true →
          HubAnswers .migFreezeDone s (fun h => h.emb.mig = some { m with phase := 3, waits := m.waits + 1 } ∧
            ∃ o, h.outstanding = s.hub.outstanding ++ [o] ∧ o.purpose = .migCutover m.gen ∧ o.frame.dstModule = m.dest)))) ∧
    (∀ (i : Fin 64) (x : ScuIndex), admits r 0xC8 0x48 s = true → admits r 0xC8 0x50 s = true →
      (let b := storeRead (descOff i s.hub) 128 s.hub
       let region := gsaOff (descWord b.1.1 (if nbits (descWord b.1.1 8) 16 16 = 0 then 2 else 3))
       let hb := storeRead region 4096 b.2
       let hdr := parseHdr hb.1.1
       getIndex i s.hub = none → b.1.2 = false → scuBad b.1.1 b.2 = false → hb.1.2 = false → hdr.ok = true →
       hdr.epoch = nbits (descWord b.1.1 8) 15 0 → (∀ k, 8 ≤ k → k < 13 → descWord b.1.1 k = 0) →
        HubAnswers (.indexLoad r i) s (fun h => h.search.cmdResult = 0 ∧
          ∃ y, getIndex i h = some y ∧ y.desc = b.1.1 ∧ y.scanning = true ∧ y.committed = 1 ∧ y.baseCur = 1 ∧ y.nextId = hdr.nodes)) ∧
      (getIndex i s.hub = some x → mergingIndex i s.hub = false → x.scanning = false → s.hub.search.reqs = [] →
        HubAnswers (.indexUnload r i) s (fun h => getIndex i h = none ∧ h.search.cmdResult = 0 ∧ SameMemory s.hub h)) ∧
      (serving s.hub = true → getIndex i s.hub = some x →
        exec (.tombScanDone i) s = .next { s with hub := putIndex i { x with scanning := false } s.hub }) ∧
      (∀ slots width : Nat, slots < 32 → width < 1024 → getIndex i s.hub = some x → s.hub.search.merge = none → x.prevV = false → x.unloading = false →
        HubAnswers (.mergeStart r i slots width) s (fun h => getIndex i h = some x ∧ h.search.merge = some
          { index := i, m := x.committed, nodes := x.nextId, width := max width x.d.degree, slots := if slots = 0 then 8 else slots
            phase := 2, retired := (x.epoch + 65535) % 65536 })) ∧
      (∀ m : ScuMerge, s.hub.search.merge = some m → m.index = i → HubAnswers (.mergeAbort r i) s (fun h =>
        h.search.merge = none ∧ h.search.mergeResult = 1 ∧ h.search.indexes = s.hub.search.indexes ∧ regBit 0xC8 0x60 0 h = true ∧ SameMemory s.hub h)) ∧
      (∀ m : ScuMerge, serving s.hub = true → s.hub.search.merge = some m → m.index = i → m.phase = 2 → getIndex i s.hub = some x →
        (mergeRead x m.nodes m.m s.hub).1.isSome = true →
        HubAnswers .mergeCommit s (fun h => h.search.merge = none ∧ h.search.mergeResult = 0 ∧ regBit 0xC8 0x60 0 h = true ∧
          getIndex i h = some { x with
            epoch := (x.epoch + 1) % 65536, cur := 1 - x.cur, prevV := true, basePrev := x.baseCur, baseCur := m.m })))

/-- CXL.mem, on a port whose link is up, at a tile in a T1 slot. -/
def Obligations.CxlMemoryActs : Prop :=
  ∀ (p : Fin 2) (n : Fin 16) (hpa tag : Nat) (s : State),
    exec (.memspecrd p n hpa tag) s = .next s ∧
    (∀ (i off dpa : Nat), (getTile (tileOf off) s.hub).st = .upper → s.hub.coh.filter = [] →
      (∀ c ∈ [Instr.memrd p n hpa tag, .memrddata p n hpa tag], meetsCxl p n hpa false i off dpa s = true →
        (∀ l ∈ linesOf off 64, inT0 l s.hub = true) →
        HubAnswers c s (fun h => SameMemory s.hub h ∧
          ∃ dl, sent (.memData p n tag (memRead off 64 s.hub).1 (memRead off 64 s.hub).2 dl) s.hub h)) ∧
      (∀ data : List Byte, meetsCxl p n hpa true i off dpa s = true → data.length = 64 →
        HubAnswers (.memwr p n hpa tag data false) s (fun h => storesAt off data s.hub h ∧
          (∀ l ∈ linesOf off 64, Tab.get? h.coh.t0 l = some .dirty) ∧ ∃ dl, sent (.memCmp p n tag dl) s.hub h)) ∧
      (∀ (data : List Byte) (en : List Bool), meetsCxl p n hpa true i off dpa s = true → data.length = 64 → en.length = 64 →
        HubAnswers (.memwrptl p n hpa tag data en false) s (fun h => (∀ a, memGet h.mem a =
            if off ≤ a ∧ a < off + 64 ∧ en.getD (a - off) false = true then data.getD (a - off) 0 else memGet s.hub.mem a) ∧
          (∀ l ∈ linesOf off 64, Tab.get? h.coh.t0 l = some .dirty) ∧ ∃ dl, sent (.memCmp p n tag dl) s.hub h))) ∧
    (∀ (cause : Nat) (dpa : Option Nat), (getCxl p s.hub).up = true →
      (cxlCheck p n (hpa - hpa % 64) false (count (cxlPage p) 0 1 s.hub) = .refused cause dpa →
        HubAnswers (.memrd p n hpa tag) s (fun h => SameMemory s.hub h ∧
          ∃ dl, sent (.memData p n tag (poisonPattern 64) true dl) s.hub h)) ∧
      (∀ (data : List Byte) (bad : Bool), cause < 16 → cxlCheck p n (hpa - hpa % 64) true (count (cxlPage p) 1 1 s.hub) = .refused cause dpa →
        HubAnswers (.memwr p n hpa tag data bad) s (fun h => SameMemory s.hub h ∧ (∃ dl, sent (.memCmp p n tag dl) s.hub h) ∧
          sent (.errNonfatal p n) s.hub h ∧ regBit (cxlPage p) 0x18 16 h = true ∧ regFld (cxlPage p) 0x78 63 60 h = cause ∧
          regFld (cxlPage p) 0x78 59 56 h = n)))

/-- Extents, decoders and the binding of logical devices. -/
def Obligations.ExtentsComeAndGo : Prop :=
  ∀ (p : Fin 2) (n : Fin 16) (s : State),
    let c := getCxl p s.hub
    (c.up = true →
      (∀ (exts : List (Nat × Nat × Word)) (l : List Extent), allSome (exts.map (fun e => parseExtent n e.1 e.2.1 e.2.2)) = some l →
        (getLd p n s.hub).en = true → noneOverlap l = true → c.extents = [] → l.length ≤ 4096 →
        HubAnswers (.initiateDynamicCapacityAdd p n exts) s (fun h => (∀ k, k < l.length → getExt p k h = l.getD k {}) ∧
          ((getLd p n h).events.map (fun r => (r.kind, r.dpa, r.len))) =
            ((getLd p n s.hub).events.map (fun r => (r.kind, r.dpa, r.len))) ++ exts.map (fun e => (0, e.1, e.2.1)) ∧
          sent (.mailbox p 16 "INITIATE_DYNAMIC_CAPACITY_ADD" mbSuccess []) s.hub h)) ∧
      (∀ (i : Nat) (e : Extent) (ranges : List (Nat × Nat)), c.extents = [(i, e)] → e.ld = n →
        let at_ := e.dpaBlk * blockBytes64
        let len := e.count * blockBytes64
        (e.st = .pending →
          ((at_, len) ∈ ranges → HubAnswers (.addDynamicCapacityResponse p n ranges) s (fun h => getExt p i h = { e with st := .active })) ∧
          ((at_, len) ∉ ranges → HubAnswers (.addDynamicCapacityResponse p n ranges) s (fun h => (getCxl p h).extents = [] ∧
            (getCxl p h).fmEvents = c.fmEvents ++ [⟨c.fmHandle, 0, n, at_, len, 0⟩]))) ∧
        (e.st = .active → (at_, len) ∈ ranges →
          (drainCount p i s.hub ≠ 0 → HubAnswers (.releaseDynamicCapacity p n ranges) s (fun h =>
            getExt p i h = { e with st := .draining, drainAt := s.hub.devTime } ∧ sent (.mailbox p n "RELEASE_DYNAMIC_CAPACITY" mbSuccess []) s.hub h)) ∧
          (drainCount p i s.hub = 0 → HubAnswers (.releaseDynamicCapacity p n ranges) s (fun h => (getCxl p h).extents = [] ∧
            (getCxl p h).fmEvents = c.fmEvents ++ [⟨c.fmHandle, 0, n, at_, len, 0⟩])) ∧
          HubAnswers (.initiateDynamicCapacityRelease p n false ranges) s (fun h => getExt p i h = { e with st := .recalled } ∧
            (getLd p n h).events = (getLd p n s.hub).events ++ [⟨(getLd p n s.hub).nextHandle, 1, n, at_, len, 0⟩]) ∧
          (drainCount p i s.hub ≠ 0 → HubAnswers (.initiateDynamicCapacityRelease p n true ranges) s (fun h =>
            getExt p i h = { e with st := .draining, drainAt := s.hub.devTime } ∧
            (getLd p n h).events = (getLd p n s.hub).events ++ [⟨(getLd p n s.hub).nextHandle, 2, n, at_, len, 0⟩])))) ∧
      (∀ (d : Fin 2) (base size dpa : Nat), base % 2 ^ 28 = 0 → size % 2 ^ 28 = 0 → 0 < size → dpa + size ≤ 2 ^ 45 →
        HubAnswers (.hdmDecoderCommit p n d base size dpa 1) s (fun h => SameMemory s.hub h ∧
          (if d = 0 then (getLd p n h).dec0 else (getLd p n h).dec1) = ⟨base, size, dpa, true⟩))) ∧
    (∀ (i : Fin 4096) (e : Extent) (q : Req) (tag : Nat), storeRuns s.hub = true → c.extents = [(i.val, e)] → e.st = .draining →
      e.drainAt + 50000 ≤ s.hub.devTime → s.hub.stu.waiting = [q] → q.src = .cxl p n tag i → q.frame.opcode = 1 → q.frame.turned = false →
      s.hub.shapers = [] → s.hub.coh.waiting = [] → s.hub.coh.txs = [] →
      HubAnswers (.drainTimeout p i) s (fun h => (getCxl p h).extents = [] ∧ h.stu.waiting = [] ∧ regBit (cxlPage p) 0x18 17 h = true ∧
        (∃ dl, sent (.memData p n tag (poisonPattern 64) true dl) s.hub h) ∧
        (getCxl p h).fmEvents = c.fmEvents ++ [⟨c.fmHandle, 0, e.ld, e.dpaBlk * 2 ^ 26, e.count * 2 ^ 26, 1⟩])) ∧
    (∀ (r : Requester) (v : Nat), v < 2 ^ 64 →
      (admits r (cxlPage p) 0x50 s = true → regFld (cxlPage p) 0x4C 3 0 s.hub = n → v.testBit 63 = true →
        HubAnswers (.cxlpLdWrite r p v) s (fun h => SameMemory s.hub h ∧ (getLd p n h).en = true ∧
          (getLd p n h).tenant = nbits v 43 32 ∧ (getLd p n h).shaper = nbits v 7 0)) ∧
      (admits r (cxlPage p) 0x44 s = true → v < 2 ^ 32 → HubAnswers (.openModeWrite r p v) s (fun h => SameMemory s.hub h ∧
        regBit (cxlPage p) 0x44 0 h = v.testBit 0 ∧ (regBit (cxlPage p) 0x44 0 s.hub = true → v.testBit 0 = false →
          let k := (getLd p n s.hub).shaper
          let sh := getShaper k s.hub
          (getShaper k h).peak = (if sh.resetTo then (1000 * burstOf sh : Nat) else 0) ∧ (getShaper k h).committed = (getShaper k h).peak))))

/-- Mailbox commands and the FM API. -/
def Obligations.MailboxesAnswer : Prop :=
  ∀ (p : Fin 2) (n : Fin 16) (s : State), (getCxl p s.hub).up = true →
    let c := getCxl p s.hub
    let d := getLd p n s.hub
    let sh := getShaper d.shaper s.hub
    mails p n "GET_EVENT_RECORDS" mbSuccess (eventWords d.events) (.getEventRecords p n.castSucc) s ∧
    mails p 16 "GET_EVENT_RECORDS" mbSuccess (eventWords c.fmEvents) (.getEventRecords p 16) s ∧
    (∀ hs : List Nat, HubAnswers (.clearEventRecords p n.castSucc hs) s (fun h => (getLd p n h).events = d.events.filter (fun r => !hs.contains r.handle))) ∧
    (∃ free, mails p n "GET_DYNAMIC_CAPACITY_CONFIGURATION" mbSuccess [1, 0, 2 ^ 45, 2 ^ 26, 4096, free] (.getDynamicCapacityConfiguration p n) s ∧
      (c.extents = [] → free = 4096)) ∧
    (∀ (i : Nat) (e : Extent), c.extents = [(i, e)] → e.ld = n → (e.st = .active ∨ e.st = .recalled) →
      let w := [e.dpaBlk * 2 ^ 26, e.count * 2 ^ 26, mkFld 63 63 (bit01 e.r) + mkFld 62 62 (bit01 e.w) + e.offBlk * 2 ^ 26]
      mails p n "GET_DYNAMIC_CAPACITY_EXTENT_LIST" mbSuccess w (.getDynamicCapacityExtentList p n) s ∧
      mails p 16 "GET_DC_REGION_EXTENT_LISTS" mbSuccess (n.val :: w) (.getDcRegionExtentLists p n) s) ∧
    mails p 16 "GET_DCD_INFO" mbSuccess [16, 1, 2, 2 ^ 26] (.getDcdInfo p) s ∧
    mails p 16 "GET_HOST_DC_REGION_CONFIGURATION" mbSuccess [n.val, 1, 0, 2 ^ 45, 2 ^ 26] (.getHostDcRegionConfiguration p n) s ∧
    (∀ b : Nat, mails p 16 "SET_DC_REGION_CONFIGURATION" (if b = 2 ^ 26 then mbSuccess else mbInvalidInput) [] (.setDcRegionConfiguration p n 0 b) s) ∧
    HubAnswers (.identifyMemoryDevice p n) s (fun h => h.free = s.hub.free + 1 ∧
      sent (let v := (Config.freeValue s.hub.free).toNat; .mailbox p n "IDENTIFY_MEMORY_DEVICE" mbSuccess [v, v, 0]) s.hub h) ∧
    HubAnswers (.getLdInfo p) s (fun h => h.free = s.hub.free + 1 ∧
      sent (.mailbox p 16 "GET_LD_INFO" mbSuccess [(Config.freeValue s.hub.free).toNat, 16]) s.hub h) ∧
    mails p 16 "GET_QOS_CONTROL" mbSuccess c.qosControl (.getQosControl p) s ∧
    (∀ ctl mod sev int basis coll : Nat, mod ≤ 100 → sev ≤ 100 → HubAnswers (.setQosControl p ctl mod sev int basis coll) s (fun h =>
      (getCxl p h).qosControl = [ctl, mod, sev, int, basis, coll] ∧ regFld (cxlPage p) 0x48 19 10 h = mod * 1023 / 100 ∧
      regFld (cxlPage p) 0x48 29 20 h = sev * 1023 / 100 ∧ regFld (cxlPage p) 0x48 9 0 h = regFld (cxlPage p) 0x48 9 0 s.hub)) ∧
    HubAnswers (.getQosStatus p n) s (fun h => ∃ w, w ≤ d.qosHigh ∧ sent (.mailbox p 16 "GET_QOS_STATUS" mbSuccess [w]) s.hub h) ∧
    (∀ f : Nat, f < 256 →
      HubAnswers (.setQosAllocatedBw p n [f]) s (fun h => (getShaper d.shaper h).alloc = f * 64000 / 256 ∧ (getShaper d.shaper h).limit = sh.limit ∧
        mails p 16 "GET_QOS_ALLOCATED_BW" mbSuccess [f] (.getQosAllocatedBw p n 1) { s with hub := h }) ∧
      HubAnswers (.setQosBwLimit p n [f]) s (fun h => (getShaper d.shaper h).limit = (if f = 0 then 256 else f) * 64000 / 256 ∧
        (getShaper d.shaper h).alloc = sh.alloc ∧ mails p 16 "GET_QOS_BW_LIMIT" mbSuccess [f] (.getQosBwLimit p n 1) { s with hub := h })) ∧
    (d.allocF = none → mails p 16 "GET_QOS_ALLOCATED_BW" mbSuccess [min 255 (sh.alloc * 256 / 64000)] (.getQosAllocatedBw p n 1) s) ∧
    (d.limitF = none → mails p 16 "GET_QOS_BW_LIMIT" mbSuccess [min 255 (sh.limit * 256 / 64000)] (.getQosBwLimit p n 1) s)

/-- Pool operations. -/
def Obligations.PoolOperationsAct : Prop :=
  ∀ (s : State),
    (∀ (p : Fin 2) (n : Fin 16) (k v off i : Nat), let r : Requester := .ld p n
      let d := getLd p n s.hub
      v < 2 ^ 64 →
      (let a := nbits v 44 0
       admits r 0xD0 0x48 s = true → pairJoined s.hub = false → d.en = true → pouRoom (.ld p n) s.hub = 0 → a % 64 = 0 →
       dpaParts p n false 2 a 64 s.hub = some [(off, 64, i)] → plainTile (tileOf off) s.hub = true → anyPoison off 64 s.hub = false →
       HubAnswers (.poolSubmit (.reg r k 8 v)) s (fun h => SameMemory s.hub h ∧ h.pou.cmds = s.hub.pou.cmds ++
         [{ n := s.hub.pou.next, sub := .ld p n, tenant := d.tenant, asid := 0, trusted := false, desc := memGetN s.hub.mem off 64 }])) ∧
      (∀ c : PouCmd, admits r 0xD0 0x50 s = true → s.hub.pou.cmds = [c] → c.sub = .ld p n → c.tag = nbits v 63 32 →
        (c.phase = .reading ∨ c.phase = .writing) →
        HubAnswers (.poolAbort (.reg r k 8 v)) s (fun h => h.pou.cmds = [{ c with aborting := true }] ∧ SameMemory s.hub h))) ∧
    (∀ (p : Fin 28) (f : Frame),
      (let g := toUnit 0x86 (asAux 1 (asOp 0x11 f))
       meetsWork p g 0x86 s = true → f.len = 64 → pouRoom (.agent f.srcModule f.srcUnit) s.hub = 0 →
       HubAnswers (.poolSubmit (.frame p f)) s (fun h => SameMemory s.hub h ∧ answers g stOk 0 0 0 h ∧ ∃ t, h.pou.cmds = s.hub.pou.cmds ++
         [{ n := s.hub.pou.next, sub := .agent f.srcModule f.srcUnit, tenant := f.tenant, asid := f.asid, trusted := t, desc := f.payload }])) ∧
      (∀ c : PouCmd, let g := toUnit 0x86 (asAux 2 (asOp 0x11 f))
       meetsWork p g 0x86 s = true → f.len = 8 → s.hub.pou.cmds = [c] → c.sub = .agent f.srcModule f.srcUnit → c.tag = leAt f.payload 0 4 →
       (c.phase = .reading ∨ c.phase = .writing) →
       HubAnswers (.poolAbort (.frame p f)) s (fun h => h.pou.cmds = [{ c with aborting := true }] ∧ SameMemory s.hub h ∧ answers g stOk 0 0 0 h))) ∧
    (∀ (p n i off : Nat) (c : PouCmd) (offs : List Nat), poolAlone p n i c s.hub = true → c.phase = .queued → c.done = 0 → c.status = 0 →
      pouBad c = false → poolRange p n i true c.dst c.len off s.hub = true →
      offs.length = c.nsrc → (∀ k, k < c.nsrc → poolRange p n i false (c.src k) c.len (offs.getD k 0) s.hub = true ∧
        anyPoison (offs.getD k 0) c.len s.hub = false) →
      let src (k : Nat) : List Byte := memGetN s.hub.mem (offs.getD k 0) c.len
      let dst := memGetN s.hub.mem off c.len
      let atEnd (h : Hub) : Prop := ∃ e, h.pou.cmds.map (fun x => (x.n, x.engine, x.phase, x.piece, x.status)) = [(c.n, some e, .pieceDone, c.len, 0)]
      (c.op = 1 → HubAnswers .fill s (fun h => storesAt off ((List.replicate (c.len / 8) (bytesLE 8 (pouWord c 3))).flatten) s.hub h ∧ atEnd h)) ∧
      (c.op = 2 → HubAnswers .copy s (fun h => storesAt off (src 0) s.hub h ∧ atEnd h)) ∧
      (c.op = 3 → poolRange p n i false c.dst c.len off s.hub = true → anyPoison off c.len s.hub = false →
        HubAnswers .compare s (fun h => SameMemory s.hub h ∧ atEnd h ∧ h.pou.cmds.map (·.differ) = [firstDiff 0 (src 0) dst])) ∧
      (c.op = 4 → (c.acc = true → poolRange p n i false c.dst c.len off s.hub = true ∧ anyPoison off c.len s.hub = false) →
        HubAnswers .reduce s (fun h => atEnd h ∧ storesAt off
          (reduceBytes c.rfmt c.rop c.len ((if c.acc then [dst] else []) ++ (List.range c.nsrc).map src)) s.hub h))) ∧
    (∀ (p n i off : Nat) (e : Fin 4) (c : PouCmd), poolAlone p n i c s.hub = true → c.engine = some e.val → c.phase = .pieceDone →
      c.aborting = false → c.status = 0 → c.len ≤ c.done + c.piece → poolRange p n i true c.cpl 32 off s.hub = true →
      HubAnswers (.poolPieceDone e) s (fun h => h.pou.cmds = [] ∧
        storesAt off (pouRecordBytes { c with done := c.done + c.piece } s.hub) s.hub h))

/-- Meters, Pigeonholes and shapers. -/
def Obligations.MetersHolesAndShapersAct : Prop :=
  ∀ (r : Requester) (s : State),
    (admits r 0xE0 0x88 s = true →
      HubAnswers (.meterClear r) s (fun h => SameMemory s.hub h ∧
        ∀ t, Tab.getD h.meter.tenants t {} = if t = meterSel s.hub then {} else Tab.getD s.hub.meter.tenants t {}) ∧
      (s.hub.meter.snap = none → HubAnswers (.meterSnapshot r) s (fun h => h.meter.snap = some s.hub.meter.tenants ∧
        h.meter.stamp = s.hub.devTime % 2 ^ 48 ∧ h.meter.tenants = s.hub.meter.tenants))) ∧
    (serving s.hub = true →
      (∀ (sn : Tab Meter) (k : Nat), s.hub.meter.snap = some sn → regFld 0xE0 0x90 45 16 s.hub = k → pairJoined s.hub = false →
        (∀ j, j < 4 → plainTile (k + j) s.hub = true) →
        HubAnswers .snapshotDone s (fun h => storesAt (65536 * k) (snapBytes sn 0 4096) s.hub h ∧ h.meter.snap = none ∧ regBit 0xE0 0xA0 0 h = true)) ∧
      (∀ (k : Nat) (v : Tile), s.hub.tier.tiles = [(k, v)] → holdsSlot v.st = true → s.hub.meter.ms < s.hub.devTime / 1000000 →
        s.hub.devTime / 1000000000 ≤ s.hub.meter.sec → (Tab.getD s.hub.meter.tenants v.owner {}).raw.length = 8 →
        nth (Tab.getD s.hub.meter.tenants v.owner {}).raw 3 0 + 1 < 2 ^ 64 →
        HubAnswers .meterSample s (fun h => SameMemory s.hub h ∧ nth (Tab.getD h.meter.tenants v.owner {}).raw 3 0 =
          nth (Tab.getD s.hub.meter.tenants v.owner {}).raw 3 0 + 1))) ∧
    (∀ (k : Fin 64) (second : Bool) (v : Nat), let x := getHole k s
      let mine := regStamp r s.hub
      (admits r (0x100 + k.val) (if second then 0x50 else 0x48) s = true → v < 2 ^ 64 → ldOff r s.hub = false →
        sendOutcome k second mine s = .queued →
        Answers (.pigeonSend (.reg r k 8 v) second) s (fun t => getHole k t = x.setQ second (x.q second ++ [⟨w64 v, mine⟩]) ∧
          SameMemory s.hub t.hub ∧ ∀ j, j ≠ k.val → getHole j t = getHole j s)) ∧
      (admits r (0x100 + k.val) 0x58 s = true →
        Answers (.pigeonFlush (.reg r k 4 (if second then 2 else 1))) s (fun t =>
          getHole k t = x.setQ second ((x.q second).filter (fun w => stampOwner w.stamp != stampOwner mine)) ∧ SameMemory s.hub t.hub)) ∧
      (admits r (0x100 + k.val) 0x88 s = true →
        Answers (.pigeonPop r k (if second then 2 else 1)) s (fun t => getHole k t = x.setQ second ((x.q second).drop 1) ∧ SameMemory s.hub t.hub)) ∧
      (admits r 0xF0 0x48 s = true →
        Answers (.pigeonClear r k 3) s (fun t => getHole k t = { x with q0 := [], q1 := [] } ∧ SameMemory s.hub t.hub))) ∧
    (∀ (p : Fin 28) (f : Frame) (second : Bool),
      (let g := toUnit 0x87 (pigeonOp false (asOp 0x12 f))
       let k := nbits g.addr 5 0
       let q := g.addr.testBit 6
       let x := getHole k s
       meetsWork p g 0x87 s = true → sendOutcome k q (frameStamp g s.hub) s = .queued →
       Answers (.pigeonSend (.frame p f) second) s (fun t => answers g stOk 0 0 0 t.hub ∧ SameMemory s.hub t.hub ∧
         getHole k t = x.setQ q (x.q q ++ [⟨w64 (ofBytesLE f.payload), frameStamp g s.hub⟩]))) ∧
      (let g := toUnit 0x87 (pigeonOp true (asOp 0x12 f))
       let k := nbits g.addr 5 0
       let q := g.addr.testBit 6
       let x := getHole k s
       let keep := (x.q q).filter (fun w => stampOwner w.stamp != stampOwner (frameStamp g s.hub))
       meetsWork p g 0x87 s = true →
       Answers (.pigeonFlush (.frame p f)) s (fun t => answers g stOk 0 ((x.q q).length - keep.length) 0 t.hub ∧
         getHole k t = x.setQ q keep ∧ SameMemory s.hub t.hub))) ∧
    (∀ (k w : Nat) (sh : Shaper) (q : Req) (p : Nat), storeRuns s.hub = true → s.hub.shapers = [(k, sh)] → sh.slot = some w → w * 8 ≤ s.hub.devTime →
      sh.queue = [q] → q.src = .frame p → q.frame.opcode = 5 → q.frame.posted = false → q.frame.dstUnit = 0x80 → q.frame.cm = false → sh.limit ≠ 0 →
      0 ≤ (refill (w * 8) sh).peak → s.hub.stu.waiting = [] → s.hub.coh.waiting = [] → s.hub.coh.txs = [] →
      HubAnswers .wheelSlotDue s (fun h => (getShaper k h).queue = [] ∧ (getShaper k h).slot = none ∧
        (getShaper k h).peak = (refill (w * 8) sh).peak - (1000 * chargeOf sh q : Nat) ∧
        (∃ h1, sends (completionOf q.frame stOk 0 0 false []) h1 h) ∧ SameMemory s.hub h)) ∧
    (∀ v : Nat, let k := shapeSel s.hub
      let sh := getShaper k s.hub
      let tokens (x : Shaper) : Int := if x.resetTo then (1000 * burstOf x : Nat) else 0
      let reset (h : Hub) : Prop := (getShaper k h).peak = tokens (getShaper k h) ∧ (getShaper k h).committed = tokens (getShaper k h) ∧
        (getShaper k h).queue = sh.queue ∧ SameMemory s.hub h
      (admits r 0xD8 0x44 s = true → v < 2 ^ 32 → v.testBit 31 = true → HubAnswers (.shaperReconfigure r .cfg v) s (fun h => reset h ∧
        (getShaper k h).en = true ∧ (getShaper k h).resetTo = v.testBit 30 ∧ (getShaper k h).penalty = nbits v 15 8 ∧
        (getShaper k h).overhead = nbits v 7 0)) ∧
      (admits r 0xD8 0x48 s = true → v < 2 ^ 64 → HubAnswers (.shaperReconfigure r .rate v) s (fun h => reset h ∧
        (getShaper k h).alloc = nbits v 47 24 ∧ (getShaper k h).limit = nbits v 23 0)) ∧
      (admits r 0xD8 0x50 s = true → v < 2 ^ 32 → HubAnswers (.shaperReconfigure r .burst v) s (fun h => reset h ∧
        (getShaper k h).burst = nbits v 23 0)) ∧
      (∀ p : Fin 28, admits r 0xD8 (0x100 + 4 * p.val) s = true → v < 2 ^ 32 → HubAnswers (.shaperReconfigure r (.portMap p) v) s (fun h =>
        SameMemory s.hub h ∧ regBit 0xD8 (0x100 + 4 * p.val) 31 h = v.testBit 31 ∧ regFld 0xD8 (0x100 + 4 * p.val) 7 0 h = nbits v 7 0)))

/-- Errors, retirement, the fault history, injection. -/
def Obligations.ErrorsAct : Prop :=
  ∀ (s : State),
    (∀ (u : UnitUse) (scrub : Bool), storeRuns s.hub = true →
      (∀ (a way : Nat), let l := lineOf a
        inT0 l s.hub = true → way < 24 → autoRetire 1 s.hub = false →
        HubAnswers (.scrubPatrol (.t0 a way) true scrub u) s (fun h => h.mem = s.hub.mem ∧ regBit (slicePage l) 0x18 23 h = true ∧
          (Tab.get? s.hub.coh.t0 l = some .dirty → anyPoison (128 * l) 64 h = true ∧ anyPoison (128 * l + 64) 64 h = true) ∧
          (Tab.get? s.hub.coh.t0 l = some .clean → inT0 l h = false ∧ h.poison = s.hub.poison))) ∧
      (∀ (a loc : Nat), (getTile (tileOf a) s.hub).st = .upper → inT0 (lineOf a) s.hub = false → s.hub.armoire.history = [] →
        enabled rasPage s.hub = true → loc < 2 ^ 48 →
        HubAnswers (.scrubPatrol (.t1 a loc) true false u) s (fun h => h.mem = s.hub.mem ∧ a / 64 ∈ h.poison ∧
          regBit (0x70 + loc % 8) 0x18 23 h = true ∧ regFld (0x70 + loc % 8) 0x80 47 0 h = loc ∧
          h.armoire.history = [⟨4, false, true, 1, loc, s.hub.time.poh, s.hub.time.poh⟩])) ∧
      (∀ (k : Fin 64) (unit : Nat), unit < 12288 → s.hub.armoire.history = [] →
        HubAnswers (.scrubPatrol (.scratch k unit) true scrub u) s (fun h => h.mem = s.hub.mem ∧ regBit (corePage k) 0x18 20 h = true ∧
          anyPoison (scratchAddr k (128 * unit)) 64 h = true ∧ anyPoison (scratchAddr k (128 * unit) + 64) 64 h = true)) ∧
      (s.hub.ras.fence = .serving → HubAnswers (.scrubPatrol .directory true scrub u) s (fun h => h.ras.fence = .fatal ∧ h.ras.cause = 3)) ∧
      (∀ (b loc first : Nat), s.hub.ras.fence = .serving → Tab.get? s.hub.ras.banks b = some first → s.hub.time.poh < first + histWindow s.hub →
        HubAnswers (.scrubPatrol (.bufferBank b loc none) true scrub u) s (fun h => h.ras.fence = .fatal ∧ h.ras.cause = 2)) ∧
      (∀ page : Nat, (pageInfo page).isSome = true →
        HubAnswers (.scrubPatrol (.parity page) true scrub u) s (fun h => regBit page 0x18 4 h = true ∧ SameMemory s.hub h)) ∧
      (∀ c : RetireCopy, s.hub.ras.copies = [c] → c.image = false →
        ((getTile c.tile s.hub).st = .clean → HubAnswers (.retireCopy c.tile) s (fun h => h.ras.copies = [] ∧ h.mem = s.hub.mem ∧
          h.tier.slots = s.hub.tier.slots - 1 ∧ (getTile c.tile h).st = .lower)) ∧
        ((getTile c.tile s.hub).st = .upper → 0 < slotsFree s.hub → HubAnswers (.retireCopy c.tile) s (fun h => h.ras.copies = [] ∧
          SameMemory s.hub h ∧ h.tier.slots = s.hub.tier.slots - 1 ∧ getTile c.tile h = getTile c.tile s.hub)))) ∧
    (s.hub.armoire.histPending = true → s.hub.armoire.histFlushedAt + 60000000000 ≤ s.hub.clock →
      HubAnswers .faultHistoryFlush s (fun h => h.armoire.histSaved = s.hub.armoire.history ∧ h.armoire.histPending = false ∧
        h.armoire.histFlushedAt = s.hub.clock ∧ h.armoire.history = s.hub.armoire.history)) ∧
    (s.hub.pins.pgOut = true → HubAnswers .counterSave s (fun h => h.armoire.savedPoh = s.hub.time.poh ∧
      (s.hub.armoire.lineFails = [] → h.regs = s.hub.regs) ∧
      h.armoire.counters = (s.hub.regs.filter (fun e => persistentKey e.1)).map (fun e => (e.1, e.2.toNat)))) ∧
    (∀ (r : Requester) (ue : Bool) (t : Nat) (c : Instr), (t, c) ∈ [(1, .injectT0Line r ue), (2, .injectT1Line r ue), (3, .injectT2Block r ue),
        (4, .injectScratchpad r ue), (5, .injectYumerLane r ue), (6, .injectSwitchFrame r ue), (7, .injectPoison r ue)] →
      let a := (getReg rasPage 0x70 s.hub).toNat % 2 ^ 56
      let lane := t = 5 ∧ (getPort (nbits a 4 0) s.hub).st = .ready
      admits r rasPage 0x78 s = true →
      (s.hub.ras.injection = none → injectTargetOk t a s.hub = true → ¬lane →
        HubAnswers c s (fun h => h.ras.injection = some ⟨t, a, ue⟩ ∧ SameMemory s.hub h)) ∧
      (s.hub.ras.injection = none → injectTargetOk t a s.hub = true → lane →
        HubAnswers c s (fun h => h.ras.injection = none ∧ SameMemory s.hub h ∧ regBit (portPage (nbits a 4 0)) 0x18 2 h = true)) ∧
      ((s.hub.ras.injection.isSome = true ∨ injectTargetOk t a s.hub = false) →
        HubAnswers c s (fun h => h.ras.injection = s.hub.ras.injection ∧ SameMemory s.hub h ∧ regBit rasPage 0x18 18 h = true)))

/-- Monitors and the fitting cycle. The curve's voltages, the low lanes, the offsets and the forecast come as operands. -/
def Obligations.FittingActs : Prop :=
  ∀ (s : State), let f := s.hub.fitting
    (∀ (site ppm path slack : Nat), let n := [(site, ppm, path, slack)]
      let guard : Int := regFld fitPage 0x40 15 8 s.hub
      hubClocked s.hub = true → site < 256 → ppm < 2 ^ 16 → path < 2 ^ 16 → slack < 2 ^ 16 → f.sites = [] →
      let kept (h : Hub) : Prop := h.fitting.sites = [(site, ppm, path, slack)] ∧ SameMemory s.hub h
      (regBit fitPage 0x40 0 s.hub = false → HubAnswers (.monitorReading n) s (fun h => kept h ∧ h.fitting.vcore = 850)) ∧
      (regBit fitPage 0x40 0 s.hub = true → sextNat 16 slack < guard →
        (f.vcore < 850 → HubAnswers (.monitorReading n) s (fun h => kept h ∧ h.fitting.vcore = min 850 (f.vcore + 5) ∧ h.fitting.good = 0)) ∧
        (850 ≤ f.vcore → f.limited = false → HubAnswers (.monitorReading n) s (fun h => kept h ∧ h.fitting.vcore = f.vcore ∧
          h.fitting.limited = true ∧ h.ras.halved = true ∧ regBit fitPage 0x18 17 h = true))) ∧
      (regBit fitPage 0x40 0 s.hub = true → guard + 10 ≤ sextNat 16 slack → f.limited = false →
        (f.good + 1 < 1000 → HubAnswers (.monitorReading n) s (fun h => kept h ∧ h.fitting.vcore = f.vcore ∧ h.fitting.good = f.good + 1)) ∧
        (1000 ≤ f.good + 1 → activeFloor s.hub + 5 ≤ f.vcore →
          HubAnswers (.monitorReading n) s (fun h => kept h ∧ h.fitting.vcore = f.vcore - 5 ∧ h.fitting.good = 0)))) ∧
    (let starts (h : Hub) : Prop := h.fitting.phase = 1 ∧ h.fitting.late = false ∧ h.fitting.atSeconds = s.hub.time.calSeconds ∧
        h.fitting.atPoh = s.hub.time.poh ∧ h.fitting.vcore = f.vcore ∧ SameMemory s.hub h
     (enabled fitPage s.hub = true → f.phase = 0 → fittingDue s.hub = true →
        (s.hub.boot.phase = .ready → s.hub.ras.fence = .serving → HubAnswers .fittingDue s starts) ∧
        ((s.hub.boot.phase ≠ .ready ∨ s.hub.ras.fence ≠ .serving) →
          exec .fittingDue s = .next { s with hub := { s.hub with fitting := { f with late := true } } })) ∧
     (∀ r : Requester, admits r 0x318 0x44 s = true →
        (enabled fitPage s.hub = true → f.phase = 0 → HubAnswers (.run r) s starts) ∧
        (f.phase ≠ 0 → HubAnswers (.run r) s (fun h => h.fitting = f ∧ regBit fitPage 0x18 16 h = true)))) ∧
    (serving s.hub = true →
      (∀ curve : List Nat, f.phase = 1 → let ppm := f.sites.map (fun x => x.2.1)
        exec (.monitorsDone curve) s = .next { s with hub := { s.hub with fitting := { f with
          phase := 2, plan := planFloors curve, worst := ppm.foldl max 0, mean := ppm.sum / max 1 ppm.length } } }) ∧
      (∀ low : Nat, f.phase = 2 → HubAnswers (.linksDone low) s (fun h => h.fitting = { f with phase := 3, lanesLow := low } ∧
        (low ≠ 0 → regBit fitPage 0x70 2 h = true) ∧ SameMemory s.hub h)) ∧
      (∀ offsets : List Nat, f.phase = 3 → exec (.memoryDone offsets) s = .next { s with hub := { s.hub with fitting := { f with
        phase := 4, offsets := offsets } } }) ∧
      (∀ forecast : Nat, f.phase = 4 → s.hub.armoire.fitting.length ≤ 256 → let permit := permitOf f.plan
        let result := if permit.testBit s.hub.boot.oppoint then 0 else 2
        HubAnswers (.fittingCommit forecast) s (fun h => h.fitting.phase = 0 ∧ h.fitting.permit = permit ∧ h.fitting.floors = f.plan ∧
          h.fitting.result = result ∧ h.fitting.forecast = min forecast 0xFFFF ∧ h.fitting.startSeconds = f.atSeconds ∧ h.fitting.startPoh = f.atPoh ∧
          h.armoire.timingOffsets = f.offsets ∧ regBit fitPage 0x70 0 h = true ∧ SameMemory s.hub h ∧
          ∃ x, h.armoire.fitting = s.hub.armoire.fitting ++ [x] ∧ x.floors = f.plan ∧ x.permit = permit ∧ x.result = result ∧
            x.cycle = (s.hub.armoire.fitting.getLast?.map (·.cycle)).getD 0 + 1)))

/-- MCTP and Nipieb. -/
def Obligations.SidebandActs : Prop :=
  ∀ (q : NipHdr) (s : State),
    let told (cmd cc : Nat) (payload : List Byte) (h : Hub) : Prop := sent (.nipieb cmd cc (q.inst % 32) payload) s.hub h
    let only (c : Instr) (cmd cc : Nat) (payload : List Byte) : Prop :=
      exec c s = .next { s with hub := emit (.nipieb cmd cc (q.inst % 32) payload) s.hub }
    (∀ a : Nat, s.hub.pins.vaux3 = true → exec (.entdaa a) s = .next { s with hub := { s.hub with side := { s.hub.side with dynAddr := some (a % 128) } } }) ∧
    (sideUp s.hub = true → HubAnswers .mctpControlMessage s (fun h => SameMemory s.hub h ∧ ∃ b, sent (.mctp b) s.hub h)) ∧
    (sideUp s.hub = true → q.vendor = 0xE37D →
      (q.nver ≠ 1 → only (.getInfo q) 0x01 8 [] ∧ only (.nipiebFence q) 0x40 8 []) ∧
      (q.nver = 1 → s.hub.pins.pgOut = false → only (.nipiebFence q) 0x40 6 []) ∧
      (q.nver = 1 → q.lenOk = false → only (.getInfo q) 0x01 3 [])) ∧
    (nipServed true q s.hub = true →
      only (.getInfo q) 0x01 0 (bytesLE 8 0x31424138344D4B56 ++ bytesLE 8 s.hub.armoire.serial ++ bytesLE 2 1 ++ [1#8, 2#8, 1#8]) ∧
      only (.getStatus q) 0x02 0 (bytesLE 1 (bit01 s.hub.pins.pgOut) ++
        bytesLE 1 (bit01 (!s.hub.pins.thermTripN) * 2 + bit01 (s.hub.ras.throttled != [])) ++ bytesLE 1 (rasFence s.hub) ++ bytesLE 4 (ringPathView s.hub)) ∧
      (∀ id : Nat, (id ≤ 1023 → HubAnswers (.setModuleId q id) s (fun h => h.armoire.moduleId = some id ∧ told 0x20 0 [] h ∧ SameMemory s.hub h)) ∧
        (1023 < id → only (.setModuleId q id) 0x20 2 [])) ∧
      only (.getModuleId q) 0x21 0 (bytesLE 2 ((s.hub.armoire.moduleId).getD 0xFFFF) ++ bytesLE 4 (getReg 0 0x50 s.hub).toNat) ∧
      (∀ n : Nat, n ≤ 0x100000 → HubAnswers (.bundleBegin q n) s (fun h => h.side.bundle = some ⟨n, [], s.hub.clock⟩ ∧ told 0x30 0 [] h)) ∧
      (∀ (off : Nat) (data : List Byte) (x : BundleTransfer), s.hub.side.bundle = some x →
        (off + data.length ≤ x.len → HubAnswers (.bundleData q off data) s (fun h => told 0x31 0 [] h ∧ ∃ y, h.side.bundle = some y ∧
          y.len = x.len ∧ y.last = s.hub.clock ∧ ∀ i, Tab.get? y.bytes i =
            if off ≤ i ∧ i < off + data.length then some (data.getD (i - off) 0) else Tab.get? x.bytes i)) ∧
        (x.len < off + data.length → only (.bundleData q off data) 0x31 2 [])) ∧
      (∀ bs : List Byte, commitCheck s.hub = .accept bs → HubAnswers (.bundleCommit q) s (fun h => h.armoire.staged = some { bytes := bs } ∧
        h.side.bundle = none ∧ told 0x32 0 [] h ∧ regBit armPage 0x60 0 h = true)) ∧
      (∀ (cc : Nat) (p : List Byte), commitCheck s.hub = .fail cc p → HubAnswers (.bundleCommit q) s (fun h =>
        h.armoire.staged = s.hub.armoire.staged ∧ h.side = s.hub.side ∧ told 0x32 cc p h ∧ regBit secPage 0x18 16 h = true)) ∧
      (∀ (region off n : Nat) (bs : List Byte), armoireRead region off n s.hub = ((ccOk, bs), s.hub) → only (.armoireRead q region off n) 0x50 0 bs) ∧
      (∀ off n : Nat, only (.armoireRead q 0xF off n) 0x50 7 []) ∧
      (∀ t : Nat, t < 2 ^ 48 → HubAnswers (.calendarSet q t) s (fun h => h.time.calSeconds = t ∧ h.time.calSet = true ∧ h.time.calStale = false ∧
        h.armoire.savedSeconds = t ∧ told 0x60 0 [] h)) ∧
      only (.calendarGet q) 0x61 0 (bytesLE 8 (mkFld 63 63 (bit01 s.hub.time.calSet) + mkFld 62 62 (bit01 s.hub.time.calStale) + s.hub.time.calSeconds) ++
        bytesLE 8 s.hub.time.poh) ∧
      (∀ cmd : Nat, only (.nipiebUnsupported q cmd) cmd 5 [])) ∧
    (nipServed false q s.hub = true →
      (∀ (page off size : Nat), accessOk off size = true → let r := regRead .sideband page off size s
        exec (.nipiebRegRead q page off size) s = .next (onHub (emit (.nipieb 0x10 0 (q.inst % 32) (bytesLE size r.1))) r.2)) ∧
      (∀ (page off size v : Nat), accessOk off size = true → let t := (regWrite .sideband page off size v s).2
        Answers (.nipiebRegWrite q page off size v) s (fun u => u.hub.regs = t.hub.regs ∧ u.holes = t.holes ∧ u.pending = t.pending ∧
          SameMemory t.hub u.hub ∧ sent (.nipieb 0x11 0 (q.inst % 32) []) t.hub u.hub)) ∧
      (s.hub.ras.fence = .serving → HubAnswers (.nipiebFence q) s (fun h => h.ras.fence = .fenced ∧ h.ras.cause = 1 ∧ told 0x40 0 [] h)) ∧
      (s.hub.ras.fence = .fenced → HubAnswers (.nipiebUnfence q) s (fun h => h.ras.fence = .serving ∧ h.ras.cause = 0 ∧ told 0x41 0 [] h)) ∧
      (s.hub.ras.fence = .fatal → HubAnswers (.nipiebUnfence q) s (fun h => h.ras.fence = .fatal ∧ told 0x41 7 [] h))) ∧
    (∀ x : BundleTransfer, s.hub.side.bundle = some x → x.last + 10000000000 ≤ s.hub.clock →
      exec .bundleTransferTimeout s = .next { s with hub := { s.hub with side := { s.hub.side with bundle := none } } }) ∧
    (s.hub.pins.vaux3 = true → HubAnswers .calendarHourlySave s (fun h => h.armoire.savedSeconds = s.hub.time.calSeconds ∧
      h.armoire.savedSet = s.hub.time.calSet ∧ h.armoire.savedPoh = s.hub.time.poh ∧ h.time = s.hub.time))

/-- SPDM 1.2 over the sideband and the DOE of each host port; message codes and order are DSP0274's (log entry 34). -/
def Obligations.SpdmAnswers : Prop :=
  ∀ (t : Fin 3) (s : State), spdmUp t s.hub = true →
    let told (code : Nat) (payload : List Byte) (h : Hub) : Prop := sent (.spdm t code payload) s.hub h
    let refused (e : Nat) (h : Hub) : Prop := told 0x7F (bytesLE 1 e ++ [0]) h ∧ regBit secPage 0x18 17 h = true
    HubAnswers (.getVersion t) s (fun h => told 0x04 [0, 1, 0, 0x12] h ∧ t.val ∈ h.sec.versionDone) ∧
    (t.val ∉ s.hub.sec.versionDone → HubAnswers (.getCapabilities t) s (refused 0x04) ∧ HubAnswers (.negotiateAlgorithms t) s (refused 0x04)) ∧
    (t.val ∈ s.hub.sec.versionDone →
      HubAnswers (.getCapabilities t) s (fun h => told 0x61 (bytesLE 4 0x62D6) h ∧ h.sec = s.hub.sec) ∧
      HubAnswers (.negotiateAlgorithms t) s (fun h => told 0x63 (bytesLE 4 0x80 ++ bytesLE 4 2 ++ bytesLE 4 4 ++ bytesLE 2 0x10 ++ bytesLE 2 2) h ∧
        t.val ∈ h.sec.algsDone)) ∧
    (t.val ∉ s.hub.sec.algsDone → HubAnswers (.getDigests t) s (refused 0x04)) ∧
    (t.val ∈ s.hub.sec.algsDone →
      let chain := s.hub.armoire.chain
      HubAnswers (.getDigests t) s (told 0x01 (1 :: Config.sha384 chain)) ∧
      (∀ off len : Nat, off ≤ chain.length → let n := min len (chain.length - off)
        HubAnswers (.getCertificate t 0 off len) s (told 0x02 (bytesLE 1 0 ++ bytesLE 2 n ++ bytesLE 2 (chain.length - off - n) ++ sliceBytes chain off n))) ∧
      (∀ nonce : List Byte, HubAnswers (.challenge t 0 nonce) s
        (told 0x03 (Config.sha384 chain ++ Config.ecdsaSign (nonce ++ Config.sha384 chain))) ∧
        ∀ slot : Nat, slot ≠ 0 → HubAnswers (.challenge t slot nonce) s (refused 0x01)) ∧
      (∀ (i : Nat) (nonce : List Byte), 1 ≤ i → i ≤ 7 → let b := measurementBlock i s.hub
        HubAnswers (.getMeasurements t i false nonce) s (told 0x60 b) ∧
        HubAnswers (.getMeasurements t i true nonce) s (told 0x60 (b ++ Config.ecdsaSign (nonce ++ b)))) ∧
      (∀ nonce : List Byte, let id := s.hub.sec.nextSession
        (s.hub.sec.sessions.length < 4 → HubAnswers (.keyExchange t 0 nonce) s (fun h => told 0x64 (bytesLE 2 id ++ Config.ecdsaSign nonce) h ∧
          h.sec.sessions = s.hub.sec.sessions ++ [⟨id, t, false⟩])) ∧
        (4 ≤ s.hub.sec.sessions.length → HubAnswers (.keyExchange t 0 nonce) s (fun h => refused 0x0A h ∧ h.sec = s.hub.sec ∧
          regBit secPage 0x18 18 h = true))) ∧
      (∀ id : Nat, s.hub.sec.sessions = [] → HubAnswers (.heartbeat t id) s (refused 0x01)) ∧
      (∀ id : Nat, s.hub.sec.sessions = [⟨id, t, false⟩] →
        HubAnswers (.finish t id) s (fun h => told 0x65 [] h ∧ h.sec.sessions = [⟨id, t, true⟩]) ∧ HubAnswers (.heartbeat t id) s (refused 0x04)) ∧
      (∀ id : Nat, s.hub.sec.sessions = [⟨id, t, true⟩] →
        HubAnswers (.heartbeat t id) s (fun h => told 0x68 [] h ∧ h.sec = s.hub.sec) ∧
        HubAnswers (.keyUpdate t id) s (fun h => told 0x69 [] h ∧ h.sec = s.hub.sec) ∧
        HubAnswers (.endSession t id) s (fun h => told 0x6C [] h ∧ h.sec.sessions = []) ∧
        (∀ p : Fin 2, (t.val = p.val + 1 → HubAnswers (.vendorDefinedRequest t id true p) s (fun h => told 0x7E [] h ∧ (getCxl p h).ide = true)) ∧
          (t.val ≠ p.val + 1 → HubAnswers (.vendorDefinedRequest t id true p) s (fun h => refused 0x01 h ∧ getCxl p h = getCxl p s.hub)) ∧
          HubAnswers (.vendorDefinedRequest t id false p) s (refused 0x07))))

/-- Twinset frames and timeouts. -/
def Obligations.PairFramesAct : Prop :=
  ∀ (p : Fin 28) (s : State), let tw := s.hub.twin
    let broken (cause : Nat) (h : Hub) : Prop := h.twin.st = .broken ∧ h.twin.cause = cause ∧ h.ras.fence = .fatal ∧
      (s.hub.ras.fence = .serving → h.ras.cause = 6) ∧ regBit twinPage 0x18 16 h = true ∧ regBit 0 0x50 31 h = false
    let declined (cause : Nat) (h : Hub) : Prop := h.twin.st = .refused ∧ h.twin.cause = cause ∧ regBit twinPage 0x18 17 h = true ∧
      regBit 0 0x50 31 h = false
    (onBridge p s.hub = true →
      (∀ (fs : List Nat) (serial time : Nat), tw.st = .syncing →
        (helloEqual fs s.hub = true → Answers (.twinHello p fs serial [] time) s (fun u => u.pending = s.pending ∧
          u.hub.twin.st = .joined ∧ u.hub.twin.partnerSerial = serial ∧ regBit 0 0x50 31 u.hub = true ∧ regBit twinPage 0x50 0 u.hub = true ∧
          u.hub.devTime = if tw.role = 1 then time % 2 ^ 64 else s.hub.devTime)) ∧
        (helloEqual fs s.hub = false → Answers (.twinHello p fs serial [] time) s (fun u => declined 6 u.hub))) ∧
      (tw.st = .joined →
        (∀ (phase : Nat), tw.inPairWarm = false → phase ∈ [4, 5, 6] → HubAnswers (.twinHeartbeat p phase 0 3) s (fun h => SameMemory s.hub h ∧
          h.twin = { tw with hbAt := s.hub.clock, partnerPhase := phase, partnerFence := 0, partnerState := 3 })) ∧
        (∀ (phase st : Nat), HubAnswers (.twinHeartbeat p phase 2 st) s (broken 3)) ∧
        (∀ v addr : Nat, v < 4 → Answers (.twinReg p 1 0x48 4 v addr) s (fun u => u.holes = s.holes ∧ regFld 1 0x48 1 0 u.hub = v ∧
          SameMemory s.hub u.hub)) ∧
        (∀ data : List Nat, s.hub.ras.fence = .serving → HubAnswers (.twinCtrl p 0 data) s (fun h => h.ras.fence = .fenced ∧ h.ras.cause = 1)) ∧
        (∀ data : List Nat, s.hub.ras.fence = .fenced → HubAnswers (.twinCtrl p 1 data) s (fun h => h.ras.fence = .serving ∧ h.ras.cause = 0)) ∧
        (∀ data : List Nat, s.hub.boot.phase = .ready → s.hub.ras.fence ≠ .fatal →
          HubAnswers (.twinCtrl p 2 data) s (fun h => h.boot.phase = .quiescing ∧ h.boot.warm = true ∧ h.twin.inPairWarm = true)) ∧
        (∀ data : List Nat, HubAnswers (.twinCtrl p 3 data) s (broken 3)) ∧
        (∀ k cause : Nat, (getAgent k s.hub).st = .active → HubAnswers (.twinCtrl p 4 [k, cause]) s (fun h => (getAgent k h).st = .lost)) ∧
        (∀ i w0 w1 : Nat, w1 % 4 = 2 → HubAnswers (.twinCtrl p 5 [i, w0, w1]) s (fun h => SameMemory s.hub h ∧
          Tab.getD h.coh.leases i {} = leaseOf w0 w1 s.hub.devTime)))) ∧
    (tw.en = true → HubAnswers .twinHeartbeatSend s (fun h => SameMemory s.hub h ∧
      ∀ q ∈ readyBridges s.hub, sent (.bridge q 0x61 [phaseCode s.hub.boot.phase, fenceCode s.hub.ras.fence, twinCode tw.st]) s.hub h)) ∧
    (tw.st = .linking → tw.since + 10000000000 ≤ s.hub.clock → HubAnswers .twinLinkingTimeout s (declined 7)) ∧
    (tw.st = .syncing → tw.since + 100000000 ≤ s.hub.clock → HubAnswers .twinSyncingTimeout s (declined 7)) ∧
    (tw.st = .joined → tw.inPairWarm = false → tw.hbAt + hbNs s.hub ≤ s.hub.clock → HubAnswers .twinHeartbeatTimeout s (broken 2))

/-- The queue of waiting commands over every command and over every step. -/
def Obligations.CommandsRunInOrder : Prop :=
  (∀ (c : Instr) (s t : State), exec c s = .next t → t.pending = s.pending) ∧
  (∀ s t : State, step s = .next t → t.pending = s.pending.drop 1)

/-- R182, for every request that is a store or an atomic and waits for nothing. -/
def Obligations.StoresAllocateFreeTiles : Prop :=
  ∀ (p : Fin 28) (f : Frame) (off : Nat) (s : State), let t := tileOf off
    (getTile t s.hub).st = .free → s.hub.coh.filter = [] → usedOf 0 s.hub < ceilingOf 0 s.hub → 0 < slotsFree s.hub →
    (∀ a, tileOf a = t → memGet s.hub.mem a = 0) →
    let made (owner : Nat) (bs : List Byte) (h : Hub) : Prop := let v := getTile t h
      v.st = .upper ∧ v.sealed = 0 ∧ v.cls = 0 ∧ v.format = 0 ∧ v.owner = owner ∧
      ∀ a, tileOf a = t → memGet h.mem a = if off ≤ a ∧ a < off + bs.length then bs.getD (a - off) 0 else 0
    let n := if f.aux.testBit 8 then 8 else 4
    let x := f.operand0 % 2 ^ (8 * n)
    (meetsStore p (asOp 2 f) off s = true → HubAnswers (.write p f) s (made f.tenant f.payload)) ∧
    (meetsStore p (asOp 3 f) off s = true → HubAnswers (.writePosted p f) s (made f.tenant f.payload)) ∧
    (∀ (op new : Nat) (c : Instr), (op, new, c) ∈ [(1, x, .atomicAdd p f), (2, 0, .atomicAnd p f), (3, x, .atomicOr p f), (4, x, .atomicXor p f),
        (5, x, .atomicSwap p f), (6, if x = 0 then f.operand1 % 2 ^ (8 * n) else 0, .atomicCas p f), (7, if sextNat (8 * n) x < 0 then x else 0, .atomicSmin p f),
        (8, if 0 < sextNat (8 * n) x then x else 0, .atomicSmax p f), (9, 0, .atomicUmin p f), (10, x, .atomicUmax p f),
        (16, fadd32 0 x, .atomicFadd32 p f)] →
      meetsStore p (asAux op (asOp 4 f)) off s = true → anyPoison off n s.hub = false → HubAnswers c s (made f.tenant (bytesLE n new))) ∧
    (∀ (q : Fin 2) (ld : Fin 16) (hpa tag i dpa : Nat) (data : List Byte), meetsCxl q ld hpa true i off dpa s = true → data.length = 64 →
      HubAnswers (.memwr q ld hpa tag data false) s (made 0 data))
end

