-- ==== Sys2Proof/Laws/Moves.lean ====
section
/-!
SUPPORT. What errors, counters, signals and frames on their way out do to registers and ports: registers other than error
bits, first-error captures and counters keep their values, error bits that are set stay set, and a port keeps all but what
its link counts. Proved once for every relation that the smallest changes meet.
-/
namespace Sys2Proof.Laws

open Machine

/-- The link's own counts of a port may change, nothing else of it. -/
def LinkOnly (a b : Port) : Prop :=
  b = { a with txSeq := b.txSeq, credits := b.credits, replay := b.replay, tc7Bytes := b.tc7Bytes, tc7Window := b.tc7Window,
               deficit := b.deficit, rrNext := b.rrNext }

/-- A relation between hubs that the smallest changes of the switch core, signals and counters meet. -/
structure Moves (R : Hub → Hub → Prop) : Prop where
  refl : ∀ h, R h h
  trans : ∀ {a b c}, R a b → R b c → R a c
  slot : ∀ p s v h, s < 256 → R h (putReg p (0x800 + 8 * s) v h)
  err : ∀ p b h, R h (putReg p 0x18 (putBit (getReg p 0x18 h) b true) h)
  first : ∀ p v h, R h (putReg p 0x20 v h)
  port : ∀ p v h, LinkOnly (getPort p h) v → R h (putPort p v h)
  emit : ∀ o h, R h (emit o h)
  kib : ∀ k h, R h { h with kibSpare := k }
  mirror : ∀ m h, R h { h with mirror := m }
  egress : ∀ e h, R h { h with egress := e }
  armoire : ∀ a h, R h { h with armoire := a }
  spent : ∀ h, R h { h with ras := { h.ras with injection := none } }

variable {R : Hub → Hub → Prop}

theorem Moves.ite (_m : Moves R) {a b c : Hub} {p : Prop} [Decidable p] (x : R a b) (y : R a c) : R a (if p then b else c) := by
  split <;> assumption

theorem armoireAppend_moves (m : Moves R) (k : Nat) (d : List Byte) (h : Hub) : R h (armoireAppend k d h) := by
  unfold armoireAppend
  dsimp only
  generalize hn : (if h.armoire.logSecond = h.clock / 1000000000 then h.armoire.logInSecond else 0) = n
  split
  · exact m.slot 0x310 3 _ h (by norm_num)
  · exact m.trans (m.armoire _ h) (m.slot 0x310 2 _ _ (by norm_num))

theorem signalMsix_moves (m : Moves R) (p : Nat) (h : Hub) : R h (signalMsix p h) := by
  unfold signalMsix
  exact m.ite (m.emit _ h) (m.refl h)

theorem captureFirst_moves (m : Moves R) (p b : Nat) (h : Hub) : R h (captureFirst p b h) := by
  unfold captureFirst
  exact m.ite (m.first _ _ h) (m.first _ _ h)

theorem setErrBit_moves (m : Moves R) (p b : Nat) (h : Hub) : R h (setErrBit p b h) := by
  unfold setErrBit
  exact m.ite (m.err _ _ h) (m.trans (m.err _ _ h) (captureFirst_moves m _ _ _))

theorem raiseQuiet_moves (m : Moves R) (p b : Nat) (h : Hub) : R h (raiseQuiet p b h) := by
  unfold raiseQuiet
  exact m.ite (m.trans (setErrBit_moves m _ _ h) (signalMsix_moves m _ _)) (setErrBit_moves m _ _ h)

theorem count_moves (m : Moves R) (p s n : Nat) (h : Hub) (k : s < 256) : R h (count p s n h) := by
  unfold count
  split
  · exact m.refl h
  · dsimp only
    split
    · exact m.ite (m.refl h) (m.slot _ _ _ h k)
    · split
      · exact m.ite (m.trans (m.slot _ _ _ h k) (m.trans (raiseQuiet_moves m _ _ _) (armoireAppend_moves m _ _ _))) (m.slot _ _ _ h k)
      · exact m.refl h

theorem countKib_moves (m : Moves R) (p s n : Nat) (h : Hub) (k : s < 256) : R h (countKib p s n h) :=
  m.trans (m.kib _ h) (count_moves m _ _ _ _ k)

theorem mirrorPoint_moves (m : Moves R) (sp : Nat) (e c : Bool) (d : DropCause) (f : Frame) (h : Hub) :
    R h (mirrorPoint sp e c d f h) := by
  unfold mirrorPoint
  split
  · exact m.refl h
  · dsimp only
    split
    · exact m.mirror _ h
    · split <;> split <;> exact m.trans (m.mirror _ h) (count_moves m _ _ _ _ (by norm_num))

theorem dropFrame_moves (m : Moves R) (sp : Nat) (e : Bool) (d : DropCause) (f : Frame) (h : Hub) : R h (dropFrame sp e d f h) :=
  mirrorPoint_moves m _ _ _ _ _ _

theorem sendHead_moves (m : Moves R) (p c : Nat) (h : Hub) : R h (sendHead p c h) := by
  unfold sendHead
  split
  · exact m.refl h
  · dsimp only
    refine m.trans ?_ (mirrorPoint_moves m _ _ _ _ _ _)
    rename_i q _
    generalize e : Machine.emit _ (putPort p _ (admitWaiting { h with egress := removeFirst p c h.egress })) = x
    have k : R h x := by
      rw [← e]
      refine m.trans (m.trans (m.egress _ h) (m.port p _ _ ?_)) (m.emit _ _)
      rfl
    have y := m.trans k (m.trans (count_moves m (0x10 + p) 1 1 x (by norm_num)) (countKib_moves m (0x10 + p) 3 (frameBytes q.frame) _ (by norm_num)))
    exact m.ite (m.trans y (m.trans (count_moves m _ _ _ _ (by norm_num)) (countKib_moves m _ _ _ _ (by norm_num)))) y

theorem drainPort_moves (m : Moves R) (p n : Nat) (h : Hub) : R h (drainPort p n h) := by
  induction n generalizing h with
  | zero => exact m.refl h
  | succ n ih =>
    unfold drainPort
    split
    · exact m.refl h
    · split
      · exact m.trans (sendHead_moves m _ _ _) (ih _)
      · dsimp only
        split
        · exact m.refl h
        · refine m.trans (m.trans (m.port _ _ h ?_) (sendHead_moves m _ _ _)) (ih _)
          rfl

theorem injectFrame_moves (m : Moves R) {rz : Nat → Nat → Hub → Hub} (z : ∀ p b h, R h (rz p b h)) (f : Frame) (h : Hub) :
    R h (injectFrame rz f h).2 := by
  unfold injectFrame
  split
  · dsimp only
    have a := m.trans (m.trans (m.spent h) (count_moves m 0x300 3 1 _ (by norm_num))) (m.err 0x40 2 _)
    split
    · exact m.trans a (z _ _ _)
    · exact m.trans (m.trans a (z _ _ _)) (count_moves m 0x40 5 1 _ (by norm_num))
  · exact m.refl h

theorem enqueue_moves (m : Moves R) {rz : Nat → Nat → Hub → Hub} (z : ∀ p b h, R h (rz p b h)) (i p : Nat) (f : Frame) (h : Hub) :
    R h (enqueue rz i p f h) := by
  unfold enqueue
  split
  · exact m.trans (dropFrame_moves m _ _ _ _ h) (count_moves m _ _ _ _ (by norm_num))
  · dsimp only
    generalize (if regFld 0x348 0x104 5 0 h = 0 then 63 else regFld 0x348 0x104 5 0 h) = lim
    split
    · exact m.trans (dropFrame_moves m _ _ _ _ h) (m.trans (count_moves m _ _ _ _ (by norm_num)) (z _ _ _))
    · have y := injectFrame_moves m z f h
      split
      · rename_i h0 e
        rw [e] at y
        exact m.trans y (dropFrame_moves m _ _ _ _ _)
      · rename_i f0 h0 e
        rw [e] at y
        refine m.trans y (m.trans ?_ (drainPort_moves m _ _ _))
        have k (q : QFrame) (w : Bool) : R h0
            (count 0x40 0 1 (if w then count 0x40 2 1 { h0 with egress := h0.egress ++ [q] } else { h0 with egress := h0.egress ++ [q] })) := by
          refine m.trans ?_ (count_moves m _ _ _ _ (by norm_num))
          exact m.ite (m.trans (m.egress _ h0) (count_moves m _ _ _ _ (by norm_num))) (m.egress _ h0)
        exact m.ite (m.trans (k _ _) (count_moves m _ _ _ _ (by norm_num))) (k _ _)

theorem sendRing_moves (m : Moves R) {rz : Nat → Nat → Hub → Hub} (z : ∀ p b h, R h (rz p b h)) (i : Nat) (e : Bool) (f : Frame) (h : Hub) :
    R h (sendRing rz i e f h) := by
  have lost : R h (rz 0x348 23 (count 0x348 18 1 (dropFrame i false .noRoute f h))) :=
    m.trans (dropFrame_moves m _ _ _ _ h) (m.trans (count_moves m _ _ _ _ (by norm_num)) (z _ _ _))
  unfold sendRing
  split
  · refine m.trans ?_ (enqueue_moves m z _ _ _ _)
    refine m.trans ?_ (count_moves m _ _ _ _ (by norm_num))
    exact m.ite (count_moves m _ _ _ _ (by norm_num)) (m.refl h)
  · split
    · split
      · exact m.trans (m.trans (count_moves m _ _ _ h (by norm_num)) (count_moves m _ _ _ _ (by norm_num))) (enqueue_moves m z _ _ _ _)
      · exact lost
    · exact lost

theorem sendBridge_moves (m : Moves R) {rz : Nat → Nat → Hub → Hub} (z : ∀ p b h, R h (rz p b h)) (f : Frame) (h : Hub) :
    R h (sendBridge rz f h) := by
  unfold sendBridge
  split
  · exact enqueue_moves m z _ _ _ _
  · exact dropFrame_moves m _ _ _ _ _

theorem sendOut_moves (m : Moves R) {rz : Nat → Nat → Hub → Hub} (z : ∀ p b h, R h (rz p b h)) (f : Frame) (h : Hub) :
    R h (sendOut rz f h) := by
  have lost : R h (rz 0x348 23 (count 0x348 18 1 (dropFrame 31 false .noRoute f h))) :=
    m.trans (dropFrame_moves m _ _ _ _ h) (m.trans (count_moves m _ _ _ _ (by norm_num)) (z _ _ _))
  unfold sendOut
  split
  · exact dropFrame_moves m _ _ _ _ _
  · split
    · split
      · exact enqueue_moves m z _ _ _ _
      · exact m.ite (sendBridge_moves m z _ _) lost
    · split
      · exact dropFrame_moves m _ _ _ _ _
      · split
        · exact sendRing_moves m z _ _ _ _
        · exact enqueue_moves m z _ _ _ _
        · exact dropFrame_moves m _ _ _ _ _
        · exact lost

theorem signalPage_moves (m : Moves R) (p : Nat) (h : Hub) : R h (signalPage p h) := by
  unfold signalPage
  exact m.ite (m.trans (signalMsix_moves m _ h) (sendOut_moves m (raiseQuiet_moves m) _ _)) (signalMsix_moves m _ h)

theorem withSignal_moves (m : Moves R) (p : Nat) {f : Hub → Hub} {h : Hub} (k : R h (f h)) : R h (withSignal p f h) := by
  unfold withSignal
  exact m.ite (m.trans k (signalPage_moves m _ _)) k

theorem raise_moves (m : Moves R) (p b : Nat) (h : Hub) : R h (raise p b h) := withSignal_moves m p (setErrBit_moves m p b h)

theorem raiseInjected_moves (m : Moves R) (p b : Nat) (h : Hub) : R h (raiseInjected p b h) :=
  withSignal_moves m p (f := fun x => putReg p 0x18 (putBit (getReg p 0x18 (setErrBit p b x)) 2 true) (setErrBit p b x))
    (m.trans (setErrBit_moves m p b h) (m.err p 2 _))

theorem sendFrame_moves (m : Moves R) (f : Frame) (h : Hub) : R h (sendFrame f h) := sendOut_moves m (raise_moves m) f h

/-! ### What stays -/

/-- A register that holds no error bits, no first-error capture and no counter. -/
def plainReg (off : Nat) : Prop := off < 0x800 ∧ off ≠ 0x18 ∧ off ≠ 0x20

/-- Plain registers and ports stay, and error bits stay set. -/
structure Steady (a b : Hub) : Prop where
  reg : ∀ page off, plainReg off → getReg page off b = getReg page off a
  err : ∀ page i, regBit page 0x18 i a = true → regBit page 0x18 i b = true
  port : ∀ p, LinkOnly (getPort p a) (getPort p b)

theorem tab_get_set {α : Type} (t : Tab α) (k j : Nat) (a : α) :
    Tab.get? (Tab.set t k a) j = if k = j then some a else Tab.get? t j := by
  induction t with
  | nil => simp [Tab.set, Tab.get?]
  | cons c u ih =>
    obtain ⟨i, b⟩ := c
    unfold Tab.set
    by_cases e : i = k
    · subst e
      by_cases f : i = j <;> simp [Tab.get?, f]
    · by_cases lt : k < i
      · simp only [e, lt, if_false, if_true]
        by_cases f : k = j <;> simp [Tab.get?, f]
      · simp only [e, lt, if_false]
        by_cases f : i = j
        · subst f
          simp [Tab.get?, Ne.symm e]
        · by_cases g : k = j
          · subst g; simp [Tab.get?, f, ih]
          · simp [Tab.get?, f, g, ih]

theorem getReg_putReg (page off p o : Nat) (v : Word) (h : Hub) :
    getReg page off (putReg p o v h) = if regKey p o = regKey page off then v else getReg page off h := by
  simp only [getReg, putReg, Tab.getD, tab_get_set]
  split <;> rfl

theorem getPort_putPort (p q : Nat) (v : Port) (h : Hub) :
    getPort p (putPort q v h) = if q = p then v else getPort p h := by
  simp only [getPort, putPort, Tab.getD, tab_get_set]
  split <;> rfl

theorem regKey_inj {p o page off : Nat} (h1 : o < 0x1000) (h2 : off < 0x1000) (h : regKey p o = regKey page off) :
    p = page ∧ o = off := by
  unfold regKey at h
  omega

theorem bit_set (w : Word) (i b : Nat) (h : bitOf w i = true) : bitOf (putBit w b true) i = true := by
  unfold bitOf putBit putFld at *
  rw [BitVec.testBit_toNat] at *
  have e1 : b + 1 - b = 1 := by omega
  have lt : i < 64 := by
    by_contra n
    rw [BitVec.getLsbD_of_ge _ _ (by omega)] at h
    exact absurd h (by simp)
  rw [BitVec.getLsbD_or]
  by_cases e : i = b
  · subst e
    simp only [bit01, mkFld, e1, w64, BitVec.getLsbD_ofNat, lt, if_true]
    simp
  · rw [BitVec.getLsbD_and, h, BitVec.getLsbD_not]
    simp only [maskOf, e1, w64, BitVec.getLsbD_ofNat, lt]
    have : Nat.testBit ((2 ^ 1 - 1) <<< b) i = false := by
      rw [show (2 ^ 1 - 1 : Nat) = 1 from rfl, Nat.testBit_shiftLeft]
      by_cases g : b ≤ i
      · obtain ⟨k, hk⟩ : ∃ k, i - b = k + 1 := ⟨i - b - 1, by omega⟩
        simp [hk, Nat.testBit_succ]
      · simp [g]
    rw [this]
    simp

theorem LinkOnly.rfl' (a : Port) : LinkOnly a a := rfl

theorem linkOnly_trans {a b c : Port} (x : LinkOnly a b) (y : LinkOnly b c) : LinkOnly a c := by
  unfold LinkOnly at *
  rw [x] at y
  exact y

theorem steady_regs {a b : Hub} (p o : Nat) (v : Word) (ho : ¬ plainReg o) (lt : o < 0x1000) (k : b = putReg p o v a)
    (e : o = 0x18 → ∀ i, bitOf (getReg p 0x18 a) i = true → bitOf v i = true) : Steady a b := by
  subst k
  refine ⟨?_, ?_, fun q => rfl⟩
  · intro page off pl
    rw [getReg_putReg]
    split
    · rename_i h
      obtain ⟨h0, rfl⟩ := regKey_inj lt (by have := pl.1; omega) h
      exact absurd pl ho
    · rfl
  · intro page i hb
    unfold regBit at *
    rw [getReg_putReg]
    split
    · rename_i h
      obtain ⟨rfl, rfl⟩ := regKey_inj lt (by norm_num) h
      exact e rfl i hb
    · exact hb

theorem steady_moves : Moves Steady where
  refl h := ⟨fun _ _ _ => rfl, fun _ _ k => k, fun _ => rfl⟩
  trans x y := ⟨fun p o k => (y.reg p o k).trans (x.reg p o k), fun p i k => y.err p i (x.err p i k),
    fun p => linkOnly_trans (x.port p) (y.port p)⟩
  slot p s v h k := steady_regs p (0x800 + 8 * s) v (by unfold plainReg; omega) (by omega) rfl (by omega)
  err p b h := steady_regs p 0x18 _ (by unfold plainReg; omega) (by norm_num) rfl (fun _ i k => bit_set _ i b k)
  first p v h := steady_regs p 0x20 v (by unfold plainReg; omega) (by norm_num) rfl (by omega)
  port p v h k := ⟨fun _ _ _ => rfl, fun _ _ k => k, fun q => by
    rw [getPort_putPort]
    split
    · rename_i e; subst e; exact k
    · exact LinkOnly.rfl' _⟩
  emit o h := ⟨fun _ _ _ => rfl, fun _ _ k => k, fun _ => rfl⟩
  kib k h := ⟨fun _ _ _ => rfl, fun _ _ k => k, fun _ => rfl⟩
  mirror m h := ⟨fun _ _ _ => rfl, fun _ _ k => k, fun _ => rfl⟩
  egress e h := ⟨fun _ _ _ => rfl, fun _ _ k => k, fun _ => rfl⟩
  armoire a h := ⟨fun _ _ _ => rfl, fun _ _ k => k, fun _ => rfl⟩
  spent h := ⟨fun _ _ _ => rfl, fun _ _ k => k, fun _ => rfl⟩

theorem raise_steady (p b : Nat) (h : Hub) : Steady h (raise p b h) := raise_moves steady_moves p b h

theorem bit_put (w : Word) (b : Nat) (lt : b < 64) : bitOf (putBit w b true) b = true := by
  unfold bitOf putBit putFld
  have e1 : b + 1 - b = 1 := by omega
  rw [BitVec.testBit_toNat, BitVec.getLsbD_or]
  simp only [bit01, mkFld, e1, w64, BitVec.getLsbD_ofNat, lt, if_true]
  simp

/-- An error report sets its bit of ERR_STATUS. -/
theorem raise_sets (p b : Nat) (lt : b < 64) (h : Hub) : regBit p 0x18 b (raise p b h) = true := by
  have a : regBit p 0x18 b (setErrBit p b h) = true := by
    have k : regBit p 0x18 b (putReg p 0x18 (putBit (getReg p 0x18 h) b true) h) = true := by
      unfold regBit
      rw [getReg_putReg, if_pos rfl]
      exact bit_put _ b lt
    unfold setErrBit
    dsimp only
    split
    · exact k
    · exact (captureFirst_moves steady_moves p b _).err p b k
  unfold raise withSignal
  dsimp only
  split
  · exact (signalPage_moves steady_moves p _).err p b a
  · exact a

end Sys2Proof.Laws
end

