-- ==== Sys2Proof/Laws/Switch.lean ====
section
/-!
SUPPORT. What errors, counters, signals and frames on their way out can change: registers, kept remainders of KiB counters,
ports, the switch buffer, the mirror, the event log, what is sent, and a pending injection. Everything else stays.
-/
namespace Sys2Proof.Laws

open Machine

/-- h2 is h1 but for what the switch core, signals and counters own. -/
def SwitchOnly (h1 h2 : Hub) : Prop :=
  h2 = { h1 with regs := h2.regs, kibSpare := h2.kibSpare, ports := h2.ports, egress := h2.egress, mirror := h2.mirror,
                 armoire := h2.armoire, outs := h2.outs, ras := { h1.ras with injection := h2.ras.injection } }

/-- The claims' name for the same relation. -/
theorem reportsOnly_iff (h1 h2 : Hub) : Safety.ReportsOnly h1 h2 ↔ SwitchOnly h1 h2 := Iff.rfl

theorem SwitchOnly.refl (h : Hub) : SwitchOnly h h := rfl

theorem SwitchOnly.trans {a b c : Hub} (x : SwitchOnly a b) (y : SwitchOnly b c) : SwitchOnly a c := by
  unfold SwitchOnly at *
  rw [x] at y
  exact y

theorem SwitchOnly.ite {a b c : Hub} {p : Prop} [Decidable p] (x : SwitchOnly a b) (y : SwitchOnly a c) :
    SwitchOnly a (if p then b else c) := by
  split <;> assumption

theorem putReg_switch (p o : Nat) (v : Word) (h : Hub) : SwitchOnly h (putReg p o v h) := rfl
theorem putPort_switch (p : Nat) (v : Port) (h : Hub) : SwitchOnly h (putPort p v h) := rfl
theorem emit_switch (o : Out) (h : Hub) : SwitchOnly h (emit o h) := rfl

theorem armoireAppend_switch (k : Nat) (d : List Byte) (h : Hub) : SwitchOnly h (armoireAppend k d h) := by
  unfold armoireAppend
  exact SwitchOnly.ite (p := _ ≥ _) rfl rfl

theorem logEvent_switch (k : Nat) (d : List Byte) (h : Hub) : SwitchOnly h (logEvent k d h) := armoireAppend_switch k d h

theorem signalMsix_switch (p : Nat) (h : Hub) : SwitchOnly h (signalMsix p h) := by
  unfold signalMsix
  exact SwitchOnly.ite rfl rfl

theorem captureFirst_switch (p b : Nat) (h : Hub) : SwitchOnly h (captureFirst p b h) := by
  unfold captureFirst
  exact SwitchOnly.ite rfl rfl

theorem setErrBit_switch (p b : Nat) (h : Hub) : SwitchOnly h (setErrBit p b h) := by
  unfold setErrBit
  exact SwitchOnly.ite rfl (SwitchOnly.trans (putReg_switch _ _ _ h) (captureFirst_switch _ _ _))

theorem raiseQuiet_switch (p b : Nat) (h : Hub) : SwitchOnly h (raiseQuiet p b h) := by
  unfold raiseQuiet
  exact SwitchOnly.ite ((setErrBit_switch _ _ h).trans (signalMsix_switch _ _)) (setErrBit_switch _ _ h)

theorem count_switch (p s n : Nat) (h : Hub) : SwitchOnly h (count p s n h) := by
  unfold count
  split
  · rfl
  · split
    · exact SwitchOnly.ite rfl rfl
    · split
      · dsimp only
        exact SwitchOnly.ite ((putReg_switch _ _ _ h).trans ((raiseQuiet_switch _ _ _).trans (armoireAppend_switch _ _ _))) rfl
      · rfl

/-- The smallest changes of the switch core, signals and counters. -/
theorem switch_moves : Moves SwitchOnly where
  refl _ := rfl
  trans := SwitchOnly.trans
  slot _ _ _ _ _ := rfl
  err _ _ _ := rfl
  first _ _ _ := rfl
  port _ _ _ _ := rfl
  emit _ _ := rfl
  kib _ _ := rfl
  mirror _ _ := rfl
  egress _ _ := rfl
  armoire _ _ := rfl
  spent _ := rfl

/-- None of them leaves an injection pending where none was. -/
theorem uninjected_moves : Moves (fun a b : Hub => a.ras.injection = none → b.ras.injection = none) where
  refl _ := id
  trans x y := y ∘ x
  slot _ _ _ _ _ := id
  err _ _ _ := id
  first _ _ _ := id
  port _ _ _ _ := id
  emit _ _ := id
  kib _ _ := id
  mirror _ _ := id
  egress _ _ := id
  armoire _ _ := id
  spent _ _ := rfl

/-- An error report changes nothing but what the switch core, signals and counters own. -/
theorem raise_switch (p b : Nat) (h : Hub) : SwitchOnly h (raise p b h) := raise_moves switch_moves p b h

theorem raiseEvent_switch (p b : Nat) (h : Hub) : SwitchOnly h (raiseEvent p b h) := by
  unfold raiseEvent
  split
  · rfl
  · split
    · rfl
    · exact withSignal_moves switch_moves p (f := fun x => putReg p _ (putBit (getReg p _ x) b true) x) rfl

theorem raiseInjected_switch (p b : Nat) (h : Hub) : SwitchOnly h (raiseInjected p b h) := raiseInjected_moves switch_moves p b h

/-- A frame the module makes changes nothing but what the switch core, signals and counters own. -/
theorem sendFrame_switch (f : Frame) (h : Hub) : SwitchOnly h (sendFrame f h) := sendFrame_moves switch_moves f h

end Sys2Proof.Laws
end

