-- ==== Sys2Proof/Laws/Frame.lean ====
section
/-!
SUPPORT. The path of a Yumer frame (R251, R271 to R281): what a taken one comes to, at its unit or on its way to another module.
-/
namespace Sys2Proof.Laws

open Machine Safety

/-- The link's and the mirror's notes of a frame leave what the switch core and the units look at as it was. -/
structure SameGate (a b : Hub) : Prop where
  reg : ∀ page off, plainReg off → getReg page off b = getReg page off a
  boot : b.boot = a.boot
  twin : b.twin = a.twin
  fence : b.ras.fence = a.ras.fence
  quiet : a.ras.injection = none → b.ras.injection = none

theorem sameGate_of {a b : Hub} (s : Steady a b) (r : SwitchOnly a b) (q : a.ras.injection = none → b.ras.injection = none) :
    SameGate a b := by
  refine ⟨s.reg, ?_, ?_, ?_, q⟩ <;> rw [r]

theorem SameGate.trans {a b c : Hub} (x : SameGate a b) (y : SameGate b c) : SameGate a c :=
  ⟨fun p o k => (y.reg p o k).trans (x.reg p o k), y.boot.trans x.boot, y.twin.trans x.twin, y.fence.trans x.fence, y.quiet ∘ x.quiet⟩

theorem count_gate (p s n : Nat) (h : Hub) (k : s < 256) : SameGate h (count p s n h) :=
  sameGate_of (count_moves steady_moves p s n h k) (count_moves switch_moves p s n h k) (count_moves uninjected_moves p s n h k)

theorem countKib_gate (p s n : Nat) (h : Hub) (k : s < 256) : SameGate h (countKib p s n h) :=
  sameGate_of (countKib_moves steady_moves p s n h k) (countKib_moves switch_moves p s n h k) (countKib_moves uninjected_moves p s n h k)

theorem mirrorPoint_gate (p : Nat) (e c : Bool) (d : DropCause) (f : Frame) (h : Hub) : SameGate h (mirrorPoint p e c d f h) :=
  sameGate_of (mirrorPoint_moves steady_moves p e c d f h) (mirrorPoint_moves switch_moves p e c d f h)
    (mirrorPoint_moves uninjected_moves p e c d f h)

theorem putPort_gate (p : Nat) (o : Port) (h : Hub) : SameGate h (putPort p o h) :=
  ⟨fun _ _ _ => rfl, rfl, rfl, rfl, id⟩

theorem linkCount_gate (p : Nat) (f : Frame) (h : Hub) : SameGate h (linkCount p f h) := by
  unfold linkCount
  dsimp only
  have a := (putPort_gate p { getPort p h with granted := listSet (getPort p h).granted f.tc (nth (getPort p h).granted f.tc 0 - frameCells f) } h).trans
    ((count_gate (portPage p) 0 1 _ (by norm_num)).trans (countKib_gate (portPage p) 2 (frameBytes f) _ (by norm_num)))
  split
  · exact a.trans ((count_gate twinPage 1 1 _ (by norm_num)).trans (countKib_gate twinPage 3 (frameBytes f) _ (by norm_num)))
  · exact a

theorem seqCheck_gate (p n : Nat) (h : Hub) : SameGate h (seqCheck p n h).2 := by
  unfold seqCheck
  dsimp only
  split
  · exact putPort_gate p _ h
  · split
    · exact ⟨fun _ _ _ => rfl, rfl, rfl, rfl, id⟩
    · exact ⟨fun _ _ _ => rfl, rfl, rfl, rfl, id⟩

theorem frameNoted_gate (p : Nat) (f : Frame) (h : Hub) : SameGate h (frameNoted p f h) :=
  ((seqCheck_gate p f.seq h).trans (linkCount_gate p f _)).trans (mirrorPoint_gate p _ _ _ f _)

variable {a b : Hub}

theorem SameGate.moduleId (g : SameGate a b) : Machine.moduleId b = Machine.moduleId a := by
  unfold Machine.moduleId regFld
  rw [g.reg 0 0x50 (by unfold plainReg; norm_num)]

theorem SameGate.moduleValid (g : SameGate a b) : Machine.moduleValid b = Machine.moduleValid a := by
  unfold Machine.moduleValid regBit
  rw [g.reg 0 0x50 (by unfold plainReg; norm_num)]

theorem SameGate.bindMode (g : SameGate a b) (p : Nat) : Machine.bindMode p b = Machine.bindMode p a := by
  unfold Machine.bindMode regFld
  rw [g.reg (0x10 + p) 0x58 (by unfold plainReg; norm_num), g.twin]

theorem SameGate.bindOk (g : SameGate a b) (p : Nat) (f : Frame) : Machine.bindOk p f b = Machine.bindOk p f a := by
  unfold Machine.bindOk
  rw [g.bindMode, g.moduleId, g.reg (portPage p) 0x58 (by unfold plainReg; norm_num)]

theorem SameGate.levelRefused (g : SameGate a b) (p : Nat) (f : Frame) : Machine.levelRefused p f b = Machine.levelRefused p f a := by
  unfold Machine.levelRefused Machine.isAgentPort regFld
  rw [g.bindMode, g.moduleId, g.reg 0x348 0x100 (by unfold plainReg; norm_num)]

theorem SameGate.pairJoined (g : SameGate a b) : Machine.pairJoined b = Machine.pairJoined a := by
  unfold Machine.pairJoined
  rw [g.twin]

/-- A taken frame, of no link opcode, is for a unit of this module or goes on. -/
theorem frameRow_taken {p : Nat} {f : Frame} {s : State} (h : frameTaken p f s.hub = true)
    (hl : f.opcode ≠ 0x40 ∧ f.opcode ≠ 0x41 ∧ ¬(0x60 ≤ f.opcode ∧ f.opcode ≤ 0x6F)) (hp : Machine.pairJoined s.hub = false) :
    frameRow p f s = .next (if f.dstModule = Machine.moduleId s.hub then
        localArrive p (Machine.bindMode p s.hub == 2) f (onHub (frameNoted p f) s)
      else onHub (forwardFrame p f) (onHub (frameNoted p f) s)) := by
  simp only [frameTaken, Bool.and_eq_true, Bool.not_eq_true', beq_iff_eq, bne_iff_ne] at h
  obtain ⟨⟨⟨⟨⟨⟨⟨⟨⟨⟨h1, h2⟩, h3⟩, h4⟩, h5⟩, -⟩, h7⟩, h8⟩, h9⟩, h10⟩, h11⟩ := h
  have g : SameGate s.hub (linkCount p f (seqCheck p f.seq s.hub).2) := (seqCheck_gate p f.seq s.hub).trans (linkCount_gate p f _)
  have e : seqCheck p f.seq s.hub = (.take, (seqCheck p f.seq s.hub).2) := by
    unfold seqCheck
    simp [h3]
  have l1 : ¬(f.opcode = 0x40 ∨ f.opcode = 0x41 ∨ f.opcode = 0x60 ∨ f.opcode = 0x61) := by
    obtain ⟨x, y, z⟩ := hl
    omega
  unfold frameRow pairSyncS
  congr 1
  rw [show pairTell s.hub (rxFrame p f s).hub = (rxFrame p f s).hub from by simp [pairTell, hp]]
  change rxFrame p f s = _
  simp only [rxFrame, h1, h2, Bool.not_true, Bool.false_eq_true, if_false]
  rw [e]
  simp only [switched, h4, Bool.false_eq_true, if_false, l1, g.moduleValid, h5, Bool.not_true, hl.2.2, false_and, g.bindOk, h7,
    g.levelRefused, h8, admitted, g.fence, h9, g.boot, h10, g.moduleId, g.bindMode]
  have q := (frameNoted_gate p f s.hub).quiet h11
  unfold frameNoted at q
  simp [onHub, frameNoted, injectFrame, q]

/-- A taken frame for a unit of this module. -/
theorem frameRow_unit {p : Nat} {f : Frame} {u : Nat} {s : State} (h : meetsUnit p f u s = true)
    (hl : f.opcode ≠ 0x40 ∧ f.opcode ≠ 0x41 ∧ ¬(0x60 ≤ f.opcode ∧ f.opcode ≤ 0x6F)) :
    frameRow p f s = .next (localArrive p (Machine.bindMode p s.hub == 2) f (onHub (frameNoted p f) s)) := by
  simp only [meetsUnit, Bool.and_eq_true, Bool.not_eq_true', beq_iff_eq] at h
  obtain ⟨⟨⟨h1, h2⟩, -⟩, h4⟩ := h
  rw [frameRow_taken h1 hl h4, if_pos h2]

end Sys2Proof.Laws
end

