-- ==== Sys2Proof/Laws/State.lean ====
section
/-!
SUPPORT. One lemma per field per update: what reports, counters and sent frames leave as it was, and the plain updates of
one part of the hub.
-/
namespace Sys2Proof.Laws

open Machine

theorem SwitchOnly.free {a b : Hub} (k : SwitchOnly a b) : b.free = a.free := by rw [k]
theorem SwitchOnly.clock {a b : Hub} (k : SwitchOnly a b) : b.clock = a.clock := by rw [k]
theorem SwitchOnly.devTime {a b : Hub} (k : SwitchOnly a b) : b.devTime = a.devTime := by rw [k]
theorem SwitchOnly.pins {a b : Hub} (k : SwitchOnly a b) : b.pins = a.pins := by rw [k]
theorem SwitchOnly.boot {a b : Hub} (k : SwitchOnly a b) : b.boot = a.boot := by rw [k]
theorem SwitchOnly.pathA {a b : Hub} (k : SwitchOnly a b) : b.pathA = a.pathA := by rw [k]
theorem SwitchOnly.pathB {a b : Hub} (k : SwitchOnly a b) : b.pathB = a.pathB := by rw [k]
theorem SwitchOnly.routes {a b : Hub} (k : SwitchOnly a b) : b.routes = a.routes := by rw [k]
theorem SwitchOnly.time {a b : Hub} (k : SwitchOnly a b) : b.time = a.time := by rw [k]
theorem SwitchOnly.side {a b : Hub} (k : SwitchOnly a b) : b.side = a.side := by rw [k]
theorem SwitchOnly.fitting {a b : Hub} (k : SwitchOnly a b) : b.fitting = a.fitting := by rw [k]
theorem SwitchOnly.sec {a b : Hub} (k : SwitchOnly a b) : b.sec = a.sec := by rw [k]
theorem SwitchOnly.twin {a b : Hub} (k : SwitchOnly a b) : b.twin = a.twin := by rw [k]
theorem SwitchOnly.stu {a b : Hub} (k : SwitchOnly a b) : b.stu = a.stu := by rw [k]
theorem SwitchOnly.tier {a b : Hub} (k : SwitchOnly a b) : b.tier = a.tier := by rw [k]
theorem SwitchOnly.coh {a b : Hub} (k : SwitchOnly a b) : b.coh = a.coh := by rw [k]
theorem SwitchOnly.assemblies {a b : Hub} (k : SwitchOnly a b) : b.assemblies = a.assemblies := by rw [k]
theorem SwitchOnly.shapers {a b : Hub} (k : SwitchOnly a b) : b.shapers = a.shapers := by rw [k]
theorem SwitchOnly.nextReq {a b : Hub} (k : SwitchOnly a b) : b.nextReq = a.nextReq := by rw [k]
theorem SwitchOnly.nextTag {a b : Hub} (k : SwitchOnly a b) : b.nextTag = a.nextTag := by rw [k]
theorem SwitchOnly.outstanding {a b : Hub} (k : SwitchOnly a b) : b.outstanding = a.outstanding := by rw [k]
theorem SwitchOnly.deadTags {a b : Hub} (k : SwitchOnly a b) : b.deadTags = a.deadTags := by rw [k]
theorem SwitchOnly.relays {a b : Hub} (k : SwitchOnly a b) : b.relays = a.relays := by rw [k]
theorem SwitchOnly.mem {a b : Hub} (k : SwitchOnly a b) : b.mem = a.mem := by rw [k]
theorem SwitchOnly.poison {a b : Hub} (k : SwitchOnly a b) : b.poison = a.poison := by rw [k]
theorem SwitchOnly.cxl0 {a b : Hub} (k : SwitchOnly a b) : b.cxl0 = a.cxl0 := by rw [k]
theorem SwitchOnly.cxl1 {a b : Hub} (k : SwitchOnly a b) : b.cxl1 = a.cxl1 := by rw [k]
theorem SwitchOnly.cores {a b : Hub} (k : SwitchOnly a b) : b.cores = a.cores := by rw [k]
theorem SwitchOnly.bench {a b : Hub} (k : SwitchOnly a b) : b.bench = a.bench := by rw [k]
theorem SwitchOnly.cur {a b : Hub} (k : SwitchOnly a b) : b.cur = a.cur := by rw [k]
theorem SwitchOnly.cloak {a b : Hub} (k : SwitchOnly a b) : b.cloak = a.cloak := by rw [k]
theorem SwitchOnly.emb {a b : Hub} (k : SwitchOnly a b) : b.emb = a.emb := by rw [k]
theorem SwitchOnly.search {a b : Hub} (k : SwitchOnly a b) : b.search = a.search := by rw [k]
theorem SwitchOnly.pou {a b : Hub} (k : SwitchOnly a b) : b.pou = a.pou := by rw [k]
theorem SwitchOnly.meter {a b : Hub} (k : SwitchOnly a b) : b.meter = a.meter := by rw [k]
theorem SwitchOnly.fence {a b : Hub} (k : SwitchOnly a b) : b.ras.fence = a.ras.fence := by rw [k]
theorem SwitchOnly.cause {a b : Hub} (k : SwitchOnly a b) : b.ras.cause = a.ras.cause := by rw [k]

@[simp] theorem raise_free (p b : Nat) (h : Hub) : (raise p b h).free = h.free := (raise_switch p b h).free
@[simp] theorem raise_clock (p b : Nat) (h : Hub) : (raise p b h).clock = h.clock := (raise_switch p b h).clock
@[simp] theorem raise_devTime (p b : Nat) (h : Hub) : (raise p b h).devTime = h.devTime := (raise_switch p b h).devTime
@[simp] theorem raise_pins (p b : Nat) (h : Hub) : (raise p b h).pins = h.pins := (raise_switch p b h).pins
@[simp] theorem raise_boot (p b : Nat) (h : Hub) : (raise p b h).boot = h.boot := (raise_switch p b h).boot
@[simp] theorem raise_pathA (p b : Nat) (h : Hub) : (raise p b h).pathA = h.pathA := (raise_switch p b h).pathA
@[simp] theorem raise_pathB (p b : Nat) (h : Hub) : (raise p b h).pathB = h.pathB := (raise_switch p b h).pathB
@[simp] theorem raise_routes (p b : Nat) (h : Hub) : (raise p b h).routes = h.routes := (raise_switch p b h).routes
@[simp] theorem raise_time (p b : Nat) (h : Hub) : (raise p b h).time = h.time := (raise_switch p b h).time
@[simp] theorem raise_side (p b : Nat) (h : Hub) : (raise p b h).side = h.side := (raise_switch p b h).side
@[simp] theorem raise_fitting (p b : Nat) (h : Hub) : (raise p b h).fitting = h.fitting := (raise_switch p b h).fitting
@[simp] theorem raise_sec (p b : Nat) (h : Hub) : (raise p b h).sec = h.sec := (raise_switch p b h).sec
@[simp] theorem raise_twin (p b : Nat) (h : Hub) : (raise p b h).twin = h.twin := (raise_switch p b h).twin
@[simp] theorem raise_stu (p b : Nat) (h : Hub) : (raise p b h).stu = h.stu := (raise_switch p b h).stu
@[simp] theorem raise_tier (p b : Nat) (h : Hub) : (raise p b h).tier = h.tier := (raise_switch p b h).tier
@[simp] theorem raise_coh (p b : Nat) (h : Hub) : (raise p b h).coh = h.coh := (raise_switch p b h).coh
@[simp] theorem raise_assemblies (p b : Nat) (h : Hub) : (raise p b h).assemblies = h.assemblies := (raise_switch p b h).assemblies
@[simp] theorem raise_shapers (p b : Nat) (h : Hub) : (raise p b h).shapers = h.shapers := (raise_switch p b h).shapers
@[simp] theorem raise_nextReq (p b : Nat) (h : Hub) : (raise p b h).nextReq = h.nextReq := (raise_switch p b h).nextReq
@[simp] theorem raise_nextTag (p b : Nat) (h : Hub) : (raise p b h).nextTag = h.nextTag := (raise_switch p b h).nextTag
@[simp] theorem raise_outstanding (p b : Nat) (h : Hub) : (raise p b h).outstanding = h.outstanding := (raise_switch p b h).outstanding
@[simp] theorem raise_deadTags (p b : Nat) (h : Hub) : (raise p b h).deadTags = h.deadTags := (raise_switch p b h).deadTags
@[simp] theorem raise_relays (p b : Nat) (h : Hub) : (raise p b h).relays = h.relays := (raise_switch p b h).relays
@[simp] theorem raise_mem (p b : Nat) (h : Hub) : (raise p b h).mem = h.mem := (raise_switch p b h).mem
@[simp] theorem raise_poison (p b : Nat) (h : Hub) : (raise p b h).poison = h.poison := (raise_switch p b h).poison
@[simp] theorem raise_cxl0 (p b : Nat) (h : Hub) : (raise p b h).cxl0 = h.cxl0 := (raise_switch p b h).cxl0
@[simp] theorem raise_cxl1 (p b : Nat) (h : Hub) : (raise p b h).cxl1 = h.cxl1 := (raise_switch p b h).cxl1
@[simp] theorem raise_cores (p b : Nat) (h : Hub) : (raise p b h).cores = h.cores := (raise_switch p b h).cores
@[simp] theorem raise_bench (p b : Nat) (h : Hub) : (raise p b h).bench = h.bench := (raise_switch p b h).bench
@[simp] theorem raise_cur (p b : Nat) (h : Hub) : (raise p b h).cur = h.cur := (raise_switch p b h).cur
@[simp] theorem raise_cloak (p b : Nat) (h : Hub) : (raise p b h).cloak = h.cloak := (raise_switch p b h).cloak
@[simp] theorem raise_emb (p b : Nat) (h : Hub) : (raise p b h).emb = h.emb := (raise_switch p b h).emb
@[simp] theorem raise_search (p b : Nat) (h : Hub) : (raise p b h).search = h.search := (raise_switch p b h).search
@[simp] theorem raise_pou (p b : Nat) (h : Hub) : (raise p b h).pou = h.pou := (raise_switch p b h).pou
@[simp] theorem raise_meter (p b : Nat) (h : Hub) : (raise p b h).meter = h.meter := (raise_switch p b h).meter
@[simp] theorem raise_fence (p b : Nat) (h : Hub) : (raise p b h).ras.fence = h.ras.fence := (raise_switch p b h).fence
@[simp] theorem raiseEvent_free (p b : Nat) (h : Hub) : (raiseEvent p b h).free = h.free := (raiseEvent_switch p b h).free
@[simp] theorem raiseEvent_clock (p b : Nat) (h : Hub) : (raiseEvent p b h).clock = h.clock := (raiseEvent_switch p b h).clock
@[simp] theorem raiseEvent_devTime (p b : Nat) (h : Hub) : (raiseEvent p b h).devTime = h.devTime := (raiseEvent_switch p b h).devTime
@[simp] theorem raiseEvent_pins (p b : Nat) (h : Hub) : (raiseEvent p b h).pins = h.pins := (raiseEvent_switch p b h).pins
@[simp] theorem raiseEvent_boot (p b : Nat) (h : Hub) : (raiseEvent p b h).boot = h.boot := (raiseEvent_switch p b h).boot
@[simp] theorem raiseEvent_pathA (p b : Nat) (h : Hub) : (raiseEvent p b h).pathA = h.pathA := (raiseEvent_switch p b h).pathA
@[simp] theorem raiseEvent_pathB (p b : Nat) (h : Hub) : (raiseEvent p b h).pathB = h.pathB := (raiseEvent_switch p b h).pathB
@[simp] theorem raiseEvent_routes (p b : Nat) (h : Hub) : (raiseEvent p b h).routes = h.routes := (raiseEvent_switch p b h).routes
@[simp] theorem raiseEvent_time (p b : Nat) (h : Hub) : (raiseEvent p b h).time = h.time := (raiseEvent_switch p b h).time
@[simp] theorem raiseEvent_side (p b : Nat) (h : Hub) : (raiseEvent p b h).side = h.side := (raiseEvent_switch p b h).side
@[simp] theorem raiseEvent_fitting (p b : Nat) (h : Hub) : (raiseEvent p b h).fitting = h.fitting := (raiseEvent_switch p b h).fitting
@[simp] theorem raiseEvent_sec (p b : Nat) (h : Hub) : (raiseEvent p b h).sec = h.sec := (raiseEvent_switch p b h).sec
@[simp] theorem raiseEvent_twin (p b : Nat) (h : Hub) : (raiseEvent p b h).twin = h.twin := (raiseEvent_switch p b h).twin
@[simp] theorem raiseEvent_stu (p b : Nat) (h : Hub) : (raiseEvent p b h).stu = h.stu := (raiseEvent_switch p b h).stu
@[simp] theorem raiseEvent_tier (p b : Nat) (h : Hub) : (raiseEvent p b h).tier = h.tier := (raiseEvent_switch p b h).tier
@[simp] theorem raiseEvent_coh (p b : Nat) (h : Hub) : (raiseEvent p b h).coh = h.coh := (raiseEvent_switch p b h).coh
@[simp] theorem raiseEvent_assemblies (p b : Nat) (h : Hub) : (raiseEvent p b h).assemblies = h.assemblies := (raiseEvent_switch p b h).assemblies
@[simp] theorem raiseEvent_shapers (p b : Nat) (h : Hub) : (raiseEvent p b h).shapers = h.shapers := (raiseEvent_switch p b h).shapers
@[simp] theorem raiseEvent_nextReq (p b : Nat) (h : Hub) : (raiseEvent p b h).nextReq = h.nextReq := (raiseEvent_switch p b h).nextReq
@[simp] theorem raiseEvent_nextTag (p b : Nat) (h : Hub) : (raiseEvent p b h).nextTag = h.nextTag := (raiseEvent_switch p b h).nextTag
@[simp] theorem raiseEvent_outstanding (p b : Nat) (h : Hub) : (raiseEvent p b h).outstanding = h.outstanding := (raiseEvent_switch p b h).outstanding
@[simp] theorem raiseEvent_deadTags (p b : Nat) (h : Hub) : (raiseEvent p b h).deadTags = h.deadTags := (raiseEvent_switch p b h).deadTags
@[simp] theorem raiseEvent_relays (p b : Nat) (h : Hub) : (raiseEvent p b h).relays = h.relays := (raiseEvent_switch p b h).relays
@[simp] theorem raiseEvent_mem (p b : Nat) (h : Hub) : (raiseEvent p b h).mem = h.mem := (raiseEvent_switch p b h).mem
@[simp] theorem raiseEvent_poison (p b : Nat) (h : Hub) : (raiseEvent p b h).poison = h.poison := (raiseEvent_switch p b h).poison
@[simp] theorem raiseEvent_cxl0 (p b : Nat) (h : Hub) : (raiseEvent p b h).cxl0 = h.cxl0 := (raiseEvent_switch p b h).cxl0
@[simp] theorem raiseEvent_cxl1 (p b : Nat) (h : Hub) : (raiseEvent p b h).cxl1 = h.cxl1 := (raiseEvent_switch p b h).cxl1
@[simp] theorem raiseEvent_cores (p b : Nat) (h : Hub) : (raiseEvent p b h).cores = h.cores := (raiseEvent_switch p b h).cores
@[simp] theorem raiseEvent_bench (p b : Nat) (h : Hub) : (raiseEvent p b h).bench = h.bench := (raiseEvent_switch p b h).bench
@[simp] theorem raiseEvent_cur (p b : Nat) (h : Hub) : (raiseEvent p b h).cur = h.cur := (raiseEvent_switch p b h).cur
@[simp] theorem raiseEvent_cloak (p b : Nat) (h : Hub) : (raiseEvent p b h).cloak = h.cloak := (raiseEvent_switch p b h).cloak
@[simp] theorem raiseEvent_emb (p b : Nat) (h : Hub) : (raiseEvent p b h).emb = h.emb := (raiseEvent_switch p b h).emb
@[simp] theorem raiseEvent_search (p b : Nat) (h : Hub) : (raiseEvent p b h).search = h.search := (raiseEvent_switch p b h).search
@[simp] theorem raiseEvent_pou (p b : Nat) (h : Hub) : (raiseEvent p b h).pou = h.pou := (raiseEvent_switch p b h).pou
@[simp] theorem raiseEvent_meter (p b : Nat) (h : Hub) : (raiseEvent p b h).meter = h.meter := (raiseEvent_switch p b h).meter
@[simp] theorem raiseEvent_fence (p b : Nat) (h : Hub) : (raiseEvent p b h).ras.fence = h.ras.fence := (raiseEvent_switch p b h).fence
@[simp] theorem count_free (p s n : Nat) (h : Hub) : (Machine.count p s n h).free = h.free := (count_switch p s n h).free
@[simp] theorem count_clock (p s n : Nat) (h : Hub) : (Machine.count p s n h).clock = h.clock := (count_switch p s n h).clock
@[simp] theorem count_devTime (p s n : Nat) (h : Hub) : (Machine.count p s n h).devTime = h.devTime := (count_switch p s n h).devTime
@[simp] theorem count_pins (p s n : Nat) (h : Hub) : (Machine.count p s n h).pins = h.pins := (count_switch p s n h).pins
@[simp] theorem count_boot (p s n : Nat) (h : Hub) : (Machine.count p s n h).boot = h.boot := (count_switch p s n h).boot
@[simp] theorem count_pathA (p s n : Nat) (h : Hub) : (Machine.count p s n h).pathA = h.pathA := (count_switch p s n h).pathA
@[simp] theorem count_pathB (p s n : Nat) (h : Hub) : (Machine.count p s n h).pathB = h.pathB := (count_switch p s n h).pathB
@[simp] theorem count_routes (p s n : Nat) (h : Hub) : (Machine.count p s n h).routes = h.routes := (count_switch p s n h).routes
@[simp] theorem count_time (p s n : Nat) (h : Hub) : (Machine.count p s n h).time = h.time := (count_switch p s n h).time
@[simp] theorem count_side (p s n : Nat) (h : Hub) : (Machine.count p s n h).side = h.side := (count_switch p s n h).side
@[simp] theorem count_fitting (p s n : Nat) (h : Hub) : (Machine.count p s n h).fitting = h.fitting := (count_switch p s n h).fitting
@[simp] theorem count_sec (p s n : Nat) (h : Hub) : (Machine.count p s n h).sec = h.sec := (count_switch p s n h).sec
@[simp] theorem count_twin (p s n : Nat) (h : Hub) : (Machine.count p s n h).twin = h.twin := (count_switch p s n h).twin
@[simp] theorem count_stu (p s n : Nat) (h : Hub) : (Machine.count p s n h).stu = h.stu := (count_switch p s n h).stu
@[simp] theorem count_tier (p s n : Nat) (h : Hub) : (Machine.count p s n h).tier = h.tier := (count_switch p s n h).tier
@[simp] theorem count_coh (p s n : Nat) (h : Hub) : (Machine.count p s n h).coh = h.coh := (count_switch p s n h).coh
@[simp] theorem count_assemblies (p s n : Nat) (h : Hub) : (Machine.count p s n h).assemblies = h.assemblies := (count_switch p s n h).assemblies
@[simp] theorem count_shapers (p s n : Nat) (h : Hub) : (Machine.count p s n h).shapers = h.shapers := (count_switch p s n h).shapers
@[simp] theorem count_nextReq (p s n : Nat) (h : Hub) : (Machine.count p s n h).nextReq = h.nextReq := (count_switch p s n h).nextReq
@[simp] theorem count_nextTag (p s n : Nat) (h : Hub) : (Machine.count p s n h).nextTag = h.nextTag := (count_switch p s n h).nextTag
@[simp] theorem count_outstanding (p s n : Nat) (h : Hub) : (Machine.count p s n h).outstanding = h.outstanding := (count_switch p s n h).outstanding
@[simp] theorem count_deadTags (p s n : Nat) (h : Hub) : (Machine.count p s n h).deadTags = h.deadTags := (count_switch p s n h).deadTags
@[simp] theorem count_relays (p s n : Nat) (h : Hub) : (Machine.count p s n h).relays = h.relays := (count_switch p s n h).relays
@[simp] theorem count_mem (p s n : Nat) (h : Hub) : (Machine.count p s n h).mem = h.mem := (count_switch p s n h).mem
@[simp] theorem count_poison (p s n : Nat) (h : Hub) : (Machine.count p s n h).poison = h.poison := (count_switch p s n h).poison
@[simp] theorem count_cxl0 (p s n : Nat) (h : Hub) : (Machine.count p s n h).cxl0 = h.cxl0 := (count_switch p s n h).cxl0
@[simp] theorem count_cxl1 (p s n : Nat) (h : Hub) : (Machine.count p s n h).cxl1 = h.cxl1 := (count_switch p s n h).cxl1
@[simp] theorem count_cores (p s n : Nat) (h : Hub) : (Machine.count p s n h).cores = h.cores := (count_switch p s n h).cores
@[simp] theorem count_bench (p s n : Nat) (h : Hub) : (Machine.count p s n h).bench = h.bench := (count_switch p s n h).bench
@[simp] theorem count_cur (p s n : Nat) (h : Hub) : (Machine.count p s n h).cur = h.cur := (count_switch p s n h).cur
@[simp] theorem count_cloak (p s n : Nat) (h : Hub) : (Machine.count p s n h).cloak = h.cloak := (count_switch p s n h).cloak
@[simp] theorem count_emb (p s n : Nat) (h : Hub) : (Machine.count p s n h).emb = h.emb := (count_switch p s n h).emb
@[simp] theorem count_search (p s n : Nat) (h : Hub) : (Machine.count p s n h).search = h.search := (count_switch p s n h).search
@[simp] theorem count_pou (p s n : Nat) (h : Hub) : (Machine.count p s n h).pou = h.pou := (count_switch p s n h).pou
@[simp] theorem count_meter (p s n : Nat) (h : Hub) : (Machine.count p s n h).meter = h.meter := (count_switch p s n h).meter
@[simp] theorem count_fence (p s n : Nat) (h : Hub) : (Machine.count p s n h).ras.fence = h.ras.fence := (count_switch p s n h).fence
@[simp] theorem sendFrame_free (f : Frame) (h : Hub) : (sendFrame f h).free = h.free := (sendFrame_switch f h).free
@[simp] theorem sendFrame_clock (f : Frame) (h : Hub) : (sendFrame f h).clock = h.clock := (sendFrame_switch f h).clock
@[simp] theorem sendFrame_devTime (f : Frame) (h : Hub) : (sendFrame f h).devTime = h.devTime := (sendFrame_switch f h).devTime
@[simp] theorem sendFrame_pins (f : Frame) (h : Hub) : (sendFrame f h).pins = h.pins := (sendFrame_switch f h).pins
@[simp] theorem sendFrame_boot (f : Frame) (h : Hub) : (sendFrame f h).boot = h.boot := (sendFrame_switch f h).boot
@[simp] theorem sendFrame_pathA (f : Frame) (h : Hub) : (sendFrame f h).pathA = h.pathA := (sendFrame_switch f h).pathA
@[simp] theorem sendFrame_pathB (f : Frame) (h : Hub) : (sendFrame f h).pathB = h.pathB := (sendFrame_switch f h).pathB
@[simp] theorem sendFrame_routes (f : Frame) (h : Hub) : (sendFrame f h).routes = h.routes := (sendFrame_switch f h).routes
@[simp] theorem sendFrame_time (f : Frame) (h : Hub) : (sendFrame f h).time = h.time := (sendFrame_switch f h).time
@[simp] theorem sendFrame_side (f : Frame) (h : Hub) : (sendFrame f h).side = h.side := (sendFrame_switch f h).side
@[simp] theorem sendFrame_fitting (f : Frame) (h : Hub) : (sendFrame f h).fitting = h.fitting := (sendFrame_switch f h).fitting
@[simp] theorem sendFrame_sec (f : Frame) (h : Hub) : (sendFrame f h).sec = h.sec := (sendFrame_switch f h).sec
@[simp] theorem sendFrame_twin (f : Frame) (h : Hub) : (sendFrame f h).twin = h.twin := (sendFrame_switch f h).twin
@[simp] theorem sendFrame_stu (f : Frame) (h : Hub) : (sendFrame f h).stu = h.stu := (sendFrame_switch f h).stu
@[simp] theorem sendFrame_tier (f : Frame) (h : Hub) : (sendFrame f h).tier = h.tier := (sendFrame_switch f h).tier
@[simp] theorem sendFrame_coh (f : Frame) (h : Hub) : (sendFrame f h).coh = h.coh := (sendFrame_switch f h).coh
@[simp] theorem sendFrame_assemblies (f : Frame) (h : Hub) : (sendFrame f h).assemblies = h.assemblies := (sendFrame_switch f h).assemblies
@[simp] theorem sendFrame_shapers (f : Frame) (h : Hub) : (sendFrame f h).shapers = h.shapers := (sendFrame_switch f h).shapers
@[simp] theorem sendFrame_nextReq (f : Frame) (h : Hub) : (sendFrame f h).nextReq = h.nextReq := (sendFrame_switch f h).nextReq
@[simp] theorem sendFrame_nextTag (f : Frame) (h : Hub) : (sendFrame f h).nextTag = h.nextTag := (sendFrame_switch f h).nextTag
@[simp] theorem sendFrame_outstanding (f : Frame) (h : Hub) : (sendFrame f h).outstanding = h.outstanding := (sendFrame_switch f h).outstanding
@[simp] theorem sendFrame_deadTags (f : Frame) (h : Hub) : (sendFrame f h).deadTags = h.deadTags := (sendFrame_switch f h).deadTags
@[simp] theorem sendFrame_relays (f : Frame) (h : Hub) : (sendFrame f h).relays = h.relays := (sendFrame_switch f h).relays
@[simp] theorem sendFrame_mem (f : Frame) (h : Hub) : (sendFrame f h).mem = h.mem := (sendFrame_switch f h).mem
@[simp] theorem sendFrame_poison (f : Frame) (h : Hub) : (sendFrame f h).poison = h.poison := (sendFrame_switch f h).poison
@[simp] theorem sendFrame_cxl0 (f : Frame) (h : Hub) : (sendFrame f h).cxl0 = h.cxl0 := (sendFrame_switch f h).cxl0
@[simp] theorem sendFrame_cxl1 (f : Frame) (h : Hub) : (sendFrame f h).cxl1 = h.cxl1 := (sendFrame_switch f h).cxl1
@[simp] theorem sendFrame_cores (f : Frame) (h : Hub) : (sendFrame f h).cores = h.cores := (sendFrame_switch f h).cores
@[simp] theorem sendFrame_bench (f : Frame) (h : Hub) : (sendFrame f h).bench = h.bench := (sendFrame_switch f h).bench
@[simp] theorem sendFrame_cur (f : Frame) (h : Hub) : (sendFrame f h).cur = h.cur := (sendFrame_switch f h).cur
@[simp] theorem sendFrame_cloak (f : Frame) (h : Hub) : (sendFrame f h).cloak = h.cloak := (sendFrame_switch f h).cloak
@[simp] theorem sendFrame_emb (f : Frame) (h : Hub) : (sendFrame f h).emb = h.emb := (sendFrame_switch f h).emb
@[simp] theorem sendFrame_search (f : Frame) (h : Hub) : (sendFrame f h).search = h.search := (sendFrame_switch f h).search
@[simp] theorem sendFrame_pou (f : Frame) (h : Hub) : (sendFrame f h).pou = h.pou := (sendFrame_switch f h).pou
@[simp] theorem sendFrame_meter (f : Frame) (h : Hub) : (sendFrame f h).meter = h.meter := (sendFrame_switch f h).meter
@[simp] theorem sendFrame_fence (f : Frame) (h : Hub) : (sendFrame f h).ras.fence = h.ras.fence := (sendFrame_switch f h).fence
@[simp] theorem logEvent_free (k : Nat) (d : List Byte) (h : Hub) : (logEvent k d h).free = h.free := (logEvent_switch k d h).free
@[simp] theorem logEvent_clock (k : Nat) (d : List Byte) (h : Hub) : (logEvent k d h).clock = h.clock := (logEvent_switch k d h).clock
@[simp] theorem logEvent_devTime (k : Nat) (d : List Byte) (h : Hub) : (logEvent k d h).devTime = h.devTime := (logEvent_switch k d h).devTime
@[simp] theorem logEvent_pins (k : Nat) (d : List Byte) (h : Hub) : (logEvent k d h).pins = h.pins := (logEvent_switch k d h).pins
@[simp] theorem logEvent_boot (k : Nat) (d : List Byte) (h : Hub) : (logEvent k d h).boot = h.boot := (logEvent_switch k d h).boot
@[simp] theorem logEvent_pathA (k : Nat) (d : List Byte) (h : Hub) : (logEvent k d h).pathA = h.pathA := (logEvent_switch k d h).pathA
@[simp] theorem logEvent_pathB (k : Nat) (d : List Byte) (h : Hub) : (logEvent k d h).pathB = h.pathB := (logEvent_switch k d h).pathB
@[simp] theorem logEvent_routes (k : Nat) (d : List Byte) (h : Hub) : (logEvent k d h).routes = h.routes := (logEvent_switch k d h).routes
@[simp] theorem logEvent_time (k : Nat) (d : List Byte) (h : Hub) : (logEvent k d h).time = h.time := (logEvent_switch k d h).time
@[simp] theorem logEvent_side (k : Nat) (d : List Byte) (h : Hub) : (logEvent k d h).side = h.side := (logEvent_switch k d h).side
@[simp] theorem logEvent_fitting (k : Nat) (d : List Byte) (h : Hub) : (logEvent k d h).fitting = h.fitting := (logEvent_switch k d h).fitting
@[simp] theorem logEvent_sec (k : Nat) (d : List Byte) (h : Hub) : (logEvent k d h).sec = h.sec := (logEvent_switch k d h).sec
@[simp] theorem logEvent_twin (k : Nat) (d : List Byte) (h : Hub) : (logEvent k d h).twin = h.twin := (logEvent_switch k d h).twin
@[simp] theorem logEvent_stu (k : Nat) (d : List Byte) (h : Hub) : (logEvent k d h).stu = h.stu := (logEvent_switch k d h).stu
@[simp] theorem logEvent_tier (k : Nat) (d : List Byte) (h : Hub) : (logEvent k d h).tier = h.tier := (logEvent_switch k d h).tier
@[simp] theorem logEvent_coh (k : Nat) (d : List Byte) (h : Hub) : (logEvent k d h).coh = h.coh := (logEvent_switch k d h).coh
@[simp] theorem logEvent_assemblies (k : Nat) (d : List Byte) (h : Hub) : (logEvent k d h).assemblies = h.assemblies := (logEvent_switch k d h).assemblies
@[simp] theorem logEvent_shapers (k : Nat) (d : List Byte) (h : Hub) : (logEvent k d h).shapers = h.shapers := (logEvent_switch k d h).shapers
@[simp] theorem logEvent_nextReq (k : Nat) (d : List Byte) (h : Hub) : (logEvent k d h).nextReq = h.nextReq := (logEvent_switch k d h).nextReq
@[simp] theorem logEvent_nextTag (k : Nat) (d : List Byte) (h : Hub) : (logEvent k d h).nextTag = h.nextTag := (logEvent_switch k d h).nextTag
@[simp] theorem logEvent_outstanding (k : Nat) (d : List Byte) (h : Hub) : (logEvent k d h).outstanding = h.outstanding := (logEvent_switch k d h).outstanding
@[simp] theorem logEvent_deadTags (k : Nat) (d : List Byte) (h : Hub) : (logEvent k d h).deadTags = h.deadTags := (logEvent_switch k d h).deadTags
@[simp] theorem logEvent_relays (k : Nat) (d : List Byte) (h : Hub) : (logEvent k d h).relays = h.relays := (logEvent_switch k d h).relays
@[simp] theorem logEvent_mem (k : Nat) (d : List Byte) (h : Hub) : (logEvent k d h).mem = h.mem := (logEvent_switch k d h).mem
@[simp] theorem logEvent_poison (k : Nat) (d : List Byte) (h : Hub) : (logEvent k d h).poison = h.poison := (logEvent_switch k d h).poison
@[simp] theorem logEvent_cxl0 (k : Nat) (d : List Byte) (h : Hub) : (logEvent k d h).cxl0 = h.cxl0 := (logEvent_switch k d h).cxl0
@[simp] theorem logEvent_cxl1 (k : Nat) (d : List Byte) (h : Hub) : (logEvent k d h).cxl1 = h.cxl1 := (logEvent_switch k d h).cxl1
@[simp] theorem logEvent_cores (k : Nat) (d : List Byte) (h : Hub) : (logEvent k d h).cores = h.cores := (logEvent_switch k d h).cores
@[simp] theorem logEvent_bench (k : Nat) (d : List Byte) (h : Hub) : (logEvent k d h).bench = h.bench := (logEvent_switch k d h).bench
@[simp] theorem logEvent_cur (k : Nat) (d : List Byte) (h : Hub) : (logEvent k d h).cur = h.cur := (logEvent_switch k d h).cur
@[simp] theorem logEvent_cloak (k : Nat) (d : List Byte) (h : Hub) : (logEvent k d h).cloak = h.cloak := (logEvent_switch k d h).cloak
@[simp] theorem logEvent_emb (k : Nat) (d : List Byte) (h : Hub) : (logEvent k d h).emb = h.emb := (logEvent_switch k d h).emb
@[simp] theorem logEvent_search (k : Nat) (d : List Byte) (h : Hub) : (logEvent k d h).search = h.search := (logEvent_switch k d h).search
@[simp] theorem logEvent_pou (k : Nat) (d : List Byte) (h : Hub) : (logEvent k d h).pou = h.pou := (logEvent_switch k d h).pou
@[simp] theorem logEvent_meter (k : Nat) (d : List Byte) (h : Hub) : (logEvent k d h).meter = h.meter := (logEvent_switch k d h).meter
@[simp] theorem logEvent_fence (k : Nat) (d : List Byte) (h : Hub) : (logEvent k d h).ras.fence = h.ras.fence := (logEvent_switch k d h).fence

@[simp] theorem putReg_free (p o : Nat) (v : Word) (h : Hub) : (putReg p o v h).free = h.free := rfl
@[simp] theorem putReg_kibSpare (p o : Nat) (v : Word) (h : Hub) : (putReg p o v h).kibSpare = h.kibSpare := rfl
@[simp] theorem putReg_clock (p o : Nat) (v : Word) (h : Hub) : (putReg p o v h).clock = h.clock := rfl
@[simp] theorem putReg_devTime (p o : Nat) (v : Word) (h : Hub) : (putReg p o v h).devTime = h.devTime := rfl
@[simp] theorem putReg_pins (p o : Nat) (v : Word) (h : Hub) : (putReg p o v h).pins = h.pins := rfl
@[simp] theorem putReg_boot (p o : Nat) (v : Word) (h : Hub) : (putReg p o v h).boot = h.boot := rfl
@[simp] theorem putReg_pathA (p o : Nat) (v : Word) (h : Hub) : (putReg p o v h).pathA = h.pathA := rfl
@[simp] theorem putReg_pathB (p o : Nat) (v : Word) (h : Hub) : (putReg p o v h).pathB = h.pathB := rfl
@[simp] theorem putReg_routes (p o : Nat) (v : Word) (h : Hub) : (putReg p o v h).routes = h.routes := rfl
@[simp] theorem putReg_ports (p o : Nat) (v : Word) (h : Hub) : (putReg p o v h).ports = h.ports := rfl
@[simp] theorem putReg_egress (p o : Nat) (v : Word) (h : Hub) : (putReg p o v h).egress = h.egress := rfl
@[simp] theorem putReg_mirror (p o : Nat) (v : Word) (h : Hub) : (putReg p o v h).mirror = h.mirror := rfl
@[simp] theorem putReg_time (p o : Nat) (v : Word) (h : Hub) : (putReg p o v h).time = h.time := rfl
@[simp] theorem putReg_armoire (p o : Nat) (v : Word) (h : Hub) : (putReg p o v h).armoire = h.armoire := rfl
@[simp] theorem putReg_side (p o : Nat) (v : Word) (h : Hub) : (putReg p o v h).side = h.side := rfl
@[simp] theorem putReg_ras (p o : Nat) (v : Word) (h : Hub) : (putReg p o v h).ras = h.ras := rfl
@[simp] theorem putReg_fitting (p o : Nat) (v : Word) (h : Hub) : (putReg p o v h).fitting = h.fitting := rfl
@[simp] theorem putReg_sec (p o : Nat) (v : Word) (h : Hub) : (putReg p o v h).sec = h.sec := rfl
@[simp] theorem putReg_twin (p o : Nat) (v : Word) (h : Hub) : (putReg p o v h).twin = h.twin := rfl
@[simp] theorem putReg_stu (p o : Nat) (v : Word) (h : Hub) : (putReg p o v h).stu = h.stu := rfl
@[simp] theorem putReg_tier (p o : Nat) (v : Word) (h : Hub) : (putReg p o v h).tier = h.tier := rfl
@[simp] theorem putReg_coh (p o : Nat) (v : Word) (h : Hub) : (putReg p o v h).coh = h.coh := rfl
@[simp] theorem putReg_assemblies (p o : Nat) (v : Word) (h : Hub) : (putReg p o v h).assemblies = h.assemblies := rfl
@[simp] theorem putReg_shapers (p o : Nat) (v : Word) (h : Hub) : (putReg p o v h).shapers = h.shapers := rfl
@[simp] theorem putReg_nextReq (p o : Nat) (v : Word) (h : Hub) : (putReg p o v h).nextReq = h.nextReq := rfl
@[simp] theorem putReg_nextTag (p o : Nat) (v : Word) (h : Hub) : (putReg p o v h).nextTag = h.nextTag := rfl
@[simp] theorem putReg_outstanding (p o : Nat) (v : Word) (h : Hub) : (putReg p o v h).outstanding = h.outstanding := rfl
@[simp] theorem putReg_deadTags (p o : Nat) (v : Word) (h : Hub) : (putReg p o v h).deadTags = h.deadTags := rfl
@[simp] theorem putReg_relays (p o : Nat) (v : Word) (h : Hub) : (putReg p o v h).relays = h.relays := rfl
@[simp] theorem putReg_mem (p o : Nat) (v : Word) (h : Hub) : (putReg p o v h).mem = h.mem := rfl
@[simp] theorem putReg_poison (p o : Nat) (v : Word) (h : Hub) : (putReg p o v h).poison = h.poison := rfl
@[simp] theorem putReg_outs (p o : Nat) (v : Word) (h : Hub) : (putReg p o v h).outs = h.outs := rfl
@[simp] theorem putReg_cxl0 (p o : Nat) (v : Word) (h : Hub) : (putReg p o v h).cxl0 = h.cxl0 := rfl
@[simp] theorem putReg_cxl1 (p o : Nat) (v : Word) (h : Hub) : (putReg p o v h).cxl1 = h.cxl1 := rfl
@[simp] theorem putReg_cores (p o : Nat) (v : Word) (h : Hub) : (putReg p o v h).cores = h.cores := rfl
@[simp] theorem putReg_bench (p o : Nat) (v : Word) (h : Hub) : (putReg p o v h).bench = h.bench := rfl
@[simp] theorem putReg_cur (p o : Nat) (v : Word) (h : Hub) : (putReg p o v h).cur = h.cur := rfl
@[simp] theorem putReg_cloak (p o : Nat) (v : Word) (h : Hub) : (putReg p o v h).cloak = h.cloak := rfl
@[simp] theorem putReg_emb (p o : Nat) (v : Word) (h : Hub) : (putReg p o v h).emb = h.emb := rfl
@[simp] theorem putReg_search (p o : Nat) (v : Word) (h : Hub) : (putReg p o v h).search = h.search := rfl
@[simp] theorem putReg_pou (p o : Nat) (v : Word) (h : Hub) : (putReg p o v h).pou = h.pou := rfl
@[simp] theorem putReg_meter (p o : Nat) (v : Word) (h : Hub) : (putReg p o v h).meter = h.meter := rfl
@[simp] theorem emit_regs (o : Out) (h : Hub) : (emit o h).regs = h.regs := rfl
@[simp] theorem emit_free (o : Out) (h : Hub) : (emit o h).free = h.free := rfl
@[simp] theorem emit_kibSpare (o : Out) (h : Hub) : (emit o h).kibSpare = h.kibSpare := rfl
@[simp] theorem emit_clock (o : Out) (h : Hub) : (emit o h).clock = h.clock := rfl
@[simp] theorem emit_devTime (o : Out) (h : Hub) : (emit o h).devTime = h.devTime := rfl
@[simp] theorem emit_pins (o : Out) (h : Hub) : (emit o h).pins = h.pins := rfl
@[simp] theorem emit_boot (o : Out) (h : Hub) : (emit o h).boot = h.boot := rfl
@[simp] theorem emit_pathA (o : Out) (h : Hub) : (emit o h).pathA = h.pathA := rfl
@[simp] theorem emit_pathB (o : Out) (h : Hub) : (emit o h).pathB = h.pathB := rfl
@[simp] theorem emit_routes (o : Out) (h : Hub) : (emit o h).routes = h.routes := rfl
@[simp] theorem emit_ports (o : Out) (h : Hub) : (emit o h).ports = h.ports := rfl
@[simp] theorem emit_egress (o : Out) (h : Hub) : (emit o h).egress = h.egress := rfl
@[simp] theorem emit_mirror (o : Out) (h : Hub) : (emit o h).mirror = h.mirror := rfl
@[simp] theorem emit_time (o : Out) (h : Hub) : (emit o h).time = h.time := rfl
@[simp] theorem emit_armoire (o : Out) (h : Hub) : (emit o h).armoire = h.armoire := rfl
@[simp] theorem emit_side (o : Out) (h : Hub) : (emit o h).side = h.side := rfl
@[simp] theorem emit_ras (o : Out) (h : Hub) : (emit o h).ras = h.ras := rfl
@[simp] theorem emit_fitting (o : Out) (h : Hub) : (emit o h).fitting = h.fitting := rfl
@[simp] theorem emit_sec (o : Out) (h : Hub) : (emit o h).sec = h.sec := rfl
@[simp] theorem emit_twin (o : Out) (h : Hub) : (emit o h).twin = h.twin := rfl
@[simp] theorem emit_stu (o : Out) (h : Hub) : (emit o h).stu = h.stu := rfl
@[simp] theorem emit_tier (o : Out) (h : Hub) : (emit o h).tier = h.tier := rfl
@[simp] theorem emit_coh (o : Out) (h : Hub) : (emit o h).coh = h.coh := rfl
@[simp] theorem emit_assemblies (o : Out) (h : Hub) : (emit o h).assemblies = h.assemblies := rfl
@[simp] theorem emit_shapers (o : Out) (h : Hub) : (emit o h).shapers = h.shapers := rfl
@[simp] theorem emit_nextReq (o : Out) (h : Hub) : (emit o h).nextReq = h.nextReq := rfl
@[simp] theorem emit_nextTag (o : Out) (h : Hub) : (emit o h).nextTag = h.nextTag := rfl
@[simp] theorem emit_outstanding (o : Out) (h : Hub) : (emit o h).outstanding = h.outstanding := rfl
@[simp] theorem emit_deadTags (o : Out) (h : Hub) : (emit o h).deadTags = h.deadTags := rfl
@[simp] theorem emit_relays (o : Out) (h : Hub) : (emit o h).relays = h.relays := rfl
@[simp] theorem emit_mem (o : Out) (h : Hub) : (emit o h).mem = h.mem := rfl
@[simp] theorem emit_poison (o : Out) (h : Hub) : (emit o h).poison = h.poison := rfl
@[simp] theorem emit_cxl0 (o : Out) (h : Hub) : (emit o h).cxl0 = h.cxl0 := rfl
@[simp] theorem emit_cxl1 (o : Out) (h : Hub) : (emit o h).cxl1 = h.cxl1 := rfl
@[simp] theorem emit_cores (o : Out) (h : Hub) : (emit o h).cores = h.cores := rfl
@[simp] theorem emit_bench (o : Out) (h : Hub) : (emit o h).bench = h.bench := rfl
@[simp] theorem emit_cur (o : Out) (h : Hub) : (emit o h).cur = h.cur := rfl
@[simp] theorem emit_cloak (o : Out) (h : Hub) : (emit o h).cloak = h.cloak := rfl
@[simp] theorem emit_emb (o : Out) (h : Hub) : (emit o h).emb = h.emb := rfl
@[simp] theorem emit_search (o : Out) (h : Hub) : (emit o h).search = h.search := rfl
@[simp] theorem emit_pou (o : Out) (h : Hub) : (emit o h).pou = h.pou := rfl
@[simp] theorem emit_meter (o : Out) (h : Hub) : (emit o h).meter = h.meter := rfl
@[simp] theorem putPort_regs (p : Nat) (v : Port) (h : Hub) : (putPort p v h).regs = h.regs := rfl
@[simp] theorem putPort_free (p : Nat) (v : Port) (h : Hub) : (putPort p v h).free = h.free := rfl
@[simp] theorem putPort_kibSpare (p : Nat) (v : Port) (h : Hub) : (putPort p v h).kibSpare = h.kibSpare := rfl
@[simp] theorem putPort_clock (p : Nat) (v : Port) (h : Hub) : (putPort p v h).clock = h.clock := rfl
@[simp] theorem putPort_devTime (p : Nat) (v : Port) (h : Hub) : (putPort p v h).devTime = h.devTime := rfl
@[simp] theorem putPort_pins (p : Nat) (v : Port) (h : Hub) : (putPort p v h).pins = h.pins := rfl
@[simp] theorem putPort_boot (p : Nat) (v : Port) (h : Hub) : (putPort p v h).boot = h.boot := rfl
@[simp] theorem putPort_pathA (p : Nat) (v : Port) (h : Hub) : (putPort p v h).pathA = h.pathA := rfl
@[simp] theorem putPort_pathB (p : Nat) (v : Port) (h : Hub) : (putPort p v h).pathB = h.pathB := rfl
@[simp] theorem putPort_routes (p : Nat) (v : Port) (h : Hub) : (putPort p v h).routes = h.routes := rfl
@[simp] theorem putPort_egress (p : Nat) (v : Port) (h : Hub) : (putPort p v h).egress = h.egress := rfl
@[simp] theorem putPort_mirror (p : Nat) (v : Port) (h : Hub) : (putPort p v h).mirror = h.mirror := rfl
@[simp] theorem putPort_time (p : Nat) (v : Port) (h : Hub) : (putPort p v h).time = h.time := rfl
@[simp] theorem putPort_armoire (p : Nat) (v : Port) (h : Hub) : (putPort p v h).armoire = h.armoire := rfl
@[simp] theorem putPort_side (p : Nat) (v : Port) (h : Hub) : (putPort p v h).side = h.side := rfl
@[simp] theorem putPort_ras (p : Nat) (v : Port) (h : Hub) : (putPort p v h).ras = h.ras := rfl
@[simp] theorem putPort_fitting (p : Nat) (v : Port) (h : Hub) : (putPort p v h).fitting = h.fitting := rfl
@[simp] theorem putPort_sec (p : Nat) (v : Port) (h : Hub) : (putPort p v h).sec = h.sec := rfl
@[simp] theorem putPort_twin (p : Nat) (v : Port) (h : Hub) : (putPort p v h).twin = h.twin := rfl
@[simp] theorem putPort_stu (p : Nat) (v : Port) (h : Hub) : (putPort p v h).stu = h.stu := rfl
@[simp] theorem putPort_tier (p : Nat) (v : Port) (h : Hub) : (putPort p v h).tier = h.tier := rfl
@[simp] theorem putPort_coh (p : Nat) (v : Port) (h : Hub) : (putPort p v h).coh = h.coh := rfl
@[simp] theorem putPort_assemblies (p : Nat) (v : Port) (h : Hub) : (putPort p v h).assemblies = h.assemblies := rfl
@[simp] theorem putPort_shapers (p : Nat) (v : Port) (h : Hub) : (putPort p v h).shapers = h.shapers := rfl
@[simp] theorem putPort_nextReq (p : Nat) (v : Port) (h : Hub) : (putPort p v h).nextReq = h.nextReq := rfl
@[simp] theorem putPort_nextTag (p : Nat) (v : Port) (h : Hub) : (putPort p v h).nextTag = h.nextTag := rfl
@[simp] theorem putPort_outstanding (p : Nat) (v : Port) (h : Hub) : (putPort p v h).outstanding = h.outstanding := rfl
@[simp] theorem putPort_deadTags (p : Nat) (v : Port) (h : Hub) : (putPort p v h).deadTags = h.deadTags := rfl
@[simp] theorem putPort_relays (p : Nat) (v : Port) (h : Hub) : (putPort p v h).relays = h.relays := rfl
@[simp] theorem putPort_mem (p : Nat) (v : Port) (h : Hub) : (putPort p v h).mem = h.mem := rfl
@[simp] theorem putPort_poison (p : Nat) (v : Port) (h : Hub) : (putPort p v h).poison = h.poison := rfl
@[simp] theorem putPort_outs (p : Nat) (v : Port) (h : Hub) : (putPort p v h).outs = h.outs := rfl
@[simp] theorem putPort_cxl0 (p : Nat) (v : Port) (h : Hub) : (putPort p v h).cxl0 = h.cxl0 := rfl
@[simp] theorem putPort_cxl1 (p : Nat) (v : Port) (h : Hub) : (putPort p v h).cxl1 = h.cxl1 := rfl
@[simp] theorem putPort_cores (p : Nat) (v : Port) (h : Hub) : (putPort p v h).cores = h.cores := rfl
@[simp] theorem putPort_bench (p : Nat) (v : Port) (h : Hub) : (putPort p v h).bench = h.bench := rfl
@[simp] theorem putPort_cur (p : Nat) (v : Port) (h : Hub) : (putPort p v h).cur = h.cur := rfl
@[simp] theorem putPort_cloak (p : Nat) (v : Port) (h : Hub) : (putPort p v h).cloak = h.cloak := rfl
@[simp] theorem putPort_emb (p : Nat) (v : Port) (h : Hub) : (putPort p v h).emb = h.emb := rfl
@[simp] theorem putPort_search (p : Nat) (v : Port) (h : Hub) : (putPort p v h).search = h.search := rfl
@[simp] theorem putPort_pou (p : Nat) (v : Port) (h : Hub) : (putPort p v h).pou = h.pou := rfl
@[simp] theorem putPort_meter (p : Nat) (v : Port) (h : Hub) : (putPort p v h).meter = h.meter := rfl
@[simp] theorem setBoot_regs (b : Boot) (h : Hub) : (setBoot b h).regs = h.regs := rfl
@[simp] theorem setBoot_free (b : Boot) (h : Hub) : (setBoot b h).free = h.free := rfl
@[simp] theorem setBoot_kibSpare (b : Boot) (h : Hub) : (setBoot b h).kibSpare = h.kibSpare := rfl
@[simp] theorem setBoot_clock (b : Boot) (h : Hub) : (setBoot b h).clock = h.clock := rfl
@[simp] theorem setBoot_devTime (b : Boot) (h : Hub) : (setBoot b h).devTime = h.devTime := rfl
@[simp] theorem setBoot_pins (b : Boot) (h : Hub) : (setBoot b h).pins = h.pins := rfl
@[simp] theorem setBoot_pathA (b : Boot) (h : Hub) : (setBoot b h).pathA = h.pathA := rfl
@[simp] theorem setBoot_pathB (b : Boot) (h : Hub) : (setBoot b h).pathB = h.pathB := rfl
@[simp] theorem setBoot_routes (b : Boot) (h : Hub) : (setBoot b h).routes = h.routes := rfl
@[simp] theorem setBoot_ports (b : Boot) (h : Hub) : (setBoot b h).ports = h.ports := rfl
@[simp] theorem setBoot_egress (b : Boot) (h : Hub) : (setBoot b h).egress = h.egress := rfl
@[simp] theorem setBoot_mirror (b : Boot) (h : Hub) : (setBoot b h).mirror = h.mirror := rfl
@[simp] theorem setBoot_time (b : Boot) (h : Hub) : (setBoot b h).time = h.time := rfl
@[simp] theorem setBoot_armoire (b : Boot) (h : Hub) : (setBoot b h).armoire = h.armoire := rfl
@[simp] theorem setBoot_side (b : Boot) (h : Hub) : (setBoot b h).side = h.side := rfl
@[simp] theorem setBoot_ras (b : Boot) (h : Hub) : (setBoot b h).ras = h.ras := rfl
@[simp] theorem setBoot_fitting (b : Boot) (h : Hub) : (setBoot b h).fitting = h.fitting := rfl
@[simp] theorem setBoot_sec (b : Boot) (h : Hub) : (setBoot b h).sec = h.sec := rfl
@[simp] theorem setBoot_twin (b : Boot) (h : Hub) : (setBoot b h).twin = h.twin := rfl
@[simp] theorem setBoot_stu (b : Boot) (h : Hub) : (setBoot b h).stu = h.stu := rfl
@[simp] theorem setBoot_tier (b : Boot) (h : Hub) : (setBoot b h).tier = h.tier := rfl
@[simp] theorem setBoot_coh (b : Boot) (h : Hub) : (setBoot b h).coh = h.coh := rfl
@[simp] theorem setBoot_assemblies (b : Boot) (h : Hub) : (setBoot b h).assemblies = h.assemblies := rfl
@[simp] theorem setBoot_shapers (b : Boot) (h : Hub) : (setBoot b h).shapers = h.shapers := rfl
@[simp] theorem setBoot_nextReq (b : Boot) (h : Hub) : (setBoot b h).nextReq = h.nextReq := rfl
@[simp] theorem setBoot_nextTag (b : Boot) (h : Hub) : (setBoot b h).nextTag = h.nextTag := rfl
@[simp] theorem setBoot_outstanding (b : Boot) (h : Hub) : (setBoot b h).outstanding = h.outstanding := rfl
@[simp] theorem setBoot_deadTags (b : Boot) (h : Hub) : (setBoot b h).deadTags = h.deadTags := rfl
@[simp] theorem setBoot_relays (b : Boot) (h : Hub) : (setBoot b h).relays = h.relays := rfl
@[simp] theorem setBoot_mem (b : Boot) (h : Hub) : (setBoot b h).mem = h.mem := rfl
@[simp] theorem setBoot_poison (b : Boot) (h : Hub) : (setBoot b h).poison = h.poison := rfl
@[simp] theorem setBoot_outs (b : Boot) (h : Hub) : (setBoot b h).outs = h.outs := rfl
@[simp] theorem setBoot_cxl0 (b : Boot) (h : Hub) : (setBoot b h).cxl0 = h.cxl0 := rfl
@[simp] theorem setBoot_cxl1 (b : Boot) (h : Hub) : (setBoot b h).cxl1 = h.cxl1 := rfl
@[simp] theorem setBoot_cores (b : Boot) (h : Hub) : (setBoot b h).cores = h.cores := rfl
@[simp] theorem setBoot_bench (b : Boot) (h : Hub) : (setBoot b h).bench = h.bench := rfl
@[simp] theorem setBoot_cur (b : Boot) (h : Hub) : (setBoot b h).cur = h.cur := rfl
@[simp] theorem setBoot_cloak (b : Boot) (h : Hub) : (setBoot b h).cloak = h.cloak := rfl
@[simp] theorem setBoot_emb (b : Boot) (h : Hub) : (setBoot b h).emb = h.emb := rfl
@[simp] theorem setBoot_search (b : Boot) (h : Hub) : (setBoot b h).search = h.search := rfl
@[simp] theorem setBoot_pou (b : Boot) (h : Hub) : (setBoot b h).pou = h.pou := rfl
@[simp] theorem setBoot_meter (b : Boot) (h : Hub) : (setBoot b h).meter = h.meter := rfl
@[simp] theorem setStu_regs (x : Stu) (h : Hub) : (setStu x h).regs = h.regs := rfl
@[simp] theorem setStu_free (x : Stu) (h : Hub) : (setStu x h).free = h.free := rfl
@[simp] theorem setStu_kibSpare (x : Stu) (h : Hub) : (setStu x h).kibSpare = h.kibSpare := rfl
@[simp] theorem setStu_clock (x : Stu) (h : Hub) : (setStu x h).clock = h.clock := rfl
@[simp] theorem setStu_devTime (x : Stu) (h : Hub) : (setStu x h).devTime = h.devTime := rfl
@[simp] theorem setStu_pins (x : Stu) (h : Hub) : (setStu x h).pins = h.pins := rfl
@[simp] theorem setStu_boot (x : Stu) (h : Hub) : (setStu x h).boot = h.boot := rfl
@[simp] theorem setStu_pathA (x : Stu) (h : Hub) : (setStu x h).pathA = h.pathA := rfl
@[simp] theorem setStu_pathB (x : Stu) (h : Hub) : (setStu x h).pathB = h.pathB := rfl
@[simp] theorem setStu_routes (x : Stu) (h : Hub) : (setStu x h).routes = h.routes := rfl
@[simp] theorem setStu_ports (x : Stu) (h : Hub) : (setStu x h).ports = h.ports := rfl
@[simp] theorem setStu_egress (x : Stu) (h : Hub) : (setStu x h).egress = h.egress := rfl
@[simp] theorem setStu_mirror (x : Stu) (h : Hub) : (setStu x h).mirror = h.mirror := rfl
@[simp] theorem setStu_time (x : Stu) (h : Hub) : (setStu x h).time = h.time := rfl
@[simp] theorem setStu_armoire (x : Stu) (h : Hub) : (setStu x h).armoire = h.armoire := rfl
@[simp] theorem setStu_side (x : Stu) (h : Hub) : (setStu x h).side = h.side := rfl
@[simp] theorem setStu_ras (x : Stu) (h : Hub) : (setStu x h).ras = h.ras := rfl
@[simp] theorem setStu_fitting (x : Stu) (h : Hub) : (setStu x h).fitting = h.fitting := rfl
@[simp] theorem setStu_sec (x : Stu) (h : Hub) : (setStu x h).sec = h.sec := rfl
@[simp] theorem setStu_twin (x : Stu) (h : Hub) : (setStu x h).twin = h.twin := rfl
@[simp] theorem setStu_tier (x : Stu) (h : Hub) : (setStu x h).tier = h.tier := rfl
@[simp] theorem setStu_coh (x : Stu) (h : Hub) : (setStu x h).coh = h.coh := rfl
@[simp] theorem setStu_assemblies (x : Stu) (h : Hub) : (setStu x h).assemblies = h.assemblies := rfl
@[simp] theorem setStu_shapers (x : Stu) (h : Hub) : (setStu x h).shapers = h.shapers := rfl
@[simp] theorem setStu_nextReq (x : Stu) (h : Hub) : (setStu x h).nextReq = h.nextReq := rfl
@[simp] theorem setStu_nextTag (x : Stu) (h : Hub) : (setStu x h).nextTag = h.nextTag := rfl
@[simp] theorem setStu_outstanding (x : Stu) (h : Hub) : (setStu x h).outstanding = h.outstanding := rfl
@[simp] theorem setStu_deadTags (x : Stu) (h : Hub) : (setStu x h).deadTags = h.deadTags := rfl
@[simp] theorem setStu_relays (x : Stu) (h : Hub) : (setStu x h).relays = h.relays := rfl
@[simp] theorem setStu_mem (x : Stu) (h : Hub) : (setStu x h).mem = h.mem := rfl
@[simp] theorem setStu_poison (x : Stu) (h : Hub) : (setStu x h).poison = h.poison := rfl
@[simp] theorem setStu_outs (x : Stu) (h : Hub) : (setStu x h).outs = h.outs := rfl
@[simp] theorem setStu_cxl0 (x : Stu) (h : Hub) : (setStu x h).cxl0 = h.cxl0 := rfl
@[simp] theorem setStu_cxl1 (x : Stu) (h : Hub) : (setStu x h).cxl1 = h.cxl1 := rfl
@[simp] theorem setStu_cores (x : Stu) (h : Hub) : (setStu x h).cores = h.cores := rfl
@[simp] theorem setStu_bench (x : Stu) (h : Hub) : (setStu x h).bench = h.bench := rfl
@[simp] theorem setStu_cur (x : Stu) (h : Hub) : (setStu x h).cur = h.cur := rfl
@[simp] theorem setStu_cloak (x : Stu) (h : Hub) : (setStu x h).cloak = h.cloak := rfl
@[simp] theorem setStu_emb (x : Stu) (h : Hub) : (setStu x h).emb = h.emb := rfl
@[simp] theorem setStu_search (x : Stu) (h : Hub) : (setStu x h).search = h.search := rfl
@[simp] theorem setStu_pou (x : Stu) (h : Hub) : (setStu x h).pou = h.pou := rfl
@[simp] theorem setStu_meter (x : Stu) (h : Hub) : (setStu x h).meter = h.meter := rfl
@[simp] theorem putTile_regs (t : Nat) (v : Tile) (h : Hub) : (putTile t v h).regs = h.regs := rfl
@[simp] theorem putTile_free (t : Nat) (v : Tile) (h : Hub) : (putTile t v h).free = h.free := rfl
@[simp] theorem putTile_kibSpare (t : Nat) (v : Tile) (h : Hub) : (putTile t v h).kibSpare = h.kibSpare := rfl
@[simp] theorem putTile_clock (t : Nat) (v : Tile) (h : Hub) : (putTile t v h).clock = h.clock := rfl
@[simp] theorem putTile_devTime (t : Nat) (v : Tile) (h : Hub) : (putTile t v h).devTime = h.devTime := rfl
@[simp] theorem putTile_pins (t : Nat) (v : Tile) (h : Hub) : (putTile t v h).pins = h.pins := rfl
@[simp] theorem putTile_boot (t : Nat) (v : Tile) (h : Hub) : (putTile t v h).boot = h.boot := rfl
@[simp] theorem putTile_pathA (t : Nat) (v : Tile) (h : Hub) : (putTile t v h).pathA = h.pathA := rfl
@[simp] theorem putTile_pathB (t : Nat) (v : Tile) (h : Hub) : (putTile t v h).pathB = h.pathB := rfl
@[simp] theorem putTile_routes (t : Nat) (v : Tile) (h : Hub) : (putTile t v h).routes = h.routes := rfl
@[simp] theorem putTile_ports (t : Nat) (v : Tile) (h : Hub) : (putTile t v h).ports = h.ports := rfl
@[simp] theorem putTile_egress (t : Nat) (v : Tile) (h : Hub) : (putTile t v h).egress = h.egress := rfl
@[simp] theorem putTile_mirror (t : Nat) (v : Tile) (h : Hub) : (putTile t v h).mirror = h.mirror := rfl
@[simp] theorem putTile_time (t : Nat) (v : Tile) (h : Hub) : (putTile t v h).time = h.time := rfl
@[simp] theorem putTile_armoire (t : Nat) (v : Tile) (h : Hub) : (putTile t v h).armoire = h.armoire := rfl
@[simp] theorem putTile_side (t : Nat) (v : Tile) (h : Hub) : (putTile t v h).side = h.side := rfl
@[simp] theorem putTile_ras (t : Nat) (v : Tile) (h : Hub) : (putTile t v h).ras = h.ras := rfl
@[simp] theorem putTile_fitting (t : Nat) (v : Tile) (h : Hub) : (putTile t v h).fitting = h.fitting := rfl
@[simp] theorem putTile_sec (t : Nat) (v : Tile) (h : Hub) : (putTile t v h).sec = h.sec := rfl
@[simp] theorem putTile_twin (t : Nat) (v : Tile) (h : Hub) : (putTile t v h).twin = h.twin := rfl
@[simp] theorem putTile_stu (t : Nat) (v : Tile) (h : Hub) : (putTile t v h).stu = h.stu := rfl
@[simp] theorem putTile_coh (t : Nat) (v : Tile) (h : Hub) : (putTile t v h).coh = h.coh := rfl
@[simp] theorem putTile_assemblies (t : Nat) (v : Tile) (h : Hub) : (putTile t v h).assemblies = h.assemblies := rfl
@[simp] theorem putTile_shapers (t : Nat) (v : Tile) (h : Hub) : (putTile t v h).shapers = h.shapers := rfl
@[simp] theorem putTile_nextReq (t : Nat) (v : Tile) (h : Hub) : (putTile t v h).nextReq = h.nextReq := rfl
@[simp] theorem putTile_nextTag (t : Nat) (v : Tile) (h : Hub) : (putTile t v h).nextTag = h.nextTag := rfl
@[simp] theorem putTile_outstanding (t : Nat) (v : Tile) (h : Hub) : (putTile t v h).outstanding = h.outstanding := rfl
@[simp] theorem putTile_deadTags (t : Nat) (v : Tile) (h : Hub) : (putTile t v h).deadTags = h.deadTags := rfl
@[simp] theorem putTile_relays (t : Nat) (v : Tile) (h : Hub) : (putTile t v h).relays = h.relays := rfl
@[simp] theorem putTile_mem (t : Nat) (v : Tile) (h : Hub) : (putTile t v h).mem = h.mem := rfl
@[simp] theorem putTile_poison (t : Nat) (v : Tile) (h : Hub) : (putTile t v h).poison = h.poison := rfl
@[simp] theorem putTile_outs (t : Nat) (v : Tile) (h : Hub) : (putTile t v h).outs = h.outs := rfl
@[simp] theorem putTile_cxl0 (t : Nat) (v : Tile) (h : Hub) : (putTile t v h).cxl0 = h.cxl0 := rfl
@[simp] theorem putTile_cxl1 (t : Nat) (v : Tile) (h : Hub) : (putTile t v h).cxl1 = h.cxl1 := rfl
@[simp] theorem putTile_cores (t : Nat) (v : Tile) (h : Hub) : (putTile t v h).cores = h.cores := rfl
@[simp] theorem putTile_bench (t : Nat) (v : Tile) (h : Hub) : (putTile t v h).bench = h.bench := rfl
@[simp] theorem putTile_cur (t : Nat) (v : Tile) (h : Hub) : (putTile t v h).cur = h.cur := rfl
@[simp] theorem putTile_cloak (t : Nat) (v : Tile) (h : Hub) : (putTile t v h).cloak = h.cloak := rfl
@[simp] theorem putTile_emb (t : Nat) (v : Tile) (h : Hub) : (putTile t v h).emb = h.emb := rfl
@[simp] theorem putTile_search (t : Nat) (v : Tile) (h : Hub) : (putTile t v h).search = h.search := rfl
@[simp] theorem putTile_pou (t : Nat) (v : Tile) (h : Hub) : (putTile t v h).pou = h.pou := rfl
@[simp] theorem putTile_meter (t : Nat) (v : Tile) (h : Hub) : (putTile t v h).meter = h.meter := rfl
@[simp] theorem putCore_regs (k : Nat) (c : Core) (h : Hub) : (putCore k c h).regs = h.regs := rfl
@[simp] theorem putCore_free (k : Nat) (c : Core) (h : Hub) : (putCore k c h).free = h.free := rfl
@[simp] theorem putCore_kibSpare (k : Nat) (c : Core) (h : Hub) : (putCore k c h).kibSpare = h.kibSpare := rfl
@[simp] theorem putCore_clock (k : Nat) (c : Core) (h : Hub) : (putCore k c h).clock = h.clock := rfl
@[simp] theorem putCore_devTime (k : Nat) (c : Core) (h : Hub) : (putCore k c h).devTime = h.devTime := rfl
@[simp] theorem putCore_pins (k : Nat) (c : Core) (h : Hub) : (putCore k c h).pins = h.pins := rfl
@[simp] theorem putCore_boot (k : Nat) (c : Core) (h : Hub) : (putCore k c h).boot = h.boot := rfl
@[simp] theorem putCore_pathA (k : Nat) (c : Core) (h : Hub) : (putCore k c h).pathA = h.pathA := rfl
@[simp] theorem putCore_pathB (k : Nat) (c : Core) (h : Hub) : (putCore k c h).pathB = h.pathB := rfl
@[simp] theorem putCore_routes (k : Nat) (c : Core) (h : Hub) : (putCore k c h).routes = h.routes := rfl
@[simp] theorem putCore_ports (k : Nat) (c : Core) (h : Hub) : (putCore k c h).ports = h.ports := rfl
@[simp] theorem putCore_egress (k : Nat) (c : Core) (h : Hub) : (putCore k c h).egress = h.egress := rfl
@[simp] theorem putCore_mirror (k : Nat) (c : Core) (h : Hub) : (putCore k c h).mirror = h.mirror := rfl
@[simp] theorem putCore_time (k : Nat) (c : Core) (h : Hub) : (putCore k c h).time = h.time := rfl
@[simp] theorem putCore_armoire (k : Nat) (c : Core) (h : Hub) : (putCore k c h).armoire = h.armoire := rfl
@[simp] theorem putCore_side (k : Nat) (c : Core) (h : Hub) : (putCore k c h).side = h.side := rfl
@[simp] theorem putCore_ras (k : Nat) (c : Core) (h : Hub) : (putCore k c h).ras = h.ras := rfl
@[simp] theorem putCore_fitting (k : Nat) (c : Core) (h : Hub) : (putCore k c h).fitting = h.fitting := rfl
@[simp] theorem putCore_sec (k : Nat) (c : Core) (h : Hub) : (putCore k c h).sec = h.sec := rfl
@[simp] theorem putCore_twin (k : Nat) (c : Core) (h : Hub) : (putCore k c h).twin = h.twin := rfl
@[simp] theorem putCore_stu (k : Nat) (c : Core) (h : Hub) : (putCore k c h).stu = h.stu := rfl
@[simp] theorem putCore_tier (k : Nat) (c : Core) (h : Hub) : (putCore k c h).tier = h.tier := rfl
@[simp] theorem putCore_coh (k : Nat) (c : Core) (h : Hub) : (putCore k c h).coh = h.coh := rfl
@[simp] theorem putCore_assemblies (k : Nat) (c : Core) (h : Hub) : (putCore k c h).assemblies = h.assemblies := rfl
@[simp] theorem putCore_shapers (k : Nat) (c : Core) (h : Hub) : (putCore k c h).shapers = h.shapers := rfl
@[simp] theorem putCore_nextReq (k : Nat) (c : Core) (h : Hub) : (putCore k c h).nextReq = h.nextReq := rfl
@[simp] theorem putCore_nextTag (k : Nat) (c : Core) (h : Hub) : (putCore k c h).nextTag = h.nextTag := rfl
@[simp] theorem putCore_outstanding (k : Nat) (c : Core) (h : Hub) : (putCore k c h).outstanding = h.outstanding := rfl
@[simp] theorem putCore_deadTags (k : Nat) (c : Core) (h : Hub) : (putCore k c h).deadTags = h.deadTags := rfl
@[simp] theorem putCore_relays (k : Nat) (c : Core) (h : Hub) : (putCore k c h).relays = h.relays := rfl
@[simp] theorem putCore_mem (k : Nat) (c : Core) (h : Hub) : (putCore k c h).mem = h.mem := rfl
@[simp] theorem putCore_poison (k : Nat) (c : Core) (h : Hub) : (putCore k c h).poison = h.poison := rfl
@[simp] theorem putCore_outs (k : Nat) (c : Core) (h : Hub) : (putCore k c h).outs = h.outs := rfl
@[simp] theorem putCore_cxl0 (k : Nat) (c : Core) (h : Hub) : (putCore k c h).cxl0 = h.cxl0 := rfl
@[simp] theorem putCore_cxl1 (k : Nat) (c : Core) (h : Hub) : (putCore k c h).cxl1 = h.cxl1 := rfl
@[simp] theorem putCore_bench (k : Nat) (c : Core) (h : Hub) : (putCore k c h).bench = h.bench := rfl
@[simp] theorem putCore_cur (k : Nat) (c : Core) (h : Hub) : (putCore k c h).cur = h.cur := rfl
@[simp] theorem putCore_cloak (k : Nat) (c : Core) (h : Hub) : (putCore k c h).cloak = h.cloak := rfl
@[simp] theorem putCore_emb (k : Nat) (c : Core) (h : Hub) : (putCore k c h).emb = h.emb := rfl
@[simp] theorem putCore_search (k : Nat) (c : Core) (h : Hub) : (putCore k c h).search = h.search := rfl
@[simp] theorem putCore_pou (k : Nat) (c : Core) (h : Hub) : (putCore k c h).pou = h.pou := rfl
@[simp] theorem putCore_meter (k : Nat) (c : Core) (h : Hub) : (putCore k c h).meter = h.meter := rfl

@[simp] theorem setBoot_boot (b : Boot) (h : Hub) : (setBoot b h).boot = b := rfl
@[simp] theorem setStu_stu (x : Stu) (h : Hub) : (setStu x h).stu = x := rfl
@[simp] theorem emit_outs (o : Out) (h : Hub) : (emit o h).outs = h.outs ++ [o] := rfl
@[simp] theorem onHub_hub (f : Hub → Hub) (s : State) : (onHub f s).hub = f s.hub := rfl
@[simp] theorem onHub_holes (f : Hub → Hub) (s : State) : (onHub f s).holes = s.holes := rfl
@[simp] theorem onHub_pending (f : Hub → Hub) (s : State) : (onHub f s).pending = s.pending := rfl

end Sys2Proof.Laws
end

