-- ==== Sys2Proof/Laws/Gate.lean ====
section
/-!
SUPPORT. The path of a register write (R25 to R43, R606, R607) and of a frame (R251 to R281): what an admitted one comes to.
-/
namespace Sys2Proof.Laws

open Machine Safety

theorem sent_refl (h : Hub) : SameButSent h h := ⟨[], rfl, by simp⟩

theorem sent_trans {a b c : Hub} (x : SameButSent a b) (y : SameButSent b c) : SameButSent a c := by
  obtain ⟨m, rfl, hm⟩ := x
  obtain ⟨n, rfl, hn⟩ := y
  refine ⟨m ++ n, by rw [List.foldl_append], ?_⟩
  intro o ho
  rcases List.mem_append.1 ho with h | h
  · exact hm o h
  · exact hn o h

theorem bridgeSend_sent (p k : Nat) (l : List Nat) (h : Hub) : SameButSent h (bridgeSend p k l h) :=
  ⟨[.bridge p k l], rfl, by simp [isBridge]⟩

theorem bridgeOne_sent (k : Nat) (l : List Nat) (h : Hub) : SameButSent h (bridgeOne k l h) := by
  unfold bridgeOne
  split
  · exact bridgeSend_sent _ k l h
  · exact sent_refl h

theorem bridgeAll_sent (k : Nat) (l : List Nat) (h : Hub) : SameButSent h (bridgeAll k l h) := by
  unfold bridgeAll
  generalize readyBridges h = ps
  induction ps generalizing h with
  | nil => exact sent_refl h
  | cons p t ih => exact sent_trans (bridgeSend_sent p k l h) (ih _)

theorem mirrorWrite_sent (p : PageInfo) (page off size v : Nat) (h : Hub) : SameButSent h (mirrorWrite p page off size v h) := by
  unfold mirrorWrite
  split
  · exact sent_refl h
  · dsimp only
    split
    · exact bridgeOne_sent _ _ h
    · exact sent_refl h

theorem foldl_sent {α : Type} (f : Hub → α → Hub) (hf : ∀ x a, SameButSent x (f x a)) (l : List α) :
    ∀ h, SameButSent h (l.foldl f h) := by
  induction l with
  | nil => exact sent_refl
  | cons a t ih => exact fun h => sent_trans (hf h a) (ih _)

theorem pairTell_sent (b h : Hub) : SameButSent h (pairTell b h) := by
  unfold pairTell
  split
  · exact sent_refl h
  · exact sent_trans (foldl_sent _ (fun x k => bridgeOne_sent _ _ x) _ _) (foldl_sent _ (fun x k => bridgeOne_sent _ _ x) _ _)

/-- A write that its gate lets through is performed, whatever it is, and the other member of a pair hears of it. -/
theorem regRow_put {r : Requester} {page off size v : Nat} {s : State} {p : PageInfo} (ha : admits r page off s = true)
    (hp : pageInfo (page % 0x1000) = some p) (hs : accessOk off size = true) :
    ∃ t, regRow r page off size v s = .next t ∧ t.pending = (regPut r p (page % 0x1000) off size v s).2.pending ∧
      t.holes = (regPut r p (page % 0x1000) off size v s).2.holes ∧
      SameButSent (regPut r p (page % 0x1000) off size v s).2.hub t.hub := by
  simp only [admits, hp, Bool.and_eq_true, beq_iff_eq, Bool.not_eq_true'] at ha
  obtain ⟨⟨⟨h1, h2⟩, h3⟩, h4, h5⟩ := ha
  refine ⟨_, rfl, ?_, ?_, ?_⟩
  · simp [pairSyncS, regWriteFrom, h1, regWrite, h2, hp, h3, hs, h4, h5, onHub]
  · simp [pairSyncS, regWriteFrom, h1, regWrite, h2, hp, h3, hs, h4, h5, onHub]
  · refine sent_trans ?_ (pairTell_sent _ _)
    simp only [regWriteFrom, h1, if_true, regWrite, h2, hp, h3, hs, h4, h5, onHub]
    exact mirrorWrite_sent _ _ _ _ _ _

/-- A write of a whole register. -/
theorem regPut_whole {r : Requester} {p : PageInfo} {page off size v : Nat} {s : State} {d : RegDef} {k : Nat}
    (h : regAt p off = some ⟨d, k, 0⟩) (lo : off < 0x800) (hw : d.width = size) (hs : size = 4 ∨ size = 8) :
    (regPut r p page off size v s).2 = putWhole r p page off d (v % 2 ^ (8 * size)) s := by
  have n : ¬ (0x800 ≤ off) := by omega
  rcases hs with rfl | rfl
  · simp [regPut, put4, h, hw, n]
  · simp [regPut, h, hw, n]

/-- The write of a whole register, through its gate. -/
theorem regRow_whole {r : Requester} {page off size v : Nat} {s : State} {p : PageInfo} {d : RegDef} {k : Nat}
    (ha : admits r page off s = true) (hp : pageInfo (page % 0x1000) = some p) (h : regAt p off = some ⟨d, k, 0⟩)
    (lo : off < 0x800) (hw : d.width = size) (hs : accessOk off size = true) :
    ∃ t, regRow r page off size v s = .next t ∧
      t.pending = (putWhole r p (page % 0x1000) off d (v % 2 ^ (8 * size)) s).pending ∧
      t.holes = (putWhole r p (page % 0x1000) off d (v % 2 ^ (8 * size)) s).holes ∧
      SameButSent (putWhole r p (page % 0x1000) off d (v % 2 ^ (8 * size)) s).hub t.hub := by
  have e : size = 4 ∨ size = 8 := by
    simp only [accessOk, Bool.or_eq_true, Bool.and_eq_true, beq_iff_eq] at hs
    omega
  have := regRow_put (v := v) ha hp hs
  rwa [regPut_whole h lo hw e] at this

end Sys2Proof.Laws
end

