-- ==== Sys2Proof/Laws/Mem.lean ====
section
/-!
SUPPORT. Memory: what a read gives after a write and after a clear, and that every operation keeps the canonical form.
-/
namespace Sys2Proof.Laws

open Machine

/-! ### The canonical form -/

theorem memWfFrom_mono {m : List Host.Cell} : ∀ {lo hi : Nat}, lo ≤ hi → memWfFrom hi m = true → memWfFrom lo m = true := by
  cases m with
  | nil => intros; rfl
  | cons c t =>
    intro lo hi h k
    simp only [memWfFrom, Bool.and_eq_true, decide_eq_true_eq] at k ⊢
    exact ⟨⟨le_trans h k.1.1, k.1.2⟩, k.2⟩

theorem memWfFrom_mem {m : List Host.Cell} : ∀ {lo : Nat}, memWfFrom lo m = true → ∀ c ∈ m, lo ≤ c.1 := by
  induction m with
  | nil => simp
  | cons c t ih =>
    intro lo k d hd
    simp only [memWfFrom, Bool.and_eq_true, decide_eq_true_eq] at k
    rcases List.mem_cons.1 hd with rfl | hd
    · exact k.1.1
    · exact le_trans (le_trans k.1.1 (Nat.le_succ _)) (ih k.2 d hd)

/-- Leaving cells out keeps the form. -/
theorem memWfFrom_filter (p : Host.Cell → Bool) {m : List Host.Cell} :
    ∀ {lo : Nat}, memWfFrom lo m = true → memWfFrom lo (m.filter p) = true := by
  induction m with
  | nil => simp [memWfFrom]
  | cons c t ih =>
    intro lo k
    simp only [memWfFrom, Bool.and_eq_true, decide_eq_true_eq] at k
    by_cases h : p c
    · rw [List.filter_cons_of_pos h]
      simp [memWfFrom, k.1.1, k.1.2, ih k.2]
    · rw [List.filter_cons_of_neg h]
      exact memWfFrom_mono (le_trans k.1.1 (Nat.le_succ _)) (ih k.2)

/-- Cells below an address, then cells from it on. -/
theorem memWfFrom_append {a : Nat} {n m : List Host.Cell} (hm : memWfFrom a m = true) :
    ∀ {lo : Nat}, lo ≤ a → memWfFrom lo n = true → (∀ c ∈ n, c.1 < a) → memWfFrom lo (n ++ m) = true := by
  induction n with
  | nil => intro lo h _ _; exact memWfFrom_mono h hm
  | cons c t ih =>
    intro lo _ k lt
    simp only [memWfFrom, Bool.and_eq_true, decide_eq_true_eq, List.cons_append] at k ⊢
    exact ⟨k.1, ih (lt c (by simp)) k.2 (fun d hd => lt d (by simp [hd]))⟩

theorem memCells_wf (bs : List Byte) : ∀ a, memWfFrom a (memCells a bs) = true := by
  induction bs with
  | nil => intro a; rfl
  | cons b t ih =>
    intro a
    by_cases h : b = memDefault
    · simp only [memCells, h, if_true]
      exact memWfFrom_mono (Nat.le_succ a) (ih (a + 1))
    · simp [memCells, memWfFrom, h, ih (a + 1)]

theorem memCells_lt (bs : List Byte) : ∀ a, ∀ c ∈ memCells a bs, c.1 < a + bs.length := by
  induction bs with
  | nil => simp [memCells]
  | cons b t ih =>
    intro a c hc
    have k := ih (a + 1) c
    simp only [List.length_cons]
    by_cases h : b = memDefault
    · simp only [memCells, h, if_true] at hc
      have := k hc
      omega
    · simp only [memCells, h, if_false, List.mem_cons] at hc
      rcases hc with rfl | hc
      · simp
      · have := k hc
        omega

theorem memWfFrom_above {m : List Host.Cell} {a : Nat} :
    ∀ {lo : Nat}, memWfFrom lo m = true → memWfFrom a (m.filter (fun c => decide (a ≤ c.1))) = true := by
  induction m with
  | nil => intros; rfl
  | cons c t ih =>
    intro lo k
    simp only [memWfFrom, Bool.and_eq_true, decide_eq_true_eq] at k
    by_cases h : a ≤ c.1
    · rw [List.filter_cons_of_pos (by simpa using h)]
      simp only [memWfFrom, Bool.and_eq_true, decide_eq_true_eq]
      exact ⟨⟨h, k.1.2⟩, memWfFrom_filter _ k.2⟩
    · rw [List.filter_cons_of_neg (by simpa using h)]
      exact ih k.2

theorem memPutN_wf (m : List Host.Cell) (a : Nat) (bs : List Byte) (h : Memory.wf m = true) :
    Memory.wf (memPutN m a bs) = true := by
  unfold Memory.wf memPutN at *
  rw [List.append_assoc]
  refine memWfFrom_append (a := a) ?_ (Nat.zero_le _) (memWfFrom_filter _ h) ?_
  · exact memWfFrom_append (a := a + bs.length) (memWfFrom_above h) (by omega) (memCells_wf bs a) (memCells_lt bs a)
  · intro c hc
    simpa using (List.mem_filter.1 hc).2

theorem memClear_wf (m : List Host.Cell) (a n : Nat) (h : Memory.wf m = true) : Memory.wf (memClear m a n) = true :=
  memWfFrom_filter _ h

theorem memFilter_wf (p : Host.Cell → Bool) (m : List Host.Cell) (h : Memory.wf m = true) : Memory.wf (m.filter p) = true :=
  memWfFrom_filter p h

theorem reset_mem_wf : Memory.wf State.reset.hub.mem = true := rfl

/-! ### Reads -/

theorem memGet_append (n m : List Host.Cell) (k : Nat) :
    memGet (n ++ m) k = if ∃ c ∈ n, c.1 = k then memGet n k else memGet m k := by
  induction n with
  | nil => simp
  | cons c t ih =>
    by_cases h : c.1 = k
    · simp [memGet, h]
    · simp [memGet, h, ih]

theorem memGet_none {m : List Host.Cell} {k : Nat} (h : ∀ c ∈ m, c.1 ≠ k) : memGet m k = memDefault := by
  induction m with
  | nil => rfl
  | cons c t ih =>
    have := h c (by simp)
    simp [memGet, this, ih (fun d hd => h d (by simp [hd]))]

theorem memGet_filter (p : Nat → Bool) (m : List Host.Cell) (k : Nat) :
    memGet (m.filter (fun c => p c.1)) k = if p k then memGet m k else memDefault := by
  induction m with
  | nil => simp [memGet]
  | cons c t ih =>
    by_cases h : p c.1
    · rw [List.filter_cons_of_pos (by simpa using h)]
      by_cases e : c.1 = k
      · subst e; simp [memGet, h]
      · simp [memGet, e, ih]
    · rw [List.filter_cons_of_neg (by simpa using h), ih]
      by_cases e : c.1 = k
      · subst e; simp [h]
      · simp [memGet, e]

theorem memGet_cells (bs : List Byte) : ∀ a k,
    memGet (memCells a bs) k = if a ≤ k ∧ k < a + bs.length then nth bs (k - a) memDefault else memDefault := by
  induction bs with
  | nil => intro a k; simp [memCells, memGet]
  | cons b t ih =>
    intro a k
    rcases Nat.lt_trichotomy a k with h | h | h
    · obtain ⟨j, rfl⟩ : ∃ j, k = a + 1 + j := ⟨k - (a + 1), by omega⟩
      have e : memGet (memCells a (b :: t)) (a + 1 + j) = memGet (memCells (a + 1) t) (a + 1 + j) := by
        have ne : ¬ a = a + 1 + j := by omega
        by_cases hb : b = memDefault <;> simp [memCells, memGet, hb, ne]
      have s1 : a + 1 + j - a = j + 1 := by omega
      rw [e, ih]
      simp only [List.length_cons, s1, nth, List.getD_cons_succ, Nat.add_sub_cancel_left]
      congr 1
      simp only [eq_iff_iff]
      omega
    · subst h
      by_cases hb : b = memDefault
      · simp [memCells, hb, ih, nth]
      · simp [memCells, hb, memGet, nth]
    · have ne : ¬ a = k := by omega
      have e : memGet (memCells a (b :: t)) k = memGet (memCells (a + 1) t) k := by
        by_cases hb : b = memDefault <;> simp [memCells, memGet, hb, ne]
      rw [e, ih, if_neg (by omega), if_neg (by omega)]

/-- A read after a write: the byte written, or what was there. -/
theorem memGet_put (m : List Host.Cell) (a : Nat) (bs : List Byte) (k : Nat) :
    memGet (memPutN m a bs) k = if a ≤ k ∧ k < a + bs.length then nth bs (k - a) memDefault else memGet m k := by
  unfold memPutN
  by_cases lo : k < a
  · rw [memGet_append, memGet_append]
    have h1 : memGet (m.filter (fun c => decide (c.1 < a))) k = memGet m k := by
      rw [memGet_filter (fun i => decide (i < a))]; simp [lo]
    have h2 : memGet (m.filter (fun c => decide (a + bs.length ≤ c.1))) k = memDefault := by
      rw [memGet_filter (fun i => decide (a + bs.length ≤ i))]; simp; intro; omega
    have h3 : memGet (memCells a bs) k = memDefault := by rw [memGet_cells, if_neg (by omega)]
    have g : (¬ ∃ c ∈ m.filter (fun c => decide (c.1 < a)), c.1 = k) → memGet m k = memDefault := by
      intro no
      rw [← h1]
      exact memGet_none (fun c hc e => no ⟨c, hc, e⟩)
    rw [if_neg (show ¬ (a ≤ k ∧ k < a + bs.length) by omega)]
    split
    · split
      · exact h1
      · rename_i _ no
        rw [h3]
        exact (g no).symm
    · rename_i no
      rw [h2]
      exact (g (fun ⟨c, hc, e⟩ => no ⟨c, by simp only [List.mem_append]; exact Or.inl hc, e⟩)).symm
  · rw [memGet_append, memGet_append]
    have none1 : ¬ ∃ c ∈ m.filter (fun c => decide (c.1 < a)), c.1 = k := by
      rintro ⟨c, hc, e⟩
      have := (List.mem_filter.1 hc).2
      simp only [decide_eq_true_eq] at this
      omega
    rw [if_neg none1]
    have h2 : memGet (m.filter (fun c => decide (a + bs.length ≤ c.1))) k = if a + bs.length ≤ k then memGet m k else memDefault := by
      rw [memGet_filter (fun i => decide (a + bs.length ≤ i))]; simp
    by_cases hi : k < a + bs.length
    · rw [if_pos (show a ≤ k ∧ k < a + bs.length by omega), h2, if_neg (show ¬ (a + bs.length ≤ k) by omega)]
      have h3 := memGet_cells bs a k
      rw [if_pos (show a ≤ k ∧ k < a + bs.length by omega)] at h3
      split
      · exact h3
      · rename_i no
        rw [← h3]
        refine (memGet_none (fun c hc e => no ⟨c, ?_, e⟩)).symm
        simp only [List.mem_append]
        exact Or.inr hc
    · rw [if_neg (show ¬ (a ≤ k ∧ k < a + bs.length) by omega), h2, if_pos (show a + bs.length ≤ k by omega)]
      rw [if_neg]
      rintro ⟨c, hc, e⟩
      simp only [List.mem_append] at hc
      rcases hc with hc | hc
      · exact none1 ⟨c, hc, e⟩
      · have := memCells_lt bs a c hc
        omega

theorem memGet_clear (m : List Host.Cell) (a n k : Nat) :
    memGet (memClear m a n) k = if a ≤ k ∧ k < a + n then memDefault else memGet m k := by
  unfold memClear
  rw [memGet_filter (fun i => decide (i < a ∨ a + n ≤ i))]
  by_cases h : a ≤ k ∧ k < a + n
  · rw [if_pos h, if_neg]; simp; omega
  · rw [if_neg h, if_pos]; simp; omega

theorem natRange_succ (a n : Nat) : natRange a (n + 1) = a :: natRange (a + 1) n := by
  simp only [natRange, List.range_succ_eq_map, List.map_cons, List.map_map, Nat.zero_add]
  congr 1
  apply List.map_congr_left
  intro i _
  simp only [Function.comp]
  omega

theorem memWalk_eq (n : Nat) : ∀ {a : Nat} {m : List Host.Cell}, memWfFrom a m = true →
    memWalk n a m = (natRange a n).map (memGet m) := by
  induction n with
  | zero => intros; rfl
  | succ n ih =>
    intro a m k
    rw [natRange_succ]
    cases m with
    | nil =>
      rw [memWalk, ih (m := []) rfl]
      rfl
    | cons c t =>
      obtain ⟨i, b⟩ := c
      simp only [memWfFrom, Bool.and_eq_true, decide_eq_true_eq] at k
      by_cases e : i = a
      · subst e
        rw [memWalk, if_pos rfl, ih k.2, List.map_cons]
        congr 1
        · simp [memGet]
        · apply List.map_congr_left
          intro j hj
          obtain ⟨x, _, rfl⟩ := List.mem_map.1 hj
          rw [memGet, if_neg (by omega)]
      · have k2 : memWfFrom (a + 1) ((i, b) :: t) = true := by
          simp only [memWfFrom, Bool.and_eq_true, decide_eq_true_eq]
          exact ⟨⟨by omega, k.1.2⟩, k.2⟩
        rw [memWalk, if_neg e, ih k2, List.map_cons, memGet, if_neg e]
        congr 1
        refine (memGet_none (fun d hd => ?_)).symm
        have := memWfFrom_mem k.2 d hd
        omega

/-- A read of n bytes is the n bytes. -/
theorem memGetN_eq (m : List Host.Cell) (a n : Nat) (h : Memory.wf m = true) :
    memGetN m a n = (natRange a n).map (memGet m) := by
  unfold memGetN
  have k : memWfFrom a (m.filter (fun c => decide (a ≤ c.1 ∧ c.1 < a + n))) = true := by
    have e : (m.filter (fun c => decide (a ≤ c.1 ∧ c.1 < a + n))) =
        (m.filter (fun c => decide (a ≤ c.1))).filter (fun c => decide (c.1 < a + n)) := by
      rw [List.filter_filter]
      apply List.filter_congr
      intro c _
      rw [Bool.decide_and, Bool.and_comm]
    rw [e]
    exact memWfFrom_filter _ (memWfFrom_above h)
  rw [memWalk_eq n k]
  apply List.map_congr_left
  intro j hj
  obtain ⟨x, hx, rfl⟩ := List.mem_map.1 hj
  have := List.mem_range.1 hx
  rw [memGet_filter (fun i => decide (a ≤ i ∧ i < a + n)), if_pos]
  simp only [decide_eq_true_eq]
  omega

end Sys2Proof.Laws
end

