-- ==== Sys2Proof/WellFormed.lean ====
section
/-!
DEFINITION. Well-formed commands: every operand fits the field the spec gives it. The machine takes ill-formed ones too:
what a register or frame does with a reserved or out-of-range field is the spec's to say, and its meanings say it.
-/
namespace Sys2Proof

/-- A number fits n bits. -/
def fits (bits n : Nat) : Bool := decide (n < 2 ^ bits)

/-- R246, R247: the header's widths and the payload's length. -/
def Frame.wf (f : Frame) : Bool :=
  fits 10 f.dstModule && fits 8 f.dstUnit && fits 10 f.srcModule && fits 8 f.srcUnit && fits 8 f.opcode && fits 3 f.tc &&
  fits 4 f.load && fits 4 f.plevel && fits 12 f.tenant && fits 16 f.asid && fits 16 f.seq && fits 16 f.tag && fits 57 f.addr &&
  decide (f.len ≤ 4096) && fits 8 f.status && fits 8 f.detail && fits 32 f.aux && fits 64 f.operand0 && fits 64 f.operand1 &&
  fits 48 f.issueTime && fits 6 f.hops && fits 32 f.scarry && (f.payload.length == 0 || f.payload.length == f.len)

/-- A register write fits its register, a frame its layout. -/
def Via.wf : Via → Bool
  | .reg _ _ _ value => fits 64 value
  | .frame _ f => f.wf

/-- R246, R496: one line of data, and its byte enables. -/
def lineOk (data : List Byte) : Bool := data.length == 64
def enablesOk (en : List Bool) : Bool := en.length == 64

/-- A command whose operands fit. -/
def Instr.wf (i : Instr) : Bool :=
  match i with
  | .registerWrite _ page off _ value => fits 13 page && fits 12 off && fits 64 value
  | .ownerWrite _ page value => fits 13 page && fits 64 value
  | .errInjectArm _ page value => fits 13 page && fits 64 value
  | .cntClear _ page value => fits 13 page && fits 64 value
  | .errStatusClear _ page _ bits => fits 13 page && fits 32 bits
  | .counterSlotWrite _ page _ _ value => fits 13 page && fits 64 value
  | .powerCeilingThrottle _ => true
  | .vaux3On => true
  | .vaux3Loss => true
  | .pwrEnRise => true
  | .pgOutRise => true
  | .pwrEnFall => true
  | .railFault => true
  | .modRstNAssert => true
  | .modRstNRelease => true
  | .hostPortReset _ _ => true
  | .bypassForceNLow => true
  | .thermalThrottle _ value => fits 64 value
  | .thermalTrip _ value => fits 64 value
  | .spdTempRead _ => true
  | .entdaa addr => fits 64 addr
  | .mctpControlMessage => true
  | .getInfo _ => true
  | .getStatus _ => true
  | .nipiebRegRead _ page off _ => fits 13 page && fits 12 off
  | .nipiebRegWrite _ page off _ value => fits 13 page && fits 12 off && fits 64 value
  | .setModuleId _ id => fits 32 id
  | .getModuleId _ => true
  | .bundleBegin _ _ => true
  | .bundleData _ off _ => fits 32 off
  | .bundleCommit _ => true
  | .bundleTransferTimeout => true
  | .nipiebFence _ => true
  | .nipiebUnfence _ => true
  | .armoireRead _ _ off _ => fits 32 off
  | .calendarSet _ _ => true
  | .calendarGet _ => true
  | .calendarHourlySave => true
  | .joinEn _ value => fits 64 value
  | .closeCmd _ value => fits 64 value
  | .pathStartLoopback _ => true
  | .loopbackQualPass _ => true
  | .loopbackQualFail _ => true
  | .pathOpenDrive _ => true
  | .switchSensedOpen _ => true
  | .openingTimeout _ => true
  | .joinPass _ => true
  | .joiningTimeout _ => true
  | .closingCondition _ => true
  | .switchSensedClosed _ => true
  | .closingTimeout _ => true
  | .ringRxpwrUpdate _ => true
  | .cold _ value => fits 64 value
  | .warm _ => true
  | .quiesceDone => true
  | .quiesceTimeout => true
  | .ledgerDone _ _ _ => true
  | .clockingDone => true
  | .coreSelfTestDone _ => true
  | .testingDone _ => true
  | .restoringDone _ _ => true
  | .t2InitDone => true
  | .cxlLinkUp _ _ _ => true
  | .cxlConfigRequest _ _ _ => true
  | .portDetectStart _ => true
  | .partnerDetected _ _ _ => true
  | .equaliseDone _ _ _ => true
  | .lanemapDone _ _ level module _ _ => fits 4 level && fits 10 module
  | .qualifySoakEnd _ _ _ => true
  | .linkLoss _ => true
  | .retryTimerExpiry _ => true
  | .nearLoopWrite _ _ value => fits 64 value
  | .defectAdd _ => true
  | .defectRemove _ => true
  | .translationWalkDone tenant asid vpn => fits 12 tenant && fits 16 asid && fits 57 vpn
  | .invalidateAll _ tenant asid count => fits 12 tenant && fits 16 asid && fits 16 count
  | .invalidateTenant _ tenant asid count => fits 12 tenant && fits 16 asid && fits 16 count
  | .invalidateAsid _ tenant asid count => fits 12 tenant && fits 16 asid && fits 16 count
  | .invalidateRange _ tenant asid count => fits 12 tenant && fits 16 asid && fits 16 count
  | .invalidationDone => true
  | .prewalkCmd _ tenant asid count => fits 12 tenant && fits 16 asid && fits 16 count
  | .stuFaultPop _ => true
  | .stuTenantBaseWrite _ value => fits 64 value
  | .lineReadFill line => fits 39 line
  | .homeTransactionStart line => fits 39 line
  | .promotionDone tile => fits 29 tile
  | .demotionDone tile => fits 29 tile
  | .freeingDone tile => fits 29 tile
  | .backgroundEviction => true
  | .ageEviction tile => fits 29 tile
  | .stampPatrol => true
  | .alloc _ tenant cls => fits 12 tenant && fits 3 cls
  | .free _ tenant cls => fits 12 tenant && fits 3 cls
  | .pin _ tenant cls => fits 12 tenant && fits 3 cls
  | .unpin _ tenant cls => fits 12 tenant && fits 3 cls
  | .promote _ tenant cls => fits 12 tenant && fits 3 cls
  | .demote _ tenant cls => fits 12 tenant && fits 3 cls
  | .evict _ tenant cls => fits 12 tenant && fits 3 cls
  | .setclass _ tenant cls => fits 12 tenant && fits 3 cls
  | .sealTiles _ tenant cls => fits 12 tenant && fits 3 cls
  | .hdrRead _ tenant cls => fits 12 tenant && fits 3 cls
  | .tierCmdDone => true
  | .tierCfgWrite _ value => fits 64 value
  | .classLimitWrite _ _ value => fits 64 value
  | .cursorDefine _ => true
  | .cursorRelease _ => true
  | .cursorDefWrite _ _ value => fits 64 value
  | .cursorAdvance via => via.wf
  | .drawerWorkDone _ => true
  | .cursorIdleExpiry _ => true
  | .drawerWrite _ _ => true
  | .drawerRead _ _ => true
  | .drawerDelete _ _ => true
  | .reportPop _ => true
  | .timeSync _ tx echoTx echoRx hops => fits 64 tx && fits 64 echoTx && fits 64 echoRx && fits 8 hops
  | .syncSendTimer => true
  | .syncLossTimeout => true
  | .masterTimeout => true
  | .read _ f => f.wf
  | .write _ f => f.wf
  | .writePosted _ f => f.wf
  | .atomicAdd _ f => f.wf
  | .atomicAnd _ f => f.wf
  | .atomicOr _ f => f.wf
  | .atomicXor _ f => f.wf
  | .atomicSwap _ f => f.wf
  | .atomicCas _ f => f.wf
  | .atomicSmin _ f => f.wf
  | .atomicSmax _ f => f.wf
  | .atomicUmin _ f => f.wf
  | .atomicUmax _ f => f.wf
  | .atomicFadd32 _ f => f.wf
  | .flush _ f => f.wf
  | .tileWrite _ f => f.wf
  | .tileWriteIncomplete => true
  | .regRead _ f => f.wf
  | .regWrite _ f => f.wf
  | .completion _ f => f.wf
  | .linkCtrl _ ack _ _ => fits 16 ack
  | .linkCtrlSendTimer _ => true
  | .replayTimeout _ => true
  | .frameForward _ f => f.wf
  | .deadTargetExpiry tag => fits 16 tag
  | .featureFloorWrite _ value => fits 64 value
  | .cohRdShared _ f => f.wf
  | .cohRdOwn _ f => f.wf
  | .cohUpgrade _ f => f.wf
  | .cohWb _ f => f.wf
  | .cohEvict _ f => f.wf
  | .cohHeartbeat _ f => f.wf
  | .cohFwdData _ f => f.wf
  | .snoopResponse _ f => f.wf
  | .cohAgentWrite _ _ value => fits 64 value
  | .agentHeartbeatTimeout _ => true
  | .walkDone => true
  | .leaseDefine _ _ term => fits 16 term
  | .leaseUndefine _ _ term => fits 16 term
  | .leaseRevoke _ _ term => fits 16 term
  | .leaseTake _ _ epoch => fits 32 epoch
  | .leaseRenew _ _ epoch => fits 32 epoch
  | .leaseGive _ _ epoch => fits 32 epoch
  | .leaseExpiry _ => true
  | .coreCtxBindWrite _ _ value => fits 64 value
  | .start _ _ => true
  | .stop _ _ => true
  | .reset _ _ => true
  | .work _ f => f.wf
  | .patternLoad _ _ _ count => fits 16 count
  | .patternLoadDone _ => true
  | .commandFence _ _ value => fits 64 value
  | .commandUnfence _ _ value => fits 64 value
  | .substitute _ _ value => fits 64 value
  | .coreDrainDone _ => true
  | .substitutionDone _ _ => true
  | .benchTest _ _ => true
  | .benchTestDone _ _ => true
  | .coreFaultPop _ _ => true
  | .coreSemWrite _ _ _ value => fits 64 value
  | .watchdog _ _ => true
  | .nop _ _ => true
  | .addi _ _ => true
  | .add _ _ => true
  | .sub _ _ => true
  | .mul _ _ => true
  | .and _ _ => true
  | .or _ _ => true
  | .xor _ _ => true
  | .shl _ _ => true
  | .shr _ _ => true
  | .movhi _ _ => true
  | .ld _ _ => true
  | .st _ _ => true
  | .csr _ _ => true
  | .beq _ _ => true
  | .bne _ _ => true
  | .blt _ _ => true
  | .bltu _ _ => true
  | .jmp _ _ => true
  | .loop _ _ => true
  | .mma _ _ => true
  | .vopAdd _ _ => true
  | .vopSub _ _ => true
  | .vopMul _ _ => true
  | .vopFma _ _ => true
  | .vopMax _ _ => true
  | .vopMin _ _ => true
  | .vopExp _ _ => true
  | .vopLog _ _ => true
  | .vopRecip _ _ => true
  | .vopRsqrt _ _ => true
  | .vopAdds _ _ => true
  | .vopMuls _ _ => true
  | .vopCvt _ _ => true
  | .vopQuantMx _ _ => true
  | .vopRsum _ _ => true
  | .vopRmax _ _ => true
  | .dma _ _ => true
  | .dmaIn _ _ => true
  | .dmaOut _ _ => true
  | .dmaAtomic _ _ => true
  | .dmaAdvance _ _ => true
  | .dmaPigeon _ _ => true
  | .engineCommandFinish _ _ => true
  | .lineBufferExpiry _ _ => true
  | .wait _ _ => true
  | .signal _ _ => true
  | .signalApply _ _ => true
  | .acquire _ _ => true
  | .release _ _ => true
  | .fence _ _ => true
  | .halt _ _ => true
  | .attend _ f => f.wf
  | .attendWaitExpiry _ => true
  | .attendDispatch => true
  | .push _ f => f.wf
  | .append _ f => f.wf
  | .spill _ f => f.wf
  | .fetch _ f => f.wf
  | .offer _ f => f.wf
  | .accept _ f => f.wf
  | .decline _ f => f.wf
  | .withdraw _ f => f.wf
  | .offerTimeout _ _ => true
  | .whoOwns _ f => f.wf
  | .ticketRelease _ f => f.wf
  | .create _ f => f.wf
  | .mirrorCreate _ f => f.wf
  | .mirrorUpdate _ f => f.wf
  | .probe _ f => f.wf
  | .mirrorDrop _ f => f.wf
  | .mirrorRequest _ f => f.wf
  | .forceRelease _ => true
  | .setOwner _ => true
  | .dropMirror _ => true
  | .gather _ f => f.wf
  | .pool _ f => f.wf
  | .scatter _ f => f.wf
  | .emuApplyDone _ => true
  | .tableLoad _ _ => true
  | .tableUnload _ _ => true
  | .migStart _ => true
  | .migCopyDone => true
  | .migFreezeDone => true
  | .cutover _ f => f.wf
  | .query _ f => f.wf
  | .insert _ f => f.wf
  | .delete _ f => f.wf
  | .indexLoad _ _ => true
  | .indexUnload _ _ => true
  | .tombScanDone _ => true
  | .mergeStart _ _ _ _ => true
  | .mergeAbort _ _ => true
  | .mergeCommit => true
  | .memrd _ _ hpa tag => fits 64 hpa && fits 16 tag
  | .memrddata _ _ hpa tag => fits 64 hpa && fits 16 tag
  | .memspecrd _ _ hpa tag => fits 64 hpa && fits 16 tag
  | .memwr _ _ hpa tag data _ => fits 64 hpa && fits 16 tag && lineOk data
  | .memwrptl _ _ hpa tag data enables _ => fits 64 hpa && fits 16 tag && lineOk data && enablesOk enables
  | .identifyMemoryDevice _ _ => true
  | .getEventRecords _ _ => true
  | .clearEventRecords _ _ _ => true
  | .getDynamicCapacityConfiguration _ _ => true
  | .getDynamicCapacityExtentList _ _ => true
  | .addDynamicCapacityResponse _ _ _ => true
  | .releaseDynamicCapacity _ _ _ => true
  | .getLdInfo _ => true
  | .getQosControl _ => true
  | .setQosControl _ _ _ _ _ _ _ => true
  | .getQosStatus _ _ => true
  | .getQosAllocatedBw _ _ count => fits 16 count
  | .setQosAllocatedBw _ _ _ => true
  | .getQosBwLimit _ _ count => fits 16 count
  | .setQosBwLimit _ _ _ => true
  | .getDcdInfo _ => true
  | .getHostDcRegionConfiguration _ _ => true
  | .setDcRegionConfiguration _ _ _ _ => true
  | .getDcRegionExtentLists _ _ => true
  | .initiateDynamicCapacityAdd _ _ _ => true
  | .initiateDynamicCapacityRelease _ _ _ _ => true
  | .drainTimeout _ _ => true
  | .hdmDecoderCommit _ _ _ base _ dpa _ => fits 64 base && fits 45 dpa
  | .cxlpLdWrite _ _ value => fits 64 value
  | .openModeWrite _ _ value => fits 64 value
  | .poolSubmit via => via.wf
  | .poolAbort via => via.wf
  | .fill => true
  | .copy => true
  | .compare => true
  | .reduce => true
  | .poolPieceDone _ => true
  | .meterClear _ => true
  | .meterSnapshot _ => true
  | .snapshotDone => true
  | .meterSample => true
  | .pigeonSend via _ => via.wf
  | .pigeonPop _ _ value => fits 64 value
  | .pigeonFlush via => via.wf
  | .pigeonClear _ _ _ => true
  | .wheelSlotDue => true
  | .shaperReconfigure _ _ value => fits 64 value
  | .scrubPatrol _ _ _ _ => true
  | .retireCopy tile => fits 29 tile
  | .laneBerLimit _ _ _ _ => true
  | .faultHistoryFlush => true
  | .injectT0Line _ _ => true
  | .injectT1Line _ _ => true
  | .injectT2Block _ _ => true
  | .injectScratchpad _ _ => true
  | .injectYumerLane _ _ => true
  | .injectSwitchFrame _ _ => true
  | .injectPoison _ _ => true
  | .counterSave => true
  | .monitorReading _ => true
  | .fittingDue => true
  | .run _ => true
  | .monitorsDone _ => true
  | .linksDone _ => true
  | .memoryDone _ => true
  | .fittingCommit _ => true
  | .getVersion _ => true
  | .getCapabilities _ => true
  | .negotiateAlgorithms _ => true
  | .getDigests _ => true
  | .getCertificate _ _ off _ => fits 32 off
  | .challenge _ _ _ => true
  | .getMeasurements _ _ _ _ => true
  | .keyExchange _ _ _ => true
  | .finish _ id => fits 32 id
  | .heartbeat _ id => fits 32 id
  | .keyUpdate _ id => fits 32 id
  | .endSession _ id => fits 32 id
  | .vendorDefinedRequest _ id _ _ => fits 32 id
  | .twinHello _ _ serial _ _ => fits 64 serial
  | .twinHeartbeat _ _ _ _ => true
  | .twinHeartbeatSend => true
  | .twinReg _ page off _ value addr => fits 13 page && fits 12 off && fits 64 value && fits 64 addr
  | .twinCtrl _ _ _ => true
  | .twinLinkingTimeout => true
  | .twinSyncingTimeout => true
  | .twinHeartbeatTimeout => true
  | .bypassForceNHigh => true
  | .cxlPerstNRelease _ => true
  | .throttleEnd _ value => fits 64 value
  | .ctrlEnableWrite _ page value => fits 13 page && fits 64 value
  | .errMaskWrite _ page _ value => fits 13 page && fits 64 value
  | .frameCrcFail _ f _ => f.wf
  | .reservedOpcode _ f => f.wf
  | .nipiebUnsupported _ _ => true
  | .freeMapRebuildDone => true

end Sys2Proof
end

