-- ==== Sys2Proof/Tests/Slice0.lean ====
section
/-!
SUPPORT. Small checks of the model, and a witness of the hypotheses of each statement.
-/
namespace Sys2Proof.Tests

open Machine Safety

set_option Elab.async false

/-! ### Small states -/

/-- A module that serves: phase Ready, on its rails, with a sideband address. -/
def up : State := { hub := { boot := { phase := .ready }, pins := { vaux3 := true, pwrEn := true, modRstN := true, pgOut := true },
                             side := { dynAddr := some 8 } } }

/-- up with a change of the hub. -/
def upWith (f : Hub → Hub) : State := onHub f up

/-- The state a command answers. -/
def after (c : Instr) (s : State) : State :=
  match exec c s with
  | .next t => t
  | _ => s

/-- A write by the fabric manager. -/
def fm : Requester := .sideband

theorem test_reset_idles : (match step State.reset with | .next t => t.hub.clock | _ => 0) = 1 := by decide

theorem test_no_word_spells_a_command : decodeTableWord 8 0 = none ∧ State.reset.withFetchWord 8 0 = State.reset := by decide

theorem test_empty_queue_witness : State.reset.pending = [] ∧ State.reset.hub.boot.phase = .held := by decide

theorem test_holes_bounded_witness : HolesBounded State.reset := by decide

/-! ### Power, sensors, bring-up, page commands -/

theorem test_rails : let s := upWith (fun h => { h with pins := { h.pins with pgOut := false, thermTripN := true }, boot := { h.boot with phase := .held } })
    (after .pgOutRise s).hub.boot.phase = .ledger ∧ (after .modRstNRelease (onHub (fun h => { h with pins := { h.pins with pgOut := true } }) s)).hub.boot.phase = .ledger ∧
    (after .vaux3Loss up).hub.side = {} ∧ (after .vaux3On State.reset).hub.time.calStale = true ∧ State.reset.hub.pins.vaux3 = false := by decide

theorem test_cxl_trains : let s := upWith (fun h => { h with pins := { h.pins with perst0N := true } })
    (after (.cxlLinkUp 0 true 5) s).hub.cxl0.width = 4 ∧ (after (.cxlConfigRequest 0 3 true) s).hub.outs = [.cxlIo 0 3 0] := by decide

theorem test_power_falls : (after .pwrEnFall up).hub.boot.phase = .held ∧ (after .railFault up).hub.mem = [] ∧
    (after .modRstNAssert up).hub.boot.kind = 1 ∧ up.hub.pins.pgOut = true ∧ up.hub.pins.modRstN = true := by decide +kernel

theorem test_sensors : throttlePoint (.hbm 2) = some 95 ∧ tripPoint (.hbm 2) = some 105 ∧
    (after (.thermalThrottle (.hbm 2) 95) up).hub.ras.throttled = [.hbm 2] ∧
    (after (.throttleEnd (.hbm 2) 90) (after (.thermalThrottle (.hbm 2) 95) up)).hub.ras.throttled = [] ∧
    (after (.powerCeilingThrottle 1500) up).hub.ras.throttled = [.power] ∧ up.hub.pathA.st = .bypassed ∧ up.hub.pathB.st = .bypassed := by decide +kernel

/-- A module in a phase. -/
def inPhase (p : Phase) : State := upWith (fun h => { h with boot := { h.boot with phase := p }, clock := 30000000 })
def goodReport : TestReport := ⟨[], [], [], [], false, 0, []⟩

theorem test_phases : (after .quiesceDone (inPhase .quiescing)).hub.boot.phase = .ledger ∧ (after .quiesceTimeout (inPhase .quiescing)).hub.boot.phase = .ledger ∧
    (after (.ledgerDone false false false) (inPhase .ledger)).hub.boot.phase = .clocking ∧
    (after .clockingDone (inPhase .clocking)).hub.boot.phase = .testing ∧ (after (.coreSelfTestDone []) (inPhase .testing)).hub.boot.coreTested = true ∧
    (inPhase .restoring).hub.boot.phase = .restoring ∧
    (after .t2InitDone up).hub.boot.t2Done = true := by decide +kernel

theorem test_testing_done : let s := onHub (fun h => { h with boot := { h.boot with coreTested := true } }) (inPhase .testing)
    s.hub.boot.phase = .testing ∧ goodReport.hbmFailed = [] ∧ goodReport.bankFailed = false ∧ s.hub.armoire.defect = [] ∧ s.hub.boot.warm = false := by decide +kernel

theorem test_page_commands : let s := upWith (fun h => { h with armoire := { h.armoire with defect := [defectEntry 1 3 7] } })
    let o := upWith (fun h => { h with pathA := { h.pathA with st := .joined, drive := true, sense := true } })
    admits fm 0x348 0x100 s = true ∧ admits fm 0x348 0x40 s = true ∧ admits fm 0x15 0x40 s = true ∧ admits fm 0x330 0x40 s = true ∧
    admits fm 0x338 0x40 s = true ∧ closable o.hub.pathA.st = true ∧ (getPort 5 s.hub).st = .disabled ∧
    fld (defectEntry 1 3 7) 59 58 ≠ 0 ∧ (after (.closeCmd fm 3) o).hub.pathA.st = .closing := by decide +kernel

theorem test_warm_and_cold : (after (.warm fm) up).hub.boot.phase = .quiescing ∧ (after (.cold fm 0) up).hub.boot.phase = .ledger ∧
    locOk 1 7 = true ∧ (after (.defectAdd fm) (onHub (putReg 0x338 0x58 (w64 (mkFld 63 60 1 + 7))) up)).hub.armoire.defect.length = 1 := by decide +kernel

theorem test_header_commands : (∀ off ∈ [0x38, 0x10, 0x1C, 0x18, 0x28, 0x800], admits fm 0xB0 off up = true) ∧ 
    up.hub.twin.en = false ∧ (pageInfo 0xB0).map (fun p => (counterClass p 0, (errBits p ||| 0x1B).testBit 0)) = some (1, true) ∧ regBit 0xB0 0x10 0 up.hub = true ∧ regBit 0xB0 0x30 14 up.hub = false := by
  decide +kernel

/-! ### Well-formed commands -/

theorem test_well_formed : (Instr.registerWrite fm 0x1FFF 0xFFF 8 (2 ^ 64 - 1)).wf = true ∧ (Instr.read 5 {}).wf = true ∧
    (Instr.memwr 0 3 0 0 (List.replicate 64 0#8) false).wf = true ∧ (Instr.alloc fm 4095 7).wf = true := by decide

theorem test_ill_formed_writes : (Instr.registerWrite fm 0x2000 0 8 0).wf = false ∧ (Instr.registerWrite fm 0 0x1000 8 0).wf = false ∧
    (Instr.registerWrite fm 0 0 8 (2 ^ 64)).wf = false ∧ (Instr.errStatusClear fm 0 false (2 ^ 32)).wf = false ∧
    (Instr.nipiebRegRead {} 0x2000 0 4).wf = false ∧ (Instr.cursorAdvance (.reg fm 0 8 (2 ^ 64))).wf = false := by decide

theorem test_ill_formed_operands : (Instr.alloc fm 4096 0).wf = false ∧ (Instr.alloc fm 0 8).wf = false ∧
    (Instr.invalidateAsid fm 0 (2 ^ 16) 1).wf = false ∧ (Instr.invalidateAsid fm 0 0 (2 ^ 16)).wf = false ∧ (Instr.promotionDone (2 ^ 29)).wf = false ∧
    (Instr.lineReadFill (2 ^ 39)).wf = false ∧ (Instr.lanemapDone 0 false 16 0 0 none).wf = false ∧ (Instr.leaseTake fm 0 (2 ^ 32)).wf = false ∧
    (Instr.memwr 0 3 0 0 [] false).wf = false ∧ (Instr.memwrptl 0 3 0 0 (List.replicate 64 0#8) [] false).wf = false := by decide

/-- Each field of the header, one bit too wide, and a payload of another length than LEN. -/
theorem test_ill_formed_frames : ∀ f ∈ ([{ dstModule := 1024 }, { dstUnit := 256 }, { srcModule := 1024 }, { srcUnit := 256 }, { opcode := 256 }, { tc := 8 },
      { load := 16 }, { plevel := 16 }, { tenant := 4096 }, { asid := 65536 }, { seq := 65536 }, { tag := 65536 }, { addr := 2 ^ 57 }, { len := 4097 },
      { status := 256 }, { detail := 256 }, { aux := 2 ^ 32 }, { operand0 := 2 ^ 64 }, { operand1 := 2 ^ 64 }, { issueTime := 2 ^ 48 }, { hops := 64 },
      { scarry := 2 ^ 32 }, { len := 2, payload := [1] }] : List Frame), (Instr.read 5 f).wf = false := by decide

/-! ### Ring paths and port training -/

/-- up as module 5, path A in a state of its own. -/
def onPath (p : RingPath) (f : Hub → Hub := id) : State := upWith (fun h => f { putReg 0 0x50 0x80000005 h with pathA := p })

def portsReady (h : Hub) : Hub := putPort 2 { st := .ready } (putPort 0 { st := .ready } h)

theorem test_path_start : let s := onPath {} (putReg 0x348 0x40 1)
    joinEn .a s.hub = true ∧ moduleValid s.hub = true ∧ closingCond s.hub = false ∧
    (after (.pathStartLoopback .a) s).hub.pathA.st = .loopback := by decide

theorem test_loopback_ends : let s := onPath { st := .loopback } portsReady
    (∀ p ∈ pathPorts .a, (getPort p s.hub).st = .ready) ∧
    (after (.loopbackQualPass .a) s).hub.pathA = { st := .qualified, qual := true } ∧
    (after (.loopbackQualFail .a) s).hub.pathA.st = .refused ∧
    regBit 0x348 0x18 17 (after (.loopbackQualFail .a) s).hub = true := by decide

theorem test_path_opens : let s := onPath { st := .qualified, qual := true } (putReg 0x348 0x40 1)
    (getPath .b s.hub).st ∉ [.opening, .joining] ∧ closingCond s.hub = false ∧ joinEn .a s.hub = true ∧
    (after (.pathOpenDrive .a) s).hub.pathA = { st := .opening, qual := true, drive := true } := by decide

theorem test_sensed : (after (.switchSensedOpen .a) (onPath { st := .opening, drive := true })).hub.pathA =
      { st := .joining, drive := true, sense := true } ∧
    (after (.switchSensedClosed .a) (onPath { st := .closing, sense := true, qual := true })).hub.pathA = { st := .bypassed } := by
  decide

/-- A path 10 s after it entered its state. -/
def late (st : PathState) (b : Bool) : State := onPath { st := st, drive := true, sense := b } (fun h => { h with clock := 10000000000 })

theorem test_path_timeouts : (after (.openingTimeout .a) (late .opening false)).hub.pathA = { st := .closing, since := 10000000000 } ∧
    (after (.joiningTimeout .a) (late .joining true)).hub.pathA = { st := .closing, sense := true, since := 10000000000 } ∧
    regBit 0x348 0x18 16 (after (.closingTimeout .a) (late .closing true)).hub = true := by decide

theorem test_path_joins : let s := onPath { st := .joining, sense := true, drive := true } portsReady
    (after (.joinPass .a) s).hub.pathA.st = .joined := by decide

theorem test_path_closes : let s := onPath { st := .joined, sense := true, drive := true } (fun h => { h with pins := { h.pins with bypassForceN := false } })
    closingCond s.hub = true ∧ closable (getPath .a s.hub).st = true ∧
    (after (.closingCondition .a) s).hub.pathA = { st := .closing, sense := true } := by decide

/-- up with port 5 in a state of its own. -/
def onPort (o : Port) (f : Hub → Hub := id) : State := upWith (fun h => f (putPort 5 o (putReg 0 0x50 0x80000005 h)))

theorem test_detect_and_equalise : let s := onPort {} (putReg 0x15 0x10 1)
    enabled 0x15 s.hub = true ∧ portMayStart 5 s.hub = true ∧ (getPort 5 (after (.portDetectStart 5) s).hub).st = .detect ∧
    (getPort 5 (after (.partnerDetected 5 8 9) (onPort { st := .detect })).hub).st = .equalise ∧
    (after (.partnerDetected 5 7 9) (onPort { st := .detect })).hub = (onPort { st := .detect }).hub := by decide

theorem test_equalise_ends : let s := onPort { st := .equalise }
    let t := onPort { st := .equalise, txRetired := some 3 }
    portOutcome (getPort 5 s.hub) [] [] = (.pass, .pass) ∧ portOutcome (getPort 5 s.hub) [8] [] = (.retire 8, .pass) ∧
    portOutcome (getPort 5 s.hub) [] [0] = (.pass, .retire 0) ∧ (portOutcome (getPort 5 s.hub) [0, 8] []).1 = .retry ∧
    (portOutcome (getPort 5 t.hub) [8] []).1 = .second ∧
    (getPort 5 (after (.equaliseDone 5 [] []) s).hub).st = .laneMap ∧
    (getPort 5 (after (.equaliseDone 5 [8] []) s).hub).txRetired = some 8 ∧
    (getPort 5 (after (.equaliseDone 5 [8] []) t).hub).secondFail = true ∧
    regBit 0x330 0x18 22 (after (.equaliseDone 5 [8] []) t).hub = true := by decide

theorem test_lane_map : let s := onPort { st := .laneMap }
    let o (l m : Nat) := getPort 5 (after (.lanemapDone 5 true l m 0 none) s).hub
    isRingPort 5 = false ∧ bindMode 5 s.hub ≠ 2 ∧ s.hub.twin.en = false ∧
    (o 1 6).st = .qualify ∧ (o 3 6).level = 2 ∧ (o 1 6).partnerModule = 6 ∧ (o 0 6).st = .retry ∧ (o 4 6).st = .retry ∧ (o 2 5).st = .retry := by
  decide

theorem test_ring_loopback : let s := onPath { st := .loopback } (putPort 0 { st := .laneMap })
    (getPort 0 (after (.lanemapDone 0 true 2 5 0 (some 2)) s).hub).st = .qualify ∧
    (after (.lanemapDone 0 true 2 5 0 none) s).hub.pathA.st = .refused := by decide

theorem test_bridge_port : let s := onPort {} (fun h => putPort 8 { st := .laneMap } { h with
      twin := { h.twin with en := true, role := 1 }, armoire := { h.armoire with moduleId := some 5 } })
    bindMode 8 s.hub = 2 ∧ (getPort 8 (after (.lanemapDone 8 true 2 5 0 none) s).hub).st = .qualify ∧
    (getPort 8 (after (.lanemapDone 8 true 2 5 1 none) s).hub).st = .retry := by decide

theorem test_ready_and_after : (getPort 5 (after (.qualifySoakEnd 5 [] []) (onPort { st := .qualify })).hub).st = .ready ∧
    (getPort 5 (after (.linkLoss 5) (onPort { st := .ready })).hub).st = .detect ∧
    (let s := onPort { st := .retry } (fun h => { h with clock := 1000000000 })
     (getPort 5 (after (.retryTimerExpiry 5) s).hub).st = .detect) ∧
    (let s := onPort { st := .retry, secondFail := true } (fun h => { h with clock := 1000000000 })
     (getPort 5 (after (.retryTimerExpiry 5) s).hub).st = .disabled) := by decide

theorem test_rx_power : let s := onPath { st := .joined } (putReg 0x348 0x5C 0xF0)
    let t := after (.ringRxpwrUpdate [0x88]) s
    (getPort 0 t.hub).rxPower = 0x88 ∧ (getPort 3 t.hub).rxPower = 0x80 ∧
    powerOf 0x88 < powerOf (regFld 0x348 0x5C 7 0 s.hub) ∧ regBit 0x348 0x18 19 t.hub = true := by decide

theorem test_lane_ber : let s := onPort { st := .ready } (fun h => putReg 0x300 0x40 0 (putReg 0x300 0x10 1 h))
    let t := onPort { st := .ready } (fun h => putReg 0x300 0x40 8 (putReg 0x300 0x10 1 h))
    enabled 0x300 s.hub = true ∧ regBit 0x300 0x40 3 s.hub = false ∧ regBit 0x300 0x40 3 t.hub = true ∧
    (getPort 5 (after (.laneBerLimit 5 true 0 false) s).hub).st = .ready ∧
    (getPort 5 (after (.laneBerLimit 5 true 8 false) t).hub).st = .equalise := by decide

/-! ### Registers and the STU -/

theorem test_undefined_addresses : pageHome 0x5 up.hub = .mine 0x5 ∧ pageInfo 0x5 = none ∧
    (pageInfo 0x10).any (fun p => (regAt p 0x60).isNone && (regAt p 0x64).isNone && counterClass p 12 == 0) = true ∧
    accessOk 0x60 8 = true ∧ hiddenPage 0x10 up.hub = false ∧ fenceHides 0x10 up.hub = false ∧ isFm fm = true := by decide

theorem test_register_write : (pageInfo 0x40).any (fun p => p.blk == .switch &&
      (regAt p 0x40).any (fun d => d.byte == 0 && d.reg.width == 4)) = true ∧ admits fm 0x40 0x40 up = true ∧
    getReg 0x40 0x40 (after (.registerWrite fm 0x40 0x40 4 0x1FF8) up).hub = 0x1F00 := by decide

theorem test_register_refused : let ld : Requester := .ld 0 3
    let s := upWith (fun h => { h with cxl0 := { h.cxl0 with up := true } })
    reaches ld s.hub = true ∧ (pageInfo 0xA0).any (fun p => !mayWrite ld p 0xA0 0x40 s.hub && !pairBlank p s.hub) = true ∧
    regBit 0xA0 0x18 1 (after (.registerWrite ld 0xA0 0x40 4 1) s).hub = true ∧ accessOk 0x42 4 = false ∧
    regBit 0xA0 0x18 0 (after (.registerWrite ld 0xA0 0x42 4 1) s).hub = true ∧
    hiddenPage 0xA0 State.reset.hub = true ∧ reaches fm State.reset.hub = false := by decide

theorem test_tenant_base : let off := upWith (putReg 0xA0 0x10 0)
    admits fm 0xA0 0x48 up = true ∧ enabled 0xA0 up.hub = true ∧
    regBit 0xA0 0x18 18 (after (.stuTenantBaseWrite fm 0x80000000) up).hub = true ∧
    admits fm 0xA0 0x48 off = true ∧ enabled 0xA0 off.hub = false ∧ getReg 0xA0 0x48 off.hub &&& ~~~ (w64 (maskOf 45 16)) = 0 ∧
    getReg 0xA0 0x48 (after (.stuTenantBaseWrite fm 0x8000FFFF) off).hub = 0x80000000 := by decide

theorem test_fault_pop : let s := upWith (fun h => { h with stu := { h.stu with faults := [⟨1, 2⟩, ⟨3, 4⟩] } })
    admits fm 0xA0 0x60 s = true ∧ shows 0xA0 0x60 s = some 0x20000 ∧ (after (.stuFaultPop fm) s).hub.stu.faults = [⟨3, 4⟩] ∧
    (after (.stuFaultPop fm) up).hub.stu.faults = [] := by decide

theorem test_invalidate : let s := upWith (fun h => { h with stu := { h.stu with leaves := [⟨7, 1, 0, 2097152, 0x73, false⟩, ⟨8, 1, 0, 2097152, 0x73, false⟩] } })
    let t := after (.invalidateTenant fm 7 0 0) s
    admits fm 0xA1 0x48 s = true ∧ s.hub.stu.invs = [] ∧ t.hub.stu.leaves = [⟨8, 1, 0, 2097152, 0x73, false⟩] ∧ t.hub.stu.issuedSeq = 1 ∧
    (after .invalidationDone t).hub.stu.doneSeq = 1 ∧ (after .invalidationDone t).hub.stu.invs = [] := by decide

theorem test_invalidate_full : let s := upWith (fun h => { h with stu := { h.stu with invs := List.replicate 16 ⟨0, 0, 0, 0, 0, 1, true, []⟩ } })
    regBit 0xA1 0x18 16 (after (.invalidateRange fm 7 1 4095) s).hub = true := by decide

theorem test_prewalk : let s := upWith (putReg 0xA2 0x40 0x40000000)
    let full := upWith (fun h => { h with stu := { h.stu with prewalks := List.replicate 16 ⟨0, 0, 0, 1⟩ } })
    admits fm 0xA2 0x48 s = true ∧ pfWalks s.hub.stu < pfLimit s.hub ∧ findLeaf 7 1 0x40000000 s.hub = none ∧
    walking 7 1 512 (after (.prewalkCmd fm 7 1 2) s).hub.stu = true ∧
    regBit 0xA2 0x18 16 (after (.prewalkCmd fm 7 1 2) full).hub = true := by decide

/-- A walk of TVA 0 of tenant 7, ASID 1, whose last table is cached and maps 2 MiB at 2^30. -/
def walkState (again : Bool) : State := upWith (fun h => { h with
  mem := [(0x80001000, 0x73), (0x80001003, 0x40)], tier := { h.tier with tiles := [(0x8000, { st := .lower, codec := true, lens := [63, 63] })] }
  stu := { h.stu with walks := [⟨7, 1, 0, true, again⟩], nonLeaves := [⟨7, 1, 0, levelTag 0 0, 0x80001000⟩] } })

set_option maxRecDepth 100000 in
theorem test_walk_done :
    (walkPage 7 1 0 (walkState false).hub).1.toOption = some (0x40000073, 2097152) ∧
    (after (.translationWalkDone 7 1 0) (walkState false)).hub.stu.leaves = [⟨7, 1, 0, 2097152, 0x40000073, false⟩] ∧
    (after (.translationWalkDone 7 1 0) (walkState true)).hub.stu.leaves = [] ∧
    (after (.translationWalkDone 7 1 0) (walkState true)).hub.stu.walks = [] := by decide

/-! ### Tiers -/

/-- up with four slots, ceilings of four, tile 9 as given and tier commands aimed at it. -/
def tierUp (v : Tile) (f : Hub → Hub := id) : State := upWith (fun h =>
  f (putReg 0x90 0x140 9 (putReg 0x90 0x80 0x400000000 { h with tier := { h.tier with slots := 4, tiles := [(9, v)], granules := 1000 }, boot := { h.boot with t2Done := true } })))

/-- The result and progress of the first tier command. -/
def tierEnd (c : Instr) (s : State) : List (Nat × Option Nat) := (after c s).hub.tier.cmds.map (fun x => (x.done, x.result))
def tileAfter (c : Instr) (s : State) : Tile := getTile 9 (after c s).hub

theorem test_tier_witness : let s := tierUp { st := .upper }
    admits fm 0x90 0x148 s = true ∧ enabled 0x90 s.hub = true ∧ s.hub.tier.cmds = [] ∧ fld (getReg 0x90 0x140 s.hub) 63 48 ≤ 1 ∧
    fld (getReg 0x90 0x140 s.hub) 28 0 = 9 ∧ lockRefused 9 s.hub = false ∧ usedOf 0 s.hub < ceilingOf 0 s.hub ∧
    slotsUsed s.hub < s.hub.tier.slots ∧ findRun (imageGranules (imageUnits 9 s.hub)) s.hub ≠ none := by decide

theorem test_alloc : (tileAfter (.alloc fm 7 0) (tierUp {})).owner = 7 ∧ (tileAfter (.alloc fm 7 0) (tierUp {})).st = .upper ∧
    tierEnd (.alloc fm 7 0) (tierUp { st := .lower }) = [(1, some 0)] := by decide

set_option maxRecDepth 100000 in
theorem test_free : (tileAfter (.free fm 7 0) (tierUp { st := .clean })).st = .freeing ∧
    tierEnd (.free fm 7 0) (tierUp { st := .clean, pins := 1 }) = [(0, some 2)] ∧
    tierEnd (.free fm 7 0) (tierUp {}) = [(1, some 0)] := by decide

theorem test_pin : (tileAfter (.pin fm 0 0) (tierUp { st := .upper, pins := 254 })).pins = 255 ∧
    tierEnd (.pin fm 0 0) (tierUp {}) = [(0, some 5)] ∧ tierEnd (.pin fm 0 0) (tierUp { st := .upper, pins := 255 }) = [(0, some 4)] ∧
    (tileAfter (.unpin fm 0 0) (tierUp { st := .upper, pins := 1 })).pins = 0 := by decide

set_option maxRecDepth 100000 in
theorem test_promote : (tileAfter (.promote fm 0 0) (tierUp { st := .lower })).st = .promoting ∧
    (tileAfter (.demote fm 0 0) (tierUp { st := .upper })).st = .demoting ∧
    tierEnd (.demote fm 0 0) (tierUp { st := .clean }) = [(1, some 0)] := by decide

set_option maxRecDepth 100000 in
theorem test_evict : (tileAfter (.evict fm 0 0) (tierUp { st := .clean })).st = .lower ∧
    tierEnd (.evict fm 0 0) (tierUp { st := .clean, pins := 1 }) = [(0, some 2)] := by decide

theorem test_setclass : (tileAfter (.setclass fm 0 3) (tierUp { st := .lower })).cls = 3 ∧
    (tileAfter (.setclass fm 0 3) (tierUp { st := .upper })).cls = 3 := by decide

theorem test_hdr_read : tierEnd (.hdrRead fm 0 0) (tierUp { st := .upper }) = [(1, some 0)] ∧
    tierEnd (.sealTiles fm 0 0) (tierUp { st := .upper, sealed := 1 }) = [(1, some 0)] ∧
    tierEnd (.hdrRead fm 0 0) (tierUp {}) = [(0, some 5)] := by decide

theorem test_tier_queue : let c : TierCmd := ⟨3, 9, 1, 3, 0, 0, 1, false, some 0⟩
    let s := tierUp {} (fun h => { h with tier := { h.tier with cmds := [c] } })
    let full := tierUp {} (fun h => { h with tier := { h.tier with cmds := List.replicate 16 c } })
    serving s.hub = true ∧ (after .tierCmdDone s).hub.tier.doneSeq = 3 ∧ (after .tierCmdDone s).hub.tier.cmds = [] ∧
    regBit 0x90 0x160 0 (after .tierCmdDone s).hub = true ∧ regBit 0x90 0x18 18 (after (.pin fm 0 0) full).hub = true := by decide

theorem test_tier_regs : admits fm 0x90 0x40 up = true ∧ admits fm 0x90 0xF0 up = true ∧
    regBit 0x90 0x18 19 (after (.tierCfgWrite fm 1) up).hub = true ∧
    getReg 0x90 0x40 (after (.tierCfgWrite fm 1) (upWith (putReg 0x90 0x10 0))).hub = 1 ∧
    regBit 0x90 0x18 17 (after (.classLimitWrite fm 7 1) up).hub = true ∧
    getReg 0x90 0xF0 (after (.classLimitWrite fm 7 0x100000000) up).hub = 0x100000000 := by decide

theorem test_tier_moves : let t := tierUp { st := .freeing } (fun h => { h with mem := [(0x8FFFF, 1), (0x90000, 2), (0x9FFFF, 3), (0xA0000, 4)] })
    storeRuns t.hub = true ∧ recalling 9 t.hub = false ∧
    tileAfter (.freeingDone 9) t = {} ∧ (after (.freeingDone 9) t).hub.mem = [(0x8FFFF, 1), (0xA0000, 4)] := by decide

set_option maxRecDepth 100000 in
theorem test_evictions : let s := tierUp { st := .clean } (fun h => putReg 0x90 0x44 4 { h with tier := { h.tier with ageQ := [9] } })
    let t := upWith (fun h => putReg 0x90 0x40 0x01010881 (putReg 0x90 0x100 1 { h with clock := 100000000000, tier := { h.tier with tiles := [(9, { st := .clean })] } }))
    regFld 0x90 0x40 31 24 s.hub ≠ 0 ∧ slotsFree s.hub < regFld 0x90 0x44 23 0 s.hub ∧ backgroundVictim s.hub = some 9 ∧
    (tileAfter .backgroundEviction s).st = .lower ∧ evictable (getTile 9 t.hub) = true ∧ ageLimitOf 0 t.hub = 1 ∧ 1 ≤ ageOf (getTile 9 t.hub) t.hub ∧
    floorOf 0 t.hub < usedOf 0 t.hub ∧ (tileAfter (.ageEviction 9) t).st = .lower := by decide

theorem test_stamp_patrol : let s := tierUp { st := .upper, stamp := 5 }
    (tileAfter .stampPatrol s).stamp = 2 ^ 32 - 2 ^ 30 := by decide

theorem test_free_map : let s := upWith (fun h => { h with ras := { h.ras with freeMapBad := true } })
    (after .freeMapRebuildDone s).hub.ras.freeMapBad = false := by decide

/-- A read of line 4608, the first of tile 9, from a client port. -/
def lineRead : Req := { id := 3, src := .frame 5, frame := { opcode := 1, len := 128 }, off := 0x90000 }

theorem test_line_fill : let s := tierUp { st := .upper } (fun h => { h with coh := { h.coh with txs := [⟨lineRead, [4608], [], .fill, false, false, false⟩] } })
    inT0 4608 (after (.lineReadFill 4608) s).hub = true ∧ (after (.lineReadFill 4608) s).hub.coh.txs = [] := by decide

theorem test_home_start : let s := tierUp { st := .upper } (fun h => { h with coh := { h.coh with waiting := [lineRead] } })
    4608 ∈ reqLines lineRead ∧ (after (.homeTransactionStart 4608) s).hub.coh.waiting = [] ∧
    (after (.homeTransactionStart 4608) s).hub.coh.txs = [⟨lineRead, [4608], [], .fill, false, false, false⟩] := by decide

theorem test_moves_witness : ∀ st ∈ [TileState.promoting, .demoting], let s := tierUp { st := st }
    storeRuns s.hub = true ∧ s.hub.tier.cmds = [] ∧ s.hub.coh.txs = [] ∧ s.hub.coh.filter = [] ∧ s.hub.coh.waiting = [] ∧
    recalling 9 s.hub = false ∧ s.hub.ras.freeMapBad = false ∧ (getTile 9 s.hub).next = .stay ∧ (getTile 9 s.hub).sealed = 0 := by decide

/-! ### Cursors, time and links -/

/-- up with cursor 3 as given, of 8 positions a step, and selected. -/
def curUp (c : Cursor) (f : Hub → Hub := id) : State :=
  upWith (fun h => f (putReg 0xB0 0x44 3 { h with cur := { h.cur with cursors := [(3, { c with defn := 7 + 2 ^ 48 })] }, devTime := 1000000 }))

theorem test_cursor_define : let s := curUp {}
    admits fm 0xB0 0x60 s = true ∧ regFld 0xB0 0x44 5 0 s.hub = 3 ∧ (getCursor 3 (after (.cursorDefine fm) s).hub).st = .armed ∧
    regBit 0xB0 0x18 17 (after (.cursorDefine fm) (curUp { st := .running })).hub = true ∧
    (getCursor 3 (after (.cursorRelease fm) (curUp { st := .running, step := 4, pos := 5 })).hub).step = 0 := by decide

theorem test_cursor_def_write : admits fm 0xB0 0x48 up = true ∧ admits fm 0xB0 0x50 up = true ∧
    (getCursor 3 (after (.cursorDefWrite fm true (2 ^ 64 - 1)) (curUp {})).hub).bind = 0x3FFFFF7 ∧
    regBit 0xB0 0x18 17 (after (.cursorDefWrite fm false 0) (curUp { st := .armed })).hub = true := by decide

theorem test_cursor_advance : let v := 2 * 2 ^ 32 + 7 * 2 ^ 16 + 3
    let s := curUp { st := .armed }
    let t := curUp { st := .running, step := 2, pos := 6 }
    admits fm 0xB0 0x80 s = true ∧ advAllowed (getCursor 3 s.hub) (.reg fm) s.hub = true ∧
    (getCursor 3 (after (.cursorAdvance (.reg fm 0 8 v)) s).hub).pos = 7 ∧ posDist 2 6 2 7 8 = some 1 ∧
    (getCursor 3 (after (.cursorAdvance (.reg fm 0 8 v)) t).hub).pos = 7 ∧
    (getCursor 3 (after (.cursorAdvance (.reg fm 0 8 v)) (curUp { st := .running, step := 3 })).hub).step = 3 := by decide

set_option maxRecDepth 100000 in
theorem test_cursor_denied : let ld : Requester := .ld 0 2
    let s := curUp { st := .armed } (fun h => { h with cxl0 := { h.cxl0 with up := true } })
    admits ld 0xB0 0x80 s = true ∧ advAllowed (getCursor 3 s.hub) (.reg ld) s.hub = false ∧
    regBit 0xB0 0x18 18 (after (.cursorAdvance (.reg ld 0 8 3)) s).hub = true := by decide

set_option maxRecDepth 100000 in
theorem test_cursor_idle : let s := curUp { st := .running } (fun h => { h with devTime := 2000000, cur := { h.cur with holds := [⟨0, 3, 9, 0, 0⟩] } })
    let t := after (.cursorIdleExpiry 3) s
    serving s.hub = true ∧ (getCursor 3 t.hub).st = .stalled ∧ t.hub.cur.holds = [] ∧ regBit 0xB0 0xE8 2 t.hub = true := by decide

/-- A PREFETCH drawer of cursor 3 at position 1 staged, kind as given. -/
def staged (kind : Nat) (h : Hub) : Hub := putReg 0xB0 0xA8 (w64 (3 * 2 ^ 58 + kind * 2 ^ 54)) (putReg 0xB0 0xA0 (w64 (2 ^ 32 + 2 ^ 16)) h)

theorem test_drawer_write : let s := curUp { st := .armed } (staged 1)
    admits fm 0xB0 0xC0 s = true ∧ drawerBusy 4095 s.hub = false ∧
    (Tab.get? (after (.drawerWrite fm 4095) s).hub.cur.drawers 4095).isSome = true ∧
    (after (.drawerWrite fm 0) (curUp { st := .armed } (staged 6))).hub.cur.result = 2 := by decide

theorem test_drawer_read : let d : Drawer := { w0 := 5, w1 := 0, w2 := 6, w3 := 0 }
    let s := curUp {} (fun h => { h with cur := { h.cur with drawers := [(9, d)] } })
    getReg 0xB0 0xB0 (after (.drawerRead fm 9) s).hub = 6 ∧ (after (.drawerDelete fm 9) s).hub.cur.drawers = [] ∧
    (after (.drawerRead fm 8) s).hub.cur.result = 3 ∧ (after (.drawerDelete fm 8) s).hub.cur.result = 3 := by decide

/-- A firing of drawer 9 with its work done. -/
def doneRun (late : Option Nat) : DrawerRun :=
  { drawer := 9, cursor := 3, tenant := 0, kind := 3, dueStep := 1, duePos := 1, relStep := 1, relPos := 1, todo := [], lateAt := late }

set_option maxRecDepth 100000 in
theorem test_drawer_done : let s (l : Option Nat) := curUp {} (fun h => { h with cur := { h.cur with runs := [doneRun l] } })
    drawerBusy 9 (s none).hub = true ∧ (after (.drawerWrite fm 9) (s none)).hub.cur.result = 1 ∧
    (after (.drawerWorkDone 9) (s none)).hub.cur.runs = [{ doneRun none with doneAt := some 1000000 }] ∧
    (after (.drawerWorkDone 9) (s (some 5))).hub.cur.reports.length = 1 := by decide

theorem test_report_pop : let s := curUp {} (fun h => { h with cur := { h.cur with reports := [⟨1, 2⟩] } })
    admits fm 0xB0 0xE0 s = true ∧ (after (.reportPop fm) s).hub.cur.reports = [] := by decide

/-- up with sync on, and bridge port 8 of a pair as given. -/
def linkUp (o : Port) (f : Hub → Hub := id) : State :=
  upWith (fun h => f (putPort 8 { o with st := .ready } { putReg 1 0x48 1 h with twin := { h.twin with en := true }, devTime := 1000000000 }))

theorem test_time_sync : let s := linkUp {}
    let t := after (.timeSync 8 1000000100 999999000 999999500 2) s
    syncEn s.hub = true ∧ syncPort 8 s.hub = true ∧ 0 < syncOffset 999999000 999999500 1000000100 s.hub.devTime ∧
    t.hub.time.sync = 1 ∧ t.hub.time.hops = 3 ∧ t.hub.devTime = 1000000300 ∧
    (after (.timeSync 8 5 0 0 2) s).hub.devTime = 1000000000 ∧ (after .syncSendTimer s).hub.outs.length = 1 := by decide

theorem test_sync_losses : let s := linkUp {} (fun h => { h with time := { h.time with sync := 1 } })
    let t := linkUp {} (putReg 1 0x48 3)
    (after .syncLossTimeout s).hub.time.sync = 2 ∧ masterEn t.hub = true ∧ (after .masterTimeout t).hub.time.sync = 3 := by decide

/-- A frame sent at time 0 with the sequence number and replays given. -/
def kept (seq n : Nat) : SentFrame := { frame := { seq := seq }, sentAt := 0, replays := n }

theorem test_link_ctrl : let s := linkUp { replay := [kept 5 0, kept 6 0] }
    let t := after (.linkCtrl 8 5 none [1, 2]) s
    s.hub.egress = [] ∧ (getPort 8 t.hub).replay = [kept 6 0] ∧ (getPort 8 t.hub).credits = [1, 2, 0, 0, 0, 0, 0, 0] ∧
    (getPort 8 (after (.linkCtrlSendTimer 8) s).hub).granted = List.replicate 8 132 := by decide

theorem test_replay : (after (.replayTimeout 8) (linkUp { replay := [kept 5 2] })).hub.outs = [.frame 8 { seq := 5 }] ∧
    (getPort 5 (after (.replayTimeout 5) (onPort { st := .ready, replay := [kept 5 3] } (fun h => { h with devTime := 20000 }))).hub).st = .detect := by
  decide

theorem test_bad_frame : let s := linkUp { rxSeq := 7 }
    portReady 8 s.hub = true ∧ (getPort 8 (after (.frameCrcFail 8 {} 1) s).hub).discarding = true ∧
    regBit 0x18 0x18 21 (after (.frameCrcFail 8 { seq := 7 } 3) s).hub = true := by decide

theorem test_dead_target : let o : Outstanding := { frame := { tag := 7, srcUnit := 0x88 }, issued := 0, purpose := .notify }
    let s := upWith (fun h => { h with outstanding := [o], devTime := 1000000000 })
    storeRuns s.hub = true ∧ o.issued + deadBound s.hub ≤ s.hub.devTime ∧ (after (.deadTargetExpiry 7) s).hub.outstanding = [] ∧
    regBit 0x40 0x18 16 (after (.deadTargetExpiry 7) s).hub = true := by decide

theorem test_tile_write_incomplete : let s := upWith (fun h => { h with devTime := 1000000000, assemblies := [⟨5, 0xC0, 1, 0, 0, [], false, 4⟩] })
    (after .tileWriteIncomplete s).hub.assemblies = [] := by decide

/-! ### Frames for STORE, coherence and leases -/

/-- Module 5 with client port 5 Ready for units 0xC0 to 0xCF, tenant 0 in GSA mode, agent 2 at unit 0xC1, tile 0x8000 Upper. -/
def serve : State := upWith (fun h => putPort 5 { st := .ready } (putReg 0x15 0x58 (w64 (2 ^ 31 + 16 * 2 ^ 24 + 0xC0 * 2 ^ 16)) (putReg 0x348 0x100 0x201 <| putReg 0 0x50 0x80000005
  { h with stu := { h.stu with tenants := [(0, 3, 0)] }, tier := { h.tier with tiles := [(0x8000, { st := .upper })] }
           coh := { h.coh with agents := [(2, { st := .active, en := true, module := 5, unit := 0xC1 })] } })))

/-- A frame from agent 0xC1 for a unit of the module. -/
def frameTo (u : Nat) : Frame := { dstModule := 5, dstUnit := u, srcModule := 5, srcUnit := 0xC1, plevel := 1, tag := 7 }

/-- A GSA-mode frame for store byte 0x80000080. -/
def storeAt : Frame := { frameTo 0x80 with asid := 0xFFFF, addr := 5 * 2 ^ 46 + 0x80000080 }

def withT0 (f : State) : State := onHub (fun h => { h with coh := { h.coh with t0 := [(0x1000001, .clean)] } }) f

theorem test_store_read : (getTile (tileOf 0x80000080) serve.hub).st = .upper ∧ serve.hub.coh.filter = [] ∧
    meetsStore 5 (asOp 1 { storeAt with len := 64 }) 0x80000080 (withT0 serve) = true ∧
    (∀ l ∈ linesOf 0x80000080 64, inT0 l (withT0 serve).hub = true) := by decide

theorem test_store_writes : meetsStore 5 (asOp 2 { storeAt with len := 2, payload := [1, 2] }) 0x80000080 serve = true ∧
    meetsStore 5 (asOp 3 { storeAt with len := 1, payload := [1], posted := true }) 0x80000080 serve = true := by decide

theorem test_store_atomics : (∀ op ∈ [1, 2, 3, 4, 5, 6, 7, 8, 9, 10], ∀ w ∈ [0, 256],
      meetsStore 5 (asAux op (asOp 4 { storeAt with aux := w })) 0x80000080 serve = true) ∧
    meetsStore 5 (asAux 16 (asOp 4 storeAt)) 0x80000080 serve = true ∧ anyPoison 0x80000080 8 serve.hub = false := by decide

set_option maxRecDepth 100000 in
theorem test_flush : let f := frameTo 0x80
    meetsUnit 5 (asOp 5 f) 0x80 serve = true ∧ f.posted = false ∧ serve.hub.shapers = [] ∧
    ((after (.flush 5 f) serve).hub.egress.map (fun q => q.frame.opcode)) = [0x20] := by decide

set_option maxRecDepth 100000 in
theorem test_tile_write : let f : Frame := { storeAt with addr := 5 * 2 ^ 46 + 0x80000000, aux := 16, len := 128, payload := List.replicate 128 0#8, scarry := scarryOf (List.replicate 128 0#8) }
    meetsStore 5 (asOp 6 f) 0x80000000 serve = true ∧ serve.hub.assemblies = [] ∧
    (after (.tileWrite 5 f) serve).hub.assemblies.length = 1 := by decide

theorem test_coherence : agentIndex 5 0xC1 serve.hub = some 2 ∧ 0x80000080 % 128 = 0 ∧
    meetsStore 5 (asOp 0x50 storeAt) 0x80000080 (withT0 serve) = true ∧ inT0 (lineOf 0x80000080) (withT0 serve).hub = true ∧
    meetsStore 5 (asOp 0x51 storeAt) 0x80000080 serve = true ∧ meetsStore 5 (asOp 0x52 storeAt) 0x80000080 serve = true := by decide

set_option maxRecDepth 100000 in
theorem test_write_back : let s := onHub (fun h => { h with coh := { h.coh with filter := [(0x1000001, ⟨some 2, 0⟩)] } }) serve
    s.hub.coh.filter = [(lineOf 0x80000080, ⟨some 2, 0⟩)] ∧
    meetsStore 5 (asOp 0x53 { storeAt with len := 128, payload := List.replicate 128 1#8 }) 0x80000080 s = true ∧
    meetsStore 5 (asOp 0x54 { storeAt with posted := true }) 0x80000080 s = true := by decide

theorem test_heartbeat : let f : Frame := { frameTo 0x80 with posted := true }
    meetsUnit 5 (asOp 0x55 f) 0x80 serve = true ∧ formOk (asOp 0x55 f) = true := by decide

theorem test_snoop_response : let x : HomeTx := ⟨{ id := 1, src := .tileRecall false, frame := {} }, [0x1000001], [⟨7, 0x1000001, 2, 2, 0, true⟩], .snoops, false, false, false⟩
    let s := onHub (fun h => { h with coh := { h.coh with txs := [x] } }) serve
    meetsUnit 5 (toUnit 0x89 (asOp 0x20 { frameTo 0x89 with posted := true })) 0x89 s = true ∧
    (after (.snoopResponse 5 { frameTo 0x89 with posted := true, aux := 1 }) s).hub.coh.txs = [] := by decide

theorem test_fwd_data : let f : Frame := { frameTo 0xC4 with posted := true }
    frameTaken 5 (asOp 0x5A f) serve.hub = true ∧ agentPort 0xC4 serve.hub = some 5 ∧ 0xC0 ≤ f.dstUnit := by decide

theorem test_agents : let s := upWith (fun h => putReg 0x60 0x40 (w64 (2 * 65536)) { h with devTime := 2000, coh := { h.coh with agents := [(3, { st := .active, unit := 9 })] } })
    let t := after (.agentHeartbeatTimeout 3) s
    admits fm 0x60 0x178 s = true ∧ (getAgent 15 (after (.cohAgentWrite fm 15 (0xC1 * 2 ^ 18 + 5 * 256 + 1)) s).hub).unit = 0xC1 ∧
    15 < agentCount s.hub ∧ regBit 0x60 0x18 17 (after (.cohAgentWrite fm 3 1) s).hub = true ∧
    regFld 0x60 0x40 31 16 s.hub = 2 ∧ (getAgent 3 t.hub).st = .lost ∧ t.hub.coh.walks = [3] ∧ (getAgent 3 (after .walkDone t).hub).st = .walked := by
  decide

/-- serve with lease 9 as given, and logical device 1 of port 0 up. -/
def leased (l : Lease) : State := onHub (fun h => putReg 0x60 0x68 (w64 (2 * 2 ^ 48 + 0x8000)) { h with
  devTime := 5000000, cxl0 := { h.cxl0 with up := true }, coh := { h.coh with leases := if l.st = .undefined then [] else [(9, l)] } }) serve

theorem test_lease_definitions : let s := leased {}
    admits fm 0x60 0x70 s = true ∧ regFld 0x60 0x68 28 0 s.hub = 0x8000 ∧ max 1 (regFld 0x60 0x68 63 48 s.hub) = 2 ∧
    leaseUsable 9 s.hub = true ∧ s.hub.ras.injection = none ∧
    (getLease 9 s.hub).st = .undefined ∧ (getLease 9 (leased { st := .idle }).hub).st = .idle ∧
    regBit 0x60 0x18 20 (after (.leaseUndefine fm 9 0) s).hub = true := by decide

theorem test_lease_holders : let s := leased { st := .held, holder := .ld 0 0 1, epoch := 4, termMs := 5 }
    admits (.ld 0 1) 0x60 0x78 s = true ∧ holderOf (.ld 0 1) s.hub = some (.ld 0 0 1) ∧ enabled 0x60 s.hub = true ∧ leaseUsable 9 s.hub = true ∧ s.hub.ras.injection = none ∧
    (getLease 9 s.hub).started + 1000000 * (getLease 9 s.hub).termMs ≤ s.hub.devTime := by decide

/-! ### Register frames, the switch, tickets and mirrors -/

set_option maxRecDepth 100000 in
theorem test_reg_frames : let f : Frame := { frameTo 0x81 with addr := 0x50, len := 8 }
    meetsUnit 5 (asOp 8 f) 0x81 serve = true ∧ regFormOk (asOp 8 f) = true ∧
    (let g : Frame := { f with payload := List.replicate 8 1#8, scarry := scarryOf (List.replicate 8 1#8) }
     meetsUnit 5 (asOp 9 g) 0x81 serve = true ∧ regFormOk (asOp 9 g) = true ∧ poisonedControl (asOp 9 g) = false) ∧ pairJoined serve.hub = false := by decide +kernel

set_option maxRecDepth 100000 in
theorem test_completion : let f : Frame := { frameTo 0x80 with posted := true }
    meetsUnit 5 (asOp 0x20 f) f.dstUnit serve = true ∧ serve.hub.cur.runs = [] ∧ serve.hub.cloak.attends = [] ∧
    (let o : Outstanding := ⟨{ srcUnit := 0x80, tag := 7 }, 0, .notify⟩
     (after (.completion 5 f) (onHub (fun h => { h with outstanding := [o] }) serve)).hub.outstanding = [] ∧
     regBit 0xB8 0x18 17 (after (.completion 5 { f with status := stDenied }) (onHub (fun h => { h with outstanding := [o] }) serve)).hub = true ∧
     regBit 0x40 0x18 19 (after (.completion 5 f) (onHub (fun h => { h with deadTags := [⟨0x80, 7, 10 ^ 9⟩] }) serve)).hub = true) := by decide +kernel

set_option maxRecDepth 100000 in
theorem test_forward : let f : Frame := { frameTo 0x80 with opcode := 1, dstModule := 9 }
    frameTaken 5 f serve.hub = true ∧ f.dstModule ≠ moduleId serve.hub ∧
    (∀ e ∈ [((0, 0), Routed.ring true), ((2, 4), .client 4), ((3, 0), .dead)], routeOf 9 none (frameNoted 5 f
      { serve.hub with routes := [(9, { v := true, kind := e.1.1, port := e.1.2 })] }) = e.2) ∧
    (let g : Frame := { frameTo 0x80 with opcode := 0x33 }
     meetsUnit 5 g 0x80 serve = true ∧ definedOpcode g.opcode = false) := by decide +kernel

/-- serve with a ticket at index 3, and one mirror entry in slot 2; the tables' tiles in T1. -/
def cloaked (t : Ticket) : State := onHub (fun h => putReg 0xB8 0x10 1 <| putReg 0xB8 0x50 (w64 0x80010000) <| putReg 0xB8 0x58 (w64 0x80020000) <|
  putReg 0xB8 0x40 (w64 (1000 * 2 ^ 32 + 0x101)) <| putReg 0xB8 0x60 (w64 (0x8100 + 64 * 2 ^ 32))
  { h with tier := { h.tier with tiles := [(0x8000, { st := .upper }), (0x8001, { st := .upper }), (0x8002, { st := .upper })] }
           cloak := { tickets := [(3, t)], mirrors := [(2, { t with st := .mirror, mirrorModule := 8 })] } }) serve

def aTicket : Ticket := { st := .held, gen := 1, ownerM := 5, ownerU := 0xC1, takerM := 5, takerU := 0xC1, refs := 1, maxTokens := 1000, d := 1, fmt := 6 }

/-- A ticket operation on index 3 of module 5. -/
def ticketOp (more : List Byte) : Frame :=
  let bs := bytesLE 8 (tidOf 3 5 5 0 1) ++ bytesLE 8 0 ++ more
  { frameTo 0x83 with len := bs.length, payload := bs, scarry := scarryOf bs }

set_option maxRecDepth 100000 in
theorem test_ticket_held :
    meetsTicket 5 (ticketOp (bytesLE 8 64)) 0x08 false 3 aTicket (cloaked aTicket) = true ∧
    meetsTicket 5 (ticketOp []) 0x0C false 3 aTicket (cloaked aTicket) = true ∧
    meetsTicket 5 (ticketOp []) 0x0D false 3 aTicket (cloaked aTicket) = true ∧
    meetsTicket 5 (ticketOp []) 0x0D false 3 { aTicket with refs := 0 } (cloaked { aTicket with refs := 0 }) = true ∧
    meetsTicket 5 (ticketOp []) 0x04 false 3 aTicket (cloaked aTicket) = true ∧ meetsTicket 5 (ticketOp []) 0x05 false 3 aTicket (cloaked aTicket) = true := by
  decide +kernel

set_option maxRecDepth 100000 in
theorem test_ticket_offered : let t : Ticket := { aTicket with st := .offered }
    ∀ op ∈ [0x09, 0x0A, 0x0B], meetsTicket 5 (ticketOp []) op false 3 t (cloaked t) = true := by decide +kernel

/-- cloaked with module 9 reached over the ring's east port 2, which is Ready. -/
def withRoute (s : State) : State := onHub (fun h => putPort 2 { st := .ready } { h with routes := [(9, { v := true })] }) s

def mirrorOp (op : Nat) (e : Ticket) : Frame :=
  let bs := bytesLE 8 e.tid ++ ticketBytes e
  { frameTo 0x83 with srcModule := 9, srcUnit := 0x83, asid := 0xFFFF, aux := op, len := 72, payload := bs, scarry := scarryOf bs }

set_option maxRecDepth 100000 in
theorem test_push : let t := aTicket
    let w := bytesLE 8 1 ++ bytesLE 8 0
    let f : Frame := { ticketOp (bytesLE 8 (2 ^ 32) ++ bytesLE 8 0) with len := 32 }
    meetsTicket 5 f 0x02 false 3 t (cloaked t) = true ∧ w.length = 16 ∧ reachable 5 0xC1 (cloaked t).hub = true ∧
    nbits (leAt f.payload 16 8) 63 32 = 1 ∧ t.d < 3 ∧ t.fmt ∈ [4, 5, 6] := by decide +kernel

/-- cloaked with room in T1 for its arena. -/
def roomy (s : State) : State := onHub (fun h => putReg 0x90 0xA0 (w64 (100 * 2 ^ 32)) { h with tier := { h.tier with slots := 100 } }) s

def createOp : Frame :=
  let bs := bytesLE 8 (2 ^ 24 + 6 * 2 ^ 26) ++ bytesLE 4 100 ++ bytesLE 4 0
  { frameTo 0x83 with len := 16, payload := bs, scarry := scarryOf bs }

set_option maxRecDepth 100000 in
theorem test_create : let s := roomy (cloaked aTicket)
    let g := toUnit 0x83 (asAux 0x10 (asOp 0x11 createOp))
    let h0 := meterAdd 0 6 1 (atUnit 5 g s.hub)
    meetsWork 5 g 0x83 s = true ∧ enabled clPage s.hub = true ∧ createBad g s.hub = false ∧ (createTicket g 0 0 h0).runTiles = 2 ∧
    nextIndex h0 = some 0 ∧ arenaFind 2 h0 = some 0x8100 ∧ (writeLists (createTicket g 0 0x8100 h0) h0).isSome = true := by decide +kernel

set_option maxRecDepth 100000 in
theorem test_append : let t : Ticket := { aTicket with runBase := 0x8100, runTiles := 9 }
    let s := onHub (fun h => { h with tier := { h.tier with tiles := h.tier.tiles ++ (natRange 0x8100 9).map (fun k => (k, { st := .upper })) } }) (cloaked t)
    let bs := bytesLE 8 0 ++ List.replicate 512 3#8
    let f : Frame := { ticketOp bs with scarry := scarryOf (ticketOp bs).payload }
    meetsTicket 5 f 0x03 false 3 t s = true ∧ appendLenOk f t = true ∧ t.runTiles = t.runLen ∧
    (memRead (t.base + t.record 0 0) 4 s.hub).2 = false ∧ ofBytesLE (memRead (t.base + t.record 0 0) 4 s.hub).1 = leAt f.payload 16 4 := by decide +kernel

/-- An attention request for tokens 0 to 1 of the ticket's first head, its service context on core 4. -/
def attendOp : Frame :=
  let bs := bytesLE 8 (tidOf 3 5 5 0 1) ++ bytesLE 8 (2 ^ 24 + 2 ^ 29 + 6 * 2 ^ 32 + 6 * 2 ^ 36) ++ bytesLE 8 (2 ^ 32) ++ bytesLE 8 0 ++ bytesLE 8 0 ++ bytesLE 8 0 ++
    List.replicate 256 0#8
  { frameTo 0x83 with len := 304, payload := bs, scarry := scarryOf bs }

set_option maxRecDepth 100000 in
theorem test_attend : let s := onHub (fun h => putReg 0xB8 0x200 (w64 (2 ^ 31 + 4 * 8)) { h with boot := { h.boot with coreMap := List.range 64 } }) (cloaked aTicket)
    let g := toUnit 0x83 (asAux 1 (asOp 0x11 attendOp))
    meetsWork 5 g 0x83 s = true ∧ attendLenOk g = true ∧ svcAny s.hub = true ∧ cloakFind (reqWord g 0) s.hub = .here false 3 aTicket ∧
    attendBadDesc g aTicket = false := by decide +kernel

/-- A mirror copy of a ticket of module 9, in slot 2 of module 5. -/
def aCopy : Ticket := { aTicket with st := .mirror, gen := 1, mirrorModule := 9, tid := tidOf 7 9 5 2 1 }

set_option maxRecDepth 100000 in
theorem test_mirror : let s := roomy (withRoute (onHub (fun h => { h with cloak := { h.cloak with mirrors := [(2, aCopy)] } }) (cloaked aTicket)))
    (∀ op ∈ [0x20, 0x21, 0x23], let g := toUnit 0x83 (asAux op (asOp 0x11 (mirrorOp op aCopy)))
      meetsWork 2 g 0x83 s = true ∧ mirrorOk 2 g (atUnit 2 g s.hub) = true) ∧
    (let g := toUnit 0x83 (asAux 0x22 (asOp 0x11 (mirrorOp 0x22 { aTicket with tid := tidOf 3 5 9 0 1 })))
     meetsWork 2 g 0x83 s = true ∧ mirrorOk 2 g (atUnit 2 g s.hub) = true) ∧
    freeSlot s.hub = some 0 ∧ arenaFind (entryOf (mirrorOp 0x20 aCopy).payload).runLen s.hub = some 0x8100 ∧
    plainTile (tileOf (cloakTable true s.hub + 64 * 2)) s.hub = true ∧
    (let bs := bytesLE 8 aCopy.tid ++ bytesLE 8 0
     let f : Frame := { frameTo 0x83 with aux := 0x0C, len := 16, payload := bs, scarry := scarryOf bs }
     meetsWork 5 (toUnit 0x83 (asOp 0x11 f)) 0x83 s = true ∧ cloakFind aCopy.tid s.hub = .copy 2 aCopy ∧ reachable 9 0x83 s.hub = true) := by
  decide +kernel

/-! ### Work for cores, tables and indexes -/

/-- serve with core 4 in service, its context 2 as given. -/
def coreUp (x : Ctx) : State := onHub (fun h => putCtx 4 2 x { h with boot := { h.boot with coreMap := List.range 64 } }) serve

def bindT0 : Word := w64 (2 ^ 44 + 1)

def withLen (f : Frame) (bs : List Byte) : Frame := { f with len := bs.length, payload := bs, scarry := scarryOf bs }

theorem test_work : let s := coreUp { st := .ready, bind := bindT0 }
    let f := withLen (frameTo 4) (bytesLE 8 2 ++ List.replicate 32 0#8)
    meetsWork 5 (toUnit 4 (asOp 0x11 f)) 4 s = true ∧ coreServes 4 s.hub = true ∧ bitOf bindT0 44 = true ∧ fld bindT0 43 32 = 0 ∧
    (getCtx 4 2 (after (.work 5 f) s).hub).st = .running := by decide +kernel

/-- An FP32 table of 16 columns, 8 rows and one bucket, its directory in tile 0x8001. -/
def embDesc : List Byte :=
  bytesLE 8 (9 + 16 * 256) ++ bytesLE 8 (8 + 10 * 2 ^ 48) ++ bytesLE 8 0x80010000 ++ bytesLE 96 0 ++ bytesLE 8 0

def embUp (opt : Nat) : State := onHub (fun h => putReg embPage 0x10 1 { h with
  emb := { h.emb with tables := [(0, { desc := bytesLE 1 (9 + 16 * opt) ++ embDesc.drop 1, lastStep := 4, logUsed := 0 })] } }) (cloaked aTicket)

def emuOpOf (op : Nat) : Frame :=
  { withLen (frameTo 0x84) (bytesLE 8 (2 ^ 32 + 9 * 256) ++ bytesLE 40 0 ++ bytesLE 8 (5 * 2 ^ 32 + 1) ++ bytesLE 8 0) with aux := op }

theorem test_emu : (∀ op ∈ [1, 2, 3], let s := embUp (if op = 3 then 1 else 0)
      let g := toUnit 0x84 (asAux op (asOp 0x11 (emuOpOf op)))
      meetsWork 5 g 0x84 s = true ∧ enabled embPage s.hub = true ∧ s.hub.emb.reqs = [] ∧ reachable 5 0xC1 s.hub = true ∧
      emuBad g (parseEmb (s.hub.emb.tables.map (fun e => e.2.desc)).flatten) = false) ∧
    (let s := onHub (fun h => { h with mem := memPutN h.mem 0x80010000 (bytesLE 8 3) }) (embUp 0)
     let g := toUnit 0x84 (asAux 0x20 (asOp 0x11 (withLen (frameTo 0x84) (bytesLE 8 (4 * 2 ^ 32)))))
     meetsWork 5 g 0x84 s = true ∧ plainTile 0x8001 s.hub = true ∧ (parseEmb embDesc).dir = 0x80010000 ∧ (parseEmb embDesc).opt = 0) := by
  decide +kernel

def scuDesc : List Byte :=
  bytesLE 8 (9 + 16 * 256 + 8 * 2 ^ 19 + 2 ^ 26) ++ bytesLE 8 (100 + 10 * 2 ^ 32) ++ bytesLE 8 0x80000000 ++ bytesLE 8 0x80010000 ++ bytesLE 8 0x80020000 ++
    bytesLE 8 0x80020000 ++ bytesLE 80 0

def anIndex : ScuIndex := { desc := scuDesc, epoch := 1, cur := 0, prevV := false, nextId := 0, committed := 0, baseCur := 0, basePrev := 0, sideHead := 0, sideTail := 0 }

def scuUp : State := onHub (fun h => putReg scPage 0x10 1 { h with search := { h.search with indexes := [(0, anIndex)] } }) (cloaked aTicket)

theorem test_scu : let s := scuUp
    let q := toUnit 0x85 (asAux 1 (asOp 0x11 (withLen (frameTo 0x85) (bytesLE 8 (65536 + 2 ^ 32 + 9 * 2 ^ 48) ++ bytesLE 184 0))))
    let n := toUnit 0x85 (asAux 2 (asOp 0x11 (withLen (frameTo 0x85) (bytesLE 128 0))))
    let d := toUnit 0x85 (asAux 3 (asOp 0x11 (withLen (frameTo 0x85) (bytesLE 16 0))))
    (∀ g ∈ [q, n, d], meetsWork 5 g 0x85 s = true ∧ scuLenOk g (some anIndex) = true ∧ scuReqBad g anIndex = false) ∧
    enabled scPage s.hub = true ∧ getIndex 0 s.hub = some anIndex ∧ sideCount anIndex = 0 ∧ anIndex.d.sideLen = 1024 ∧ anIndex.d.nodeMax = 100 := by
  decide +kernel

/-! ### Cores and their engines -/

theorem test_core_commands : let s (x : Ctx) : State := coreUp x
    Settled (s {}).hub ∧ admits fm 0x204 0x50 (s {}) = true ∧ admits fm 0x204 0x90 (s {}) = true ∧ admits fm 0x204 0xA8 (s {}) = true ∧
    admits fm 0x204 0x44 (s {}) = true ∧ admits fm 0x204 0xD0 (s {}) = true ∧ admits fm 0x204 0x4FC (s {}) = true ∧ admits fm 0x247 0x44 (s {}) = true ∧
    serving (s {}).hub = true ∧ coreServes 4 (s {}).hub = true ∧ allCmds (getCore 4 (s {}).hub) = [] := by decide +kernel

/-- coreUp with context 2 selected, and core 4 as given but for its contexts. -/
def coreSel (x : Ctx) (c : Core) : State := onHub (fun h => putReg 0x204 0x48 2 <| putCore 4 { c with ctxs := (getCore 4 h).ctxs } h) (coreUp x)

theorem test_core_contexts : let run : Ctx := { st := .running, bind := bindT0, startedAt := 0 }
    (getCtx 4 2 (after (.coreCtxBindWrite fm 4 (2 ^ 44 + 1)) (coreSel {} {})).hub).st = .ready ∧
    (getCtx 4 2 (after (.start fm 4) (coreSel { st := .ready } {})).hub).st = .running ∧
    (getCtx 4 2 (after (.stop fm 4) (coreSel run {})).hub).fault = 0xB ∧
    (getCtx 4 2 (after (.reset fm 4) (coreSel { st := .faulted } {})).hub).st = .ready ∧
    (let s := onHub (fun h => putReg 0x204 0x44 (w64 (1 * 65536)) { h with devTime := 2000000 }) (coreSel run {})
     0 < regFld 0x204 0x44 31 16 s.hub ∧ (getCtx 4 2 (after (.watchdog 4 2) s).hub).fault = 0xA) := by decide +kernel

theorem test_core_fences : (getCore 4 (after (.commandFence fm 4 0) (coreSel { st := .running } {})).hub).st = .draining ∧
    (getCore 4 (after (.commandUnfence fm 4 0) (coreSel {} { st := .fenced })).hub).st = .inService ∧
    (let b (x : BenchState) : State := onHub (putBench 3 x) (coreSel {} { st := .fenced })
     readySlot 0 (b .ready).hub = some 3 ∧ (getCore 4 (after (.substitute fm 4 0) (b .ready)).hub).slot = some 3 ∧
     getBench 3 (after (.benchTest fm 3) (b .ready)).hub = .testing ∧ slotTaken 3 (b .testing).hub = false ∧
     getBench 3 (after (.benchTestDone 3 false) (b .testing)).hub = .failed) ∧
    coreDrained 4 (coreSel { st := .faulted } { st := .draining }).hub = true ∧
    (let t := coreSel {} { st := .substituting, slot := some 3 }
     (getCore 4 (after (.substitutionDone 4 true) t).hub).st = .inService ∧ (getCore 4 (after (.substitutionDone 4 false) t).hub).st = .fenced) := by
  decide +kernel

def isOk {α β : Type} : Except α β → Bool
  | .ok _ => true
  | .error _ => false

/-- A GSA binding of tenant 0, and the same as a run's tenant and ASID. -/
def gsaCtx : Ctx := { st := .running, bind := w64 (2 ^ 44 + 0xFFFF * 65536 + 1), asid := 0xFFFF }

theorem test_pattern_load :
    isOk (loadRead 4 gsaCtx (cutRow 2 (5 * 2 ^ 46 + scratchAddr 4 0) 0 8) (coreSel gsaCtx {}).hub).1 = true ∧
    (getCore 4 (after (.patternLoad fm 4 8191 1) (coreSel gsaCtx {})).hub).load.isSome = true ∧
    (getCore 4 (after (.coreSemWrite fm 4 63 (2 ^ 32 + 5)) (coreSel gsaCtx {})).hub).sems = [(63, 5)] ∧
    (getCore 4 (after (.coreFaultPop fm 4) (coreSel gsaCtx { faults := [⟨1, 2⟩, ⟨3, 4⟩] })).hub).faults = [⟨3, 4⟩] := by decide +kernel

/-- A DMA descriptor of 8 bytes between store byte 0x80000000 of module 5 and scratchpad byte 0x40. -/
def dmaBytes (kind : Nat) : List Byte := bytesLE 8 (kind * 2 ^ 60 + 2 ^ 59 + (if kind = 3 then 0x101 else 8)) ++ bytesLE 8 (5 * 2 ^ 46 + 0x80000000) ++ bytesLE 8 0x40 ++ bytesLE 8 1

/-- Core 4 with a descriptor at scratchpad byte 0, its command at the head of queue 0. -/
def dmaUp (kind : Nat) : State :=
  onHub (fun h => { h with mem := memPutN h.mem (scratchAddr 4 0) (dmaBytes kind) })
    (coreSel gsaCtx { q0 := [⟨0, 2, 0, 0, 0, 0, 0, [], false, 0, [], 0⟩] })

def headKind : DmaHead → Nat
  | .desc _ d => d.kind
  | .fault _ _ _ _ => 100
  | .none => 101

theorem test_dma_heads : (∀ kind ∈ [1, 2, 3, 4, 5], headKind (dmaHead 4 0 kind (dmaUp kind).hub) = kind) ∧
    (let d := parseDma (dmaBytes 1)
     d.module = 5 ∧ dmaFits d = true ∧ dmaPieces d = [(5 * 2 ^ 46 + 0x80000000, 0x40, 8)] ∧
     bufServe 4 0 d gsaCtx d.addr 8 (dmaUp 1).hub = none ∧ isOk (localRead 4 gsaCtx 0xFFFF d.addr 8 (dmaUp 1).hub).1 = true) ∧
    isOk (localWrite 4 gsaCtx 0xFFFF (parseDma (dmaBytes 2)).addr (List.replicate 8 0) false (dmaUp 2).hub).1 = true := by decide +kernel

theorem test_dma_atomic : let d := parseDma (dmaBytes 3)
    let h := bufDrop 4 d gsaCtx d.addr 8 (dmaUp 3).hub
    let x := xlateNow false 1 4 0 0xFFFF d.addr 8 opAtomic h
    formOk (dmaFrame 4 d gsaCtx 4 d.addr 0 0x101 d.operand 0 [] false) = true ∧ spFits d.sp 16 = true ∧ isOk x.1 = true ∧
    leaseDenies (coreIssuer 4 x.2) 0x80000000 8 x.2 = false ∧
    ((engAtomic 0x80000000 8 1 1 0 0 x.2).map (fun r => r.1)) = some (0, false) := by decide +kernel

theorem test_dma_control : let s := dmaUp 5
    let f := dmaCtlFrame 4 0x12 0x87 (parseDma (dmaBytes 5)) gsaCtx s.hub
    pairJoined s.hub = false ∧ nbits (parseDma (dmaBytes 5)).addr 55 46 = moduleId s.hub ∧ f.dstModule = 5 := by decide +kernel

theorem test_engine : (getCore 4 (after (.engineCommandFinish 4 .matrix) (coreSel gsaCtx { mq := [⟨0, 2, 0, 0, 0, 0, 0, [], true, 0, [], 0⟩] })).hub).mq = [] ∧
    (getCore 4 (after (.lineBufferExpiry 4 0) (onHub (fun h => { h with devTime := 200000 }) (coreSel gsaCtx { buf0 := [⟨0, 0, false, 5, 0, [], 0⟩] }))).hub).buf0 = [] ∧
    semVal 4 3 (after (.signalApply 4 2) (coreSel { gsaCtx with signals := [⟨3, 0xFF, 7, [], []⟩] } {})).hub = 7 := by decide +kernel

/-! ### Patterns -/

/-- Core 4 about to issue word w in context 2, whose s1 to s3 hold the given words; the rest of the core as c. -/
def atWord (w : Word) (regs : List Word) (c : Core) : State :=
  onHub (putReg 0x204 0x10 1) (coreSel { gsaCtx with regs := regs ++ List.replicate 28 0 } { c with pat := [(0, w)] })

/-- A word of format S: RD 3, RA 1, RB 2. -/
def wordS (op imm : Nat) : Word := w64 (op * 2 ^ 56 + 3 * 2 ^ 51 + 2 ^ 46 + 2 * 2 ^ 41 + imm)

def s3 (i : Instr) (s : State) : Word := nth (getCtx 4 2 (after i s).hub).regs 2 0

theorem test_scalars : let s (op imm : Nat) : State := atWord (wordS op imm) [w64 (2 ^ 64 - 6), 3, 0] {}
    (∀ op ∈ natRange 0 14, issues 4 2 (wordS op 0) (s op 0).hub = true) ∧
    s3 (.addi 4 2) (s 1 0xFFFFFFFF) = w64 (2 ^ 64 - 7) ∧ s3 (.sub 4 2) (s 3 0) = w64 (2 ^ 64 - 9) ∧ s3 (.mul 4 2) (s 4 0) = w64 (2 ^ 64 - 18) ∧
    s3 (.and 4 2) (s 5 0) = 2 ∧ s3 (.shl 4 2) (s 8 0) = w64 (2 ^ 64 - 48) ∧ s3 (.shr 4 2) (s 9 0) = w64 (2 ^ 61 - 1) ∧
    s3 (.movhi 4 2) (s 10 7) = 0x7FFFFFFFA#64 ∧ s3 (.csr 4 2) (s 13 1) = 4 := by decide +kernel

theorem test_load_store : let s (op : Nat) : State := atWord (wordS op 8) [0x10, 0x1122334455667788#64, 0] {}
    (memGet (after (.st 4 2) (s 12)).hub.mem (scratchAddr 4 0x18) = 0x88#8) ∧ (s 12).hub.ras.injection = none ∧
    s3 (.ld 4 2) (onHub (fun h => { h with mem := memPutN h.mem (scratchAddr 4 0x18) [1, 2] }) (s 11)) = 0x201 := by decide +kernel

/-- A word of format B: RA 1, RB 2, target 100. -/
def wordB (op : Nat) : Word := w64 (op * 2 ^ 56 + 2 ^ 51 + 2 * 2 ^ 46 + 100)

def pcOf (i : Instr) (s : State) : Nat := (getCtx 4 2 (after i s).hub).pc

theorem test_branches : let s (op : Nat) : State := atWord (wordB op) [w64 (2 ^ 64 - 6), 3] {}
    pcOf (.beq 4 2) (s 0x10) = 1 ∧ pcOf (.bne 4 2) (s 0x11) = 100 ∧ pcOf (.blt 4 2) (s 0x12) = 100 ∧ pcOf (.bltu 4 2) (s 0x13) = 1 ∧
    pcOf (.jmp 4 2) (s 0x14) = 100 ∧ pcOf (.loop 4 2) (s 0x15) = 100 := by decide +kernel

/-- A word of format O: semaphore 9, RA 1, core 0xFF, engine mask 1, scope 2. -/
def wordO (op imm : Nat) : Word := w64 (op * 2 ^ 56 + 9 * 2 ^ 50 + 2 ^ 45 + 0xFF * 2 ^ 37 + 2 ^ 32 + 2 * 2 ^ 30 + imm)

theorem test_ordering : let s (op : Nat) (c : Core) : State := atWord (wordO op 2) [5] c
    let x (i : Instr) (op : Nat) (c : Core) : Ctx := getCtx 4 2 (after i (s op c)).hub
    let busy : EngCmd := ⟨6, 2, 0, 0, 0, 0, 0, [], true, 0, [], 0⟩
    (x (.wait 4 2) 0x40 { sems := [(9, 8)] }).st = .running ∧ (x (.wait 4 2) 0x40 { sems := [(9, 6)] }).wait = some (9, 7) ∧
    semVal 4 9 (after (.signal 4 2) (s 0x41 { sems := [(9, 6)] })).hub = 8 ∧ (x (.signal 4 2) 0x41 { mq := [busy] }).signals.length = 1 ∧
    (x (.acquire 4 2) 0x42 {}).pc = 1 ∧ (x (.release 4 2) 0x43 { mq := [busy] }).marks = [⟨2, [6]⟩] ∧
    (x (.fence 4 2) 0x44 { mq := [busy] }).fence = [6] ∧ 
    (let h := atWord (w64 (0x60 * 2 ^ 56 + 2)) [] {}
     (getCtx 4 2 (after (.halt 4 2) h).hub).st = .ready ∧ (getCtx 4 2 (after (.halt 4 2) h).hub).exit = 2) := by decide +kernel

/-- A VOP word: RD 3, RA 1, RB 2, RC 4. -/
def wordV (fn df sf : Nat) : Word := w64 (0x21 * 2 ^ 56 + 3 * 2 ^ 51 + 2 ^ 46 + 2 * 2 ^ 41 + 4 * 2 ^ 36 + fn * 2 ^ 30 + df * 2 ^ 26 + sf * 2 ^ 22)

/-- 32 lanes of 1.0 at scratchpad byte 0 and of 2.0 at byte 0x80. -/
def lanesIn (s : State) : State := onHub (fun h =>
  spWrite 4 0 ((List.replicate 32 (bytesLE 4 0x3F800000)).flatten ++ (List.replicate 32 (bytesLE 4 0x40000000)).flatten) h) s

def vopResult (i : Instr) (fn df sf n : Nat) : List Byte :=
  memGetN (after i (lanesIn (atWord (wordV fn df sf) [0, 0x80, 0x100, 32] {}))).hub.mem (scratchAddr 4 0x100) n

theorem test_vop : vopResult (.vopAdd 4 2) 0 0 0 4 = bytesLE 4 0x40400000 ∧ vopResult (.vopSub 4 2) 1 0 0 4 = bytesLE 4 0xBF800000 ∧
    vopResult (.vopFma 4 2) 3 0 0 4 = bytesLE 4 0x40000000 ∧ vopResult (.vopMax 4 2) 4 0 0 4 = bytesLE 4 0x40000000 ∧
    vopResult (.vopRsum 4 2) 0x10 0 0 4 = bytesLE 4 0x42000000 ∧ vopResult (.vopRmax 4 2) 0x11 0 0 4 = bytesLE 4 0x3F800000 ∧
    vopResult (.vopCvt 4 2) 0xC 6 9 2 = bytesLE 2 0x3F80 := by decide +kernel

theorem test_vop_issues : ∀ fn ∈ natRange 0 14 ++ [0x10, 0x11], let s := lanesIn (atWord (wordV fn 5 9) [0, 0x80, 0x100, 32] {})
    issues 4 2 (wordV fn 5 9) s.hub = true ∧ vecValid (wordV fn 5 9) 32 = true ∧ (getCore 4 s.hub).vq = [] ∧ s.hub.poison = [] := by decide +kernel

/-- An MMA descriptor: C (1 x 1, FP32) at 0x200 from A at 0 and B at 0x40, INT8, K of 32. -/
def matDesc : List Byte :=
  bytesLE 8 (0x40 * 2 ^ 21 + 0x200 * 2 ^ 42) ++ bytesLE 8 (1 + 65536 + 32 * 2 ^ 32 + 8 * 2 ^ 48 + 8 * 2 ^ 52) ++
    bytesLE 8 (32 + 32 * 2 ^ 21 + 4 * 2 ^ 42) ++ bytesLE 8 0

theorem test_mma : let w := w64 (0x20 * 2 ^ 56 + 2 ^ 51)
    let s := onHub (fun h => spWrite 4 0x100 matDesc (spWrite 4 0 (List.replicate 32 0xFF#8 ++ List.replicate 32 0 ++ List.replicate 32 3) h)) (atWord w [0x100] {})
    issues 4 2 w s.hub = true ∧ matBad matDesc (parseMat matDesc) = none ∧ matRange (parseMat matDesc) = none ∧ matOverlap (parseMat matDesc) = false ∧
    memGetN (after (.mma 4 2) s).hub.mem (scratchAddr 4 0x200) 4 = bytesLE 4 (2 ^ 32 - 96) := by decide +kernel

theorem test_dma_queue : let w := w64 (0x30 * 2 ^ 56 + 2 ^ 51 + 2 ^ 40)
    issues 4 2 w (atWord w [] {}).hub = true ∧ ((getCore 4 (after (.dma 4 2) (atWord w [] {})).hub).q1).length = 1 := by decide +kernel

/-! ### The units' commands and events -/

def gsa (off : Nat) : List Byte := bytesLE 8 (5 * 2 ^ 46 + off)

/-- A table of FP32 rows of 16 columns whose directory and records lie in core 4's scratchpad. -/
def goodTable : List Byte :=
  bytesLE 8 (9 + 16 * 256) ++ bytesLE 8 (8 + 10 * 2 ^ 48) ++ (List.replicate 5 (gsa (scratchAddr 4 0x10000))).flatten ++ bytesLE 72 0

def goodIndex : List Byte :=
  bytesLE 8 (9 + 16 * 256 + 8 * 2 ^ 19 + 2 ^ 26) ++ bytesLE 8 (100 + 10 * 2 ^ 32) ++ (List.replicate 4 (gsa (scratchAddr 4 0x20000))).flatten ++ bytesLE 80 0

/-- Descriptor 0 of the tables, and of the indexes, in core 4's scratchpad; the unit pages disabled, as R462 and R489 ask of a base. -/
def unitsUp : State := onHub (fun h =>
  putReg embPage 0x10 1 <| putReg scPage 0x10 1 <| putReg embPage 0x40 (w64 (scratchAddr 4 0)) <| putReg scPage 0x40 (w64 (scratchAddr 4 0x8000)) <|
    putReg embPage 0x50 (w64 (9 * 2 ^ 24)) <| spWrite 4 0x10000 (bytesLE 8 1) <| spWrite 4 0 goodTable <| spWrite 4 0x8000 goodIndex h) (withRoute (coreUp {}))

def withTable (t : EmbTable) (m : Option EmbMig) : State := onHub (fun h => { h with emb := { h.emb with tables := [(0, t)], mig := m } }) unitsUp
def withIndex (x : ScuIndex) (m : Option ScuMerge) : State := onHub (fun h => { h with search := { h.search with indexes := [(0, x)], merge := m } }) unitsUp

theorem test_emu_commands : let t : EmbTable := { desc := goodTable, lastStep := 4, logUsed := 0 }
    let b := storeRead (mkFld 45 15 (regFld 0xC0 0x40 45 15 unitsUp.hub) + 128 * 0) 128 unitsUp.hub
    admits fm 0xC0 0x48 unitsUp = true ∧ admits fm 0xC0 0x58 unitsUp = true ∧ b.1.2 = false ∧ embBad b.1.1 b.2 = false ∧
    getTable 0 (after (.tableUnload fm 0) (withTable t none)).hub = none ∧ (dirEntry t.d 0 (withTable t none).hub).1.1 = 1 ∧ 0 < t.d.buckets ∧
    reachable 9 0x80 unitsUp.hub = true ∧ reachable 9 0x84 unitsUp.hub = true ∧ t.d.opt = 0 ∧ t.d.rows = 8 ∧ serving unitsUp.hub = true := by decide +kernel

theorem test_scu_commands : let x : ScuIndex := { anIndex with desc := goodIndex }
    let b := storeRead (descOff 0 unitsUp.hub) 128 unitsUp.hub
    let hb := storeRead (gsaOff (descWord b.1.1 2)) 4096 b.2
    admits fm 0xC8 0x48 unitsUp = true ∧ admits fm 0xC8 0x50 unitsUp = true ∧ b.1.2 = false ∧ scuBad b.1.1 b.2 = false ∧ hb.1.2 = false ∧ (parseHdr hb.1.1).ok = true ∧
    (∀ k ∈ natRange 8 5, descWord b.1.1 k = 0) ∧ getIndex 0 (after (.indexUnload fm 0) (withIndex x none)).hub = none ∧
    (after (.mergeAbort fm 0) (withIndex x (some ⟨0, 0, 0, 8, 8, 2, 0⟩))).hub.search.mergeResult = 1 ∧
    (mergeRead x 0 0 (withIndex x none).hub).1.isSome = true := by decide +kernel

theorem test_scu_search : let x : ScuIndex := { anIndex with desc := goodIndex, nextId := 1, committed := 2, sideTail := 1 }
    let s := onHub (fun h => spWrite 4 0x20000 (bytesLE 40 0 ++ bytesLE 8 1) h) (withIndex x none)
    (liveNow x 0 s.hub).1 = true := by decide +kernel

theorem test_offer_ends : let t : Ticket := { aTicket with st := .offered, deadline := 0 }
    let s := cloaked t
    getTicket false 3 s.hub = t ∧ ticketUsable false 3 s.hub = true ∧ plainTile (tileOf (cloakTable false s.hub + 64 * 3)) s.hub = true ∧ serving s.hub = true := by decide +kernel

theorem test_forced : let s (t : Ticket) : State := onHub (putReg 0xB8 0x80 (w64 (tidOf 3 5 5 0 1))) (cloaked t)
    ∀ m ∈ [true, false], let t : Ticket := { aTicket with mirrored := m, mirrorModule := 9 }
      admits fm 0xB8 0x8C (s t) = true ∧ cloakFind (getReg 0xB8 0x80 (s t).hub).toNat (s t).hub = .here false 3 t := by decide +kernel

theorem test_attention : let t : Ticket := { aTicket with runBase := 0x9000 }
    let a : AttendReq := ⟨7, toUnit 0x83 (asAux 1 (asOp 0x11 attendOp)), false, 3, 0, .queued⟩
    let s (v : TileState) : State := onHub (fun h => putReg 0xB8 0x200 (w64 (2 ^ 31 + 4 * 8 + 2)) { h with
      cores := (coreUp { st := .ready, bind := bindT0 }).hub.cores, boot := { h.boot with coreMap := List.range 64 }
      tier := { h.tier with tiles := (0x9000, { st := v }) :: h.tier.tiles }, cloak := { h.cloak with attends := [a] } }) (cloaked t)
    attendReady a (s .free).hub = false ∧ attendReady a (s .void).hub = true ∧ nextSvc (s .void).hub = some (0, 4, 2) ∧ serving (s .void).hub = true := by
  decide +kernel

/-! ### Hosts -/

/-- Logical device 3 of port 0, its decoder over 256 MiB, an extent of that size at store byte 2 GiB. -/
def hostUp (e : Extent) : State := onHub (fun h => { h with
  cxl0 := { up := true, width := 8, rate := 5, lds := [(3, { en := true, dec0 := ⟨0, 2 ^ 28, 0, true⟩ })], extents := [(0, e)] } }) serve
def anExtent : Extent := { st := .active, ld := 3, r := true, w := true, count := 4, offBlk := 32 }
def hostT0 (e : Extent) : State := withT0 (hostUp e)

theorem test_cxl_mem : let s := hostT0 anExtent
    meetsCxl 0 3 0x80 false 0 0x80000080 0x80 s = true ∧ meetsCxl 0 3 0x80 true 0 0x80000080 0x80 s = true ∧
    (getTile (tileOf 0x80000080) s.hub).st = .upper ∧ s.hub.coh.filter = [] ∧ (∀ l ∈ linesOf 0x80000080 64, inT0 l s.hub = true) := by decide +kernel

theorem test_cxl_write : memGet (after (.memwr 0 3 0x80 7 (List.replicate 64 9#8) false) (hostT0 anExtent)).hub.mem 0x800000BF = 9#8 := by decide +kernel

/-- R501: an extent without W takes no write: cause 3. -/
theorem test_cxl_refused : let s := hostUp { anExtent with w := false }
    cxlCheck 0 3 0x80 true (count 0x30 1 1 s.hub) = .refused 3 (some 0x80) ∧
    cxlCheck 0 3 0x80 false (count 0x30 0 1 (hostUp { anExtent with r := false }).hub) = .refused 3 (some 0x80) := by decide +kernel

theorem test_extents : let s := hostUp anExtent
    let q : Req := { id := 1, src := .cxl 0 3 9 0, frame := { opcode := 1 } }
    let w (e : Extent) : State := onHub (fun h => { h with devTime := 60000, stu := { h.stu with waiting := [q] } }) (hostUp e)
    drainCount 0 0 s.hub = 0 ∧ drainCount 0 0 (w anExtent).hub = 1 ∧ storeRuns s.hub = true ∧
    (getExt 0 0 (after (.releaseDynamicCapacity 0 3 [(0, 2 ^ 28)]) (w anExtent)).hub).st = .draining ∧
    (after (.drainTimeout 0 0) (w { anExtent with st := .draining })).hub.cxl0.extents = [] := by decide +kernel

theorem test_extent_add : let w : Word := w64 (3 * 2 ^ 62 + 2 ^ 31)
    let s := onHub (fun h => { h with cxl0 := { h.cxl0 with extents := [] } }) (hostUp anExtent)
    allSome ([((0 : Nat), (2 ^ 28 : Nat), w)].map (fun e => parseExtent 3 e.1 e.2.1 e.2.2)) = some [{ anExtent with st := .pending }] ∧
    getExt 0 0 (after (.initiateDynamicCapacityAdd 0 3 [(0, 2 ^ 28, w)]) s).hub = { anExtent with st := .pending } := by decide +kernel

theorem test_extent_answer : let s := hostUp { anExtent with st := .pending }
    getExt 0 0 (after (.addDynamicCapacityResponse 0 3 [(0, 2 ^ 28)]) s).hub = anExtent ∧
    (after (.addDynamicCapacityResponse 0 3 []) s).hub.cxl0.extents = [] := by decide +kernel

theorem test_ld_and_open : let s := onHub (putReg 0x30 0x4C 3) (hostUp anExtent)
    admits fm 0x30 0x50 s = true ∧ admits fm 0x30 0x44 s = true ∧ regFld 0x30 0x4C 3 0 s.hub = 3 ∧
    (getLd 0 3 (after (.cxlpLdWrite fm 0 (2 ^ 63 + 5 * 2 ^ 32 + 2)) s).hub).tenant = 5 ∧
    regBit 0x30 0x44 0 s.hub = true ∧ regBit 0x30 0x44 0 (after (.openModeWrite fm 0 0) s).hub = false := by decide +kernel

/-- R538: 128 of 256 of 64,000 MB/s. -/
theorem test_fractions : (getShaper 0 (after (.setQosBwLimit 0 3 [128]) (hostUp anExtent)).hub).limit = 32000 ∧
    (hostUp anExtent).hub.cxl0.up = true := by decide +kernel

/-! ### Pool operations, meters, Pigeonholes, shapers -/

/-- A descriptor: word 0, LEN, DST, sources, CPL. -/
def poolDesc (op dst cpl : Nat) (src : List Nat) : List Byte :=
  bytesLE 8 op ++ bytesLE 8 128 ++ bytesLE 8 dst ++ (src.map (bytesLE 8)).flatten ++ bytesLE (8 * (4 - src.length)) 0 ++ bytesLE 8 cpl

def poolCmd (op : Nat) : PouCmd := { n := 0, sub := .ld 0 3, tenant := 0, asid := 0, trusted := false, desc := poolDesc op 0x1000 0x2000 [0x3000, 0x4000] }

/-- Logical device 3 with its extent, one command held, source bytes at 0x80003000. -/
def poolUp (c : PouCmd) : State := onHub (fun h => { h with
  coh := { h.coh with agents := [] }, mem := memPutN h.mem 0x80003000 [5, 6], pou := { h.pou with cmds := [c] } }) (hostUp anExtent)

theorem test_pool_ranges : ∀ op ∈ [1, 2, 3, 4], let c := poolCmd op
    let s := poolUp c
    poolAlone 0 3 0 c s.hub = true ∧ pouBad (poolCmd (if op = 4 then 0xA4 else op)) = false ∧ poolRange 0 3 0 true c.dst c.len 0x80001000 s.hub = true ∧
    poolRange 0 3 0 false c.dst c.len 0x80001000 s.hub = true ∧ poolRange 0 3 0 false (c.src 0) c.len 0x80003000 s.hub = true ∧
    poolRange 0 3 0 true c.cpl 32 0x80002000 s.hub = true ∧ anyPoison 0x80001000 c.len s.hub = false ∧ anyPoison 0x80003000 c.len s.hub = false := by
  decide +kernel

/-- R508: INT32: 5 + 6, the lower of two, the higher of −1 and 2. -/
theorem test_reduce : reduceBytes 0xA 0 4 [bytesLE 4 5, bytesLE 4 6] = bytesLE 4 11 ∧ reduceBytes 0xA 1 4 [bytesLE 4 7, bytesLE 4 6] = bytesLE 4 6 ∧
    reduceBytes 0xA 2 4 [bytesLE 4 0xFFFFFFFF, bytesLE 4 2] = bytesLE 4 2 := by decide +kernel

/-- FILL of a pattern word of 0x3000; the end of a whole tile's piece of COMPARE at tiles that read zero. -/
theorem test_fill_and_compare : memGetN (after .fill (poolUp (poolCmd 1))).hub.mem 0x80001000 4 = [0x00, 0x30, 0, 0] ∧
    (after .compare (poolUp { poolCmd 3 with desc := poolDesc 3 0x11000 0x2000 [0x13000] })).hub.pou.cmds.map (fun c => (c.phase, c.differ)) =
      [(.pieceDone, none)] := by decide +kernel

theorem test_piece_done : let t := after (.poolPieceDone 2) (poolUp { poolCmd 1 with engine := some 2, phase := .pieceDone, piece := 128 })
    t.hub.pou.cmds = [] ∧ memGetN t.hub.mem 0x80002008 2 = [128, 0] := by decide +kernel

theorem test_pool_submit : let s := onHub (fun h => putReg 0xD0 0x38 (w64 (1 * 2 ^ 30 + 3)) { h with pou := { h.pou with cmds := [] } }) (poolUp (poolCmd 1))
    let r : Requester := .ld 0 3
    admits r 0xD0 0x48 s = true ∧ admits r 0xD0 0x50 s = true ∧ pouRoom (.ld 0 3) s.hub = 0 ∧ (getLd 0 3 s.hub).en = true ∧
    dpaParts 0 3 false 2 0x3000 64 s.hub = some [(0x80003000, 64, 0)] ∧ plainTile 0x8000 s.hub = true ∧
    (after (.poolSubmit (.reg r 0 8 0x13000)) s).hub.pou.cmds.map (fun c => c.desc.length) = [64] := by decide +kernel

theorem test_pool_abort : let c : PouCmd := { poolCmd 1 with phase := .writing }
    (after (.poolAbort (.reg (.ld 0 3) 0 8 0)) (poolUp c)).hub.pou.cmds = [{ c with aborting := true }] ∧ c.tag = 0 := by decide +kernel

theorem test_pool_frames : let g (op n : Nat) : Frame := toUnit 0x86 (asAux op (asOp 0x11 (withLen (frameTo 0x86) (bytesLE n 0))))
    meetsWork 5 (g 1 64) 0x86 serve = true ∧ meetsWork 5 (g 2 8) 0x86 serve = true ∧ pouRoom (.agent 5 0xC1) serve.hub = 0 := by decide +kernel

theorem test_meter : let s := onHub (fun h => { h with devTime := 1000000, meter := { h.meter with tenants := [(0, { raw := [1, 2, 3, 4, 5, 6, 7, 8] })] } }) serve
    admits fm 0xE0 0x88 s = true ∧ (after (.meterClear fm) s).hub.meter.tenants = [] ∧ (after (.meterSnapshot fm) s).hub.meter.snap.isSome = true ∧
    nth (Tab.getD (after .meterSample s).hub.meter.tenants 0 {}).raw 3 0 = 5 := by decide +kernel

theorem test_snapshot : let s := onHub (fun h => putReg 0xE0 0x90 (w64 (0x8000 * 65536)) { h with
      tier := { h.tier with tiles := (natRange 0x8000 4).map (fun k => (k, { st := .upper })) }, meter := { h.meter with snap := some [] } }) serve
    regFld 0xE0 0x90 45 16 s.hub = 0x8000 ∧ pairJoined s.hub = false ∧ (∀ j ∈ [0, 1, 2, 3], plainTile (0x8000 + j) s.hub = true) ∧ serving s.hub = true := by
  decide +kernel

/-- Pigeonhole 7 takes words of tenant 0. -/
def holeUp : State := onHub (putReg 0x107 0x40 1) serve

theorem test_holes : let x := after (.pigeonSend (.reg fm 7 8 77) true) holeUp
    (∀ off ∈ [0x48, 0x50, 0x58, 0x88], admits fm 0x107 off holeUp = true) ∧ admits fm 0xF0 0x48 holeUp = true ∧
    sendOutcome 7 true (regStamp fm holeUp.hub) holeUp = .queued ∧ (getHole 7 x).q1.map (·.word) = [77] ∧
    (getHole 7 (after (.pigeonPop fm 7 2) x)).q1 = [] ∧ (getHole 7 (after (.pigeonFlush (.reg fm 7 4 2)) x)).q1 = [] ∧
    (getHole 7 (after (.pigeonClear fm 7 3) x)).q1 = [] := by decide +kernel

theorem test_hole_frames : let f : Frame := withLen { frameTo 0x87 with addr := 5 * 2 ^ 46 + 64 + 7 } (bytesLE 8 0)
    meetsWork 5 (toUnit 0x87 (pigeonOp false (asOp 0x12 f))) 0x87 holeUp = true ∧ meetsWork 5 (toUnit 0x87 (pigeonOp true (asOp 0x12 f))) 0x87 holeUp = true ∧
    sendOutcome 7 true (frameStamp f holeUp.hub) holeUp = .queued ∧ (getHole 7 (after (.pigeonSend (.frame 5 f) false) holeUp)).q1.length = 1 := by
  decide +kernel

theorem test_shapers : let q : Req := { id := 0, src := .frame 5, frame := asOp 5 (frameTo 0x80) }
    let sh : Shaper := { en := true, limit := 100, queue := [q], slot := some 1, peak := 8 }
    let s := onHub (fun h => { h with devTime := 100, shapers := [(0, sh)] }) serve
    0 ≤ (refill 8 sh).peak ∧ q.frame.posted = false ∧ (getShaper 0 (after .wheelSlotDue s).hub).queue = [] ∧
    (∀ off ∈ [0x44, 0x48, 0x50, 0x100], admits fm 0xD8 off s = true) ∧
    (getShaper 0 (after (.shaperReconfigure fm .rate (3 * 2 ^ 24 + 9)) s).hub).limit = 9 := by decide +kernel

/-! ### Errors, fitting, the sideband, SPDM, a pair -/

theorem test_error_sites : let s := withT0 serve
    let d := onHub (fun h => { h with coh := { h.coh with t0 := [(0x1000001, .dirty)] } }) serve
    storeRuns s.hub = true ∧ inT0 (lineOf 0x80000080) s.hub = true ∧ autoRetire 1 (onHub (putReg 0x300 0x10 0) s).hub = false ∧
    Tab.get? s.hub.coh.t0 (lineOf 0x80000080) = some .clean ∧ Tab.get? d.hub.coh.t0 (lineOf 0x80000080) = some .dirty ∧
    inT0 (lineOf 0x80000080) serve.hub = false ∧ s.hub.armoire.history = [] ∧ enabled rasPage s.hub = true ∧ s.hub.ras.fence = .serving := by decide

def noUse : UnitUse := ⟨[], 0, [], false, []⟩

theorem test_t1_error : let t := after (.scrubPatrol (.t1 0x80000080 12) true false noUse) serve
    t.hub.poison = [0x2000002] ∧ t.hub.armoire.history = [⟨4, false, true, 1, 12, 0, 0⟩] := by decide +kernel

theorem test_fatal_errors : let s := onHub (fun h => { h with ras := { h.ras with banks := [(3, 0)] } }) serve
    (after (.scrubPatrol .directory true false noUse) serve).hub.ras.cause = 3 ∧
    (after (.scrubPatrol (.bufferBank 3 0 none) true false noUse) s).hub.ras.fence = .fatal ∧ s.hub.time.poh < 0 + histWindow s.hub ∧
    (pageInfo 0xB0).isSome = true := by decide +kernel

theorem test_retire_copy : let s (v : TileState) : State := onHub (fun h => { h with
      ras := { h.ras with copies := [⟨0x8000, false, []⟩] }, tier := { h.tier with slots := 5, tiles := [(0x8000, { st := v })] } }) serve
    0 < slotsFree (s .upper).hub ∧ (after (.retireCopy 0x8000) (s .upper)).hub.tier.slots = 4 ∧
    (getTile 0x8000 (after (.retireCopy 0x8000) (s .clean)).hub).st = .lower := by decide +kernel

theorem test_saves : let s := onHub (fun h => { h with clock := 60000000000, armoire := { h.armoire with histPending := true } }) up
    (after .faultHistoryFlush s).hub.armoire.histPending = false ∧ (after .counterSave s).hub.armoire.savedPoh = 0 := by decide +kernel

theorem test_injections : let s := withT0 (onHub (putReg 0x300 0x70 (w64 (5 * 2 ^ 46 + 0x80000080))) serve)
    let w := onHub (putReg 0x300 0x70 (w64 (5 * 2 ^ 46 + scratchAddr 4 0))) (coreUp {})
    let l := onHub (putReg 0x300 0x70 5) serve
    let low := onHub (putTile 0x8000 { st := .lower, run := some (0, 64) }) s
    admits fm 0x300 0x78 s = true ∧ (∀ t ∈ [1, 2, 6, 7], injectTargetOk t (5 * 2 ^ 46 + 0x80000080) s.hub = true) ∧
    injectTargetOk 3 (5 * 2 ^ 46 + 0x80000080) s.hub = false ∧ injectTargetOk 3 (5 * 2 ^ 46 + 0x80000080) low.hub = true ∧
    injectTargetOk 4 (5 * 2 ^ 46 + scratchAddr 4 0) w.hub = true ∧ injectTargetOk 5 5 l.hub = true ∧ (getPort 5 l.hub).st = .ready ∧
    (after (.injectT1Line fm true) s).hub.ras.injection.isSome = true ∧
    regBit (portPage 5) 0x18 2 (after (.injectYumerLane fm false) l).hub = true := by decide +kernel

/-- R582: tracking on, guard 20 ps, one site. -/
def tracked (vcore good : Nat) : State := onHub (fun h => putReg 0x318 0x40 (w64 (20 * 256 + 1)) { h with
  fitting := { h.fitting with vcore := vcore, good := good } }) serve

theorem test_tracking : let r (slack : Nat) : Instr := .monitorReading [(7, 1, 2, slack)]
    (after (r 19) (tracked 700 5)).hub.fitting.vcore = 705 ∧ (after (r 0xFFFF) (tracked 850 5)).hub.fitting.limited = true ∧
    (after (r 30) (tracked 750 999)).hub.fitting.vcore = 745 ∧ (after (r 30) (tracked 750 3)).hub.fitting.good = 4 ∧
    hubClocked (tracked 700 5).hub = true ∧ (after (r 0) (onHub (putReg 0x318 0x40 0) serve)).hub.fitting.vcore = 850 := by decide +kernel

theorem test_fitting_cycle : let s := onHub (fun h => putReg 0x318 0x40 (w64 (1 * 2 ^ 24)) { h with time := { h.time with calSet := true } }) serve
    let s1 := onHub (fun h => { h with time := { h.time with calStale := false } }) s
    let at_ (n : Nat) : State := onHub (fun h => { h with fitting := { h.fitting with phase := n, plan := [720, 680, 640, 590] } }) s1
    enabled fitPage s1.hub = true ∧ fittingDue s1.hub = true ∧ (after .fittingDue s1).hub.fitting.phase = 1 ∧
    (after (.run fm) s1).hub.fitting.phase = 1 ∧ (after (.monitorsDone [721, 0, 0, 0]) (at_ 1)).hub.fitting.plan = [725, 680, 640, 590] ∧
    (after (.linksDone 2) (at_ 2)).hub.fitting.phase = 3 ∧ (after (.memoryDone [1]) (at_ 3)).hub.fitting.offsets = [1] ∧
    (after (.fittingCommit 9) (at_ 4)).hub.fitting.permit = 15 := by decide +kernel

def q0 : NipHdr := {}

theorem test_nipieb : let s := onHub (fun h => { h with side := { h.side with bundle := some ⟨64, [], 0⟩ }, clock := 10000000000 }) up
    let fenced : State := onHub (fun h => { h with ras := { h.ras with fence := .fenced } }) s
    nipServed true q0 s.hub = true ∧ nipServed false q0 s.hub = true ∧ (after (.setModuleId q0 9) s).hub.armoire.moduleId = some 9 ∧
    (after (.nipiebFence q0) s).hub.ras.fence = .fenced ∧ (after (.nipiebUnfence q0) fenced).hub.ras.fence = .serving ∧
    (after .bundleTransferTimeout s).hub.side.bundle = none ∧ (after (.calendarSet q0 77) s).hub.armoire.savedSeconds = 77 ∧
    (after (.bundleData q0 3 [8]) s).hub.side.bundle = some ⟨64, [(3, 8)], 10000000000⟩ ∧ commitCheck s.hub = .fail 3 [] := by decide +kernel

/-- R574 to R576: an install bundle of format 1 with one owner-key record and no signature. -/
def installBundle : List Byte :=
  bytesLE 4 1 ++ bytesLE 4 260 ++ bytesLE 16 0 ++ bytesLE 4 1 ++ bytesLE 36 1 ++ bytesLE 4 (100 * 256 + 4) ++ bytesLE 192 0

set_option maxRecDepth 10000 in
theorem test_bundle_commit : let s := onHub (fun h => { h with side := { h.side with bundle := some ⟨260, putBytes 0 installBundle [], 0⟩ } }) up
    commitCheck s.hub = .accept installBundle ∧ (after (.bundleCommit q0) s).hub.side.bundle = none := by decide +kernel

theorem test_armoire_read : (armoireRead 1 0 2 up.hub).1.1 = ccOk ∧ (armoireRead 0xF 0 2 up.hub).1.1 = ccDenied := by decide +kernel

theorem test_nipieb_registers : let t := after (.nipiebRegWrite q0 1 0x48 4 3) up
    accessOk 0x48 4 = true ∧ regFld 1 0x48 1 0 t.hub = 3 ∧ (regRead .sideband 1 0x48 4 t).1 = 3 := by decide +kernel

/-- Transport 1 with its algorithms agreed. -/
def spdmAgreed (l : List SpdmSession) : State := onHub (fun h => { h with
  cxl0 := { h.cxl0 with up := true }, sec := { h.sec with versionDone := [1], algsDone := [1], sessions := l } }) up

theorem test_spdm : let s := spdmAgreed [⟨7, 1, true⟩]
    let s1 := spdmAgreed [⟨7, 1, false⟩]
    let s4 := spdmAgreed (List.replicate 4 ⟨7, 1, true⟩)
    spdmUp 1 s.hub = true ∧ (after (.endSession 1 7) s).hub.sec.sessions = [] ∧ (after (.finish 1 7) s1).hub.sec.sessions = [⟨7, 1, true⟩] ∧
    (after (.vendorDefinedRequest 1 7 true 0) s).hub.cxl0.ide = true ∧ (after (.vendorDefinedRequest 1 7 true 1) s).hub.cxl1.ide = false ∧
    s4.hub.sec.sessions.length = 4 ∧ (after (.keyExchange 1 0 []) s).hub.sec.sessions.length = 2 := by decide +kernel

/-- A member of a pair in a state, with bridge port 8 Ready. -/
def twin (st : TwinMode) (role : Nat) : State := onHub (fun h => putPort 8 { st := .ready } { h with
  clock := 10000000000, twin := { h.twin with en := true, st := st, role := role, hbAt := 10000000000 }, coh := { h.coh with agents := [(2, { st := .active })] } }) up

theorem test_pair_joins : let s := twin .syncing 1
    let fs := 0 :: (helloFields s.hub).drop 1
    let t := after (.twinHello 8 fs 0x1234 [] 55) s
    onBridge 8 s.hub = true ∧ helloEqual fs s.hub = true ∧ helloEqual [1] s.hub = false ∧ t.hub.twin.st = .joined ∧ t.hub.devTime = 55 ∧
    (after (.twinHello 8 [1] 0 [] 0) s).hub.twin.cause = 6 := by decide +kernel

theorem test_pair_control : let s := twin .joined 0
    let c (k : Nat) (d : List Nat) : Hub := (after (.twinCtrl 8 k d) s).hub
    (c 0 []).ras.fence = .fenced ∧ (c 2 []).boot.phase = .quiescing ∧ (c 3 []).twin.cause = 3 ∧ (getAgent 2 (c 4 [2, 1])).st = .lost ∧
    (getAgent 2 s.hub).st = .active ∧ (Tab.getD (c 5 [3, 65536 * 2 ^ 32, 2]).coh.leases 3 {}).st = .held := by decide +kernel

theorem test_pair_frames : let s := twin .joined 0
    (after (.twinHeartbeat 8 5 2 3) s).hub.twin.st = .broken ∧ regFld 1 0x48 1 0 (after (.twinReg 8 1 0x48 4 2 0) s).hub = 2 ∧
    (after .twinHeartbeatSend s).hub.outs = [.bridge 8 0x61 [5, 0, 3]] ∧ readyBridges s.hub = [8] := by decide +kernel

theorem test_pair_timeouts : (after .twinLinkingTimeout (twin .linking 0)).hub.twin.cause = 7 ∧
    (after .twinSyncingTimeout (twin .syncing 0)).hub.twin.st = .refused ∧
    (after .twinHeartbeatTimeout (onHub (fun h => { h with twin := { h.twin with hbAt := 0 } }) (twin .joined 0))).hub.twin.cause = 2 := by decide +kernel

/-- R182: tile 0x8000 is Free, with room for it. -/
def freeTile (s : State) : State := onHub (fun h => putReg 0x90 0x80 (w64 (4 * 2 ^ 32)) { h with tier := { h.tier with slots := 4, tiles := [] } }) s

theorem test_store_allocates : let s := freeTile serve
    (getTile 0x8000 s.hub).st = .free ∧ usedOf 0 s.hub < ceilingOf 0 s.hub ∧ 0 < slotsFree s.hub ∧ s.hub.coh.filter = [] ∧ s.hub.mem = [] ∧
    meetsStore 5 (asOp 2 { storeAt with len := 2, payload := [1, 2] }) 0x80000080 s = true ∧
    meetsStore 5 (asOp 3 { storeAt with len := 1, payload := [1], posted := true }) 0x80000080 s = true ∧
    meetsStore 5 (asAux 1 (asOp 4 storeAt)) 0x80000080 s = true ∧ anyPoison 0x80000080 4 s.hub = false ∧
    meetsCxl 0 3 0x80 true 0 0x80000080 0x80 (freeTile (hostUp anExtent)) = true := by decide +kernel

theorem test_allocated : (getTile 0x8000 (after (.write 5 { storeAt with len := 2, payload := [1, 2] }) (freeTile serve)).hub).st = .upper ∧
    memGetN (after (.memwr 0 3 0x80 7 (List.replicate 64 9#8) false) (freeTile (hostUp anExtent))).hub.mem 0x800000BF 1 = [9] := by decide +kernel

end Sys2Proof.Tests
end

/-!
PROOFS. Throttles, sensors, BYPASS_FORCE_N and host-port resets (R18, R60, R61, R68, R74, R93). First, what a hub keeps
when the other member of a pair hears of a change.
-/
namespace Sys2Proof.Proofs

open Machine Safety Laws

section Sent

variable {R : Hub → Hub → Prop} {a b : Hub}

theorem bridged_moves (m : Moves R) (o : Out) (h : Hub) : R h (bridged h o) :=
  m.trans (m.emit o h) (count_moves m twinPage 0 1 (emit o h) (by norm_num))

/-- Bridge frames, sent and counted, are among the smallest changes of the switch core. -/
theorem sent_moves (m : Moves R) (k : SameButSent a b) : R a b := by
  obtain ⟨more, rfl, -⟩ := k
  induction more generalizing a with
  | nil => exact m.refl a
  | cons o t ih => exact m.trans (bridged_moves m o a) ih

theorem pairTell_switch (h g : Hub) : SwitchOnly g (pairTell h g) := sent_moves switch_moves (pairTell_sent h g)

theorem pairTell_steady (h g : Hub) : Steady g (pairTell h g) := sent_moves steady_moves (pairTell_sent h g)

theorem switchOnly_throttled (k : SwitchOnly a b) : b.ras.throttled = a.ras.throttled := by rw [k]

theorem switchOnly_getCxl (k : SwitchOnly a b) (p : Nat) : getCxl p b = getCxl p a := by
  simp only [getCxl, k.cxl0, k.cxl1]

end Sent

/-! ### Sensors -/

section Sensors

variable {h : Hub} {x : Sensor} {v lim : Nat}

@[simp] theorem readSensor_temps (x : Sensor) (v : Nat) (h : Hub) : (readSensor x v h).ras.temps = setTemp x v h.ras.temps := rfl
@[simp] theorem readSensor_throttleStart (x : Sensor) (v : Nat) (h : Hub) :
    (readSensor x v h).ras.throttleStart = h.ras.throttleStart := rfl
@[simp] theorem readSensor_mem (x : Sensor) (v : Nat) (h : Hub) : (readSensor x v h).mem = h.mem := rfl
@[simp] theorem readSensor_regs (x : Sensor) (v : Nat) (h : Hub) : (readSensor x v h).regs = h.regs := rfl
@[simp] theorem readSensor_throttled (x : Sensor) (v : Nat) (h : Hub) : (readSensor x v h).ras.throttled = h.ras.throttled := rfl

theorem mem_setTemp (x : Sensor) (v : Nat) (l : List (Sensor × Nat)) : (x, v) ∈ setTemp x v l := List.mem_cons_self

/-- R18, R61: an interval starts at the present clock when a sensor out of an interval reaches its throttle point. -/
theorem throttleStart_of_reached (hpg : h.pins.pgOut = true) (hpt : throttlePoint x = some lim) (hle : lim ≤ v)
    (hout : x ∉ h.ras.throttled) :
    throttleStart x v h = { readSensor x v h with ras := { (readSensor x v h).ras with
      throttled := x :: h.ras.throttled, throttleStart := setTemp x h.clock h.ras.throttleStart } } := by
  simp [throttleStart, hpg, hpt, hle, hout]

/-- The hub after a sensor's interval ended with a reading, before the interval is recorded. -/
def intervalEnded (x : Sensor) (v : Nat) (h : Hub) : Hub :=
  { readSensor x v h with ras := { (readSensor x v h).ras with
      throttled := h.ras.throttled.filter (fun y => decide (y ≠ x))
      throttleStart := h.ras.throttleStart.filter (fun e => decide (e.1 ≠ x)) } }

theorem mem_intervalEnded_throttled {y : Sensor} :
    y ∈ (intervalEnded x v h).ras.throttled ↔ y ∈ h.ras.throttled ∧ y ≠ x := by
  simp [intervalEnded]

/-- R61, R573: a reading below the throttle point ends the interval; its record changes only what a log entry can. -/
theorem throttleEnd_of_below (hpg : h.pins.pgOut = true) (hpt : throttlePoint x = some lim) (hlt : v < lim)
    (hin : x ∈ h.ras.throttled) : SwitchOnly (intervalEnded x v h) (throttleEnd x v h) := by
  simp only [throttleEnd, hpg, hpt, hlt, hin, readSensor_throttled, Bool.not_true, Bool.false_eq_true, if_false, and_self,
    if_true]
  exact logEvent_switch _ _ _

/-- R68: one reading of a DIMM that a channel has room for. -/
theorem spdTempRead_one {ch slot : Nat} (hpg : h.pins.pgOut = true) (hch : ch < 16) (hslot : slot < 2) :
    spdTempRead [(ch, slot, v)] h = readSensor (.dimm ch slot) v h := by
  simp only [spdTempRead, List.foldl_cons, List.foldl_nil, hpg, hch, hslot, and_self, if_true]

end Sensors

/-! ### Ring paths and host ports -/

theorem pathCondition_bypassed {i : PathId} {h : Hub} (hst : (getPath i h).st = .bypassed) : pathCondition i h = h := by
  simp [pathCondition, closable, hst]

/-- R74: a closing condition finds nothing to close while both paths are in bypass. -/
theorem closePaths_bypassed {h : Hub} (ha : h.pathA.st = .bypassed) (hb : h.pathB.st = .bypassed) : closePaths h = h := by
  simp only [closePaths, pathCondition_bypassed (i := .a) ha, pathCondition_bypassed (i := .b) hb]
  rfl

/-- R74, R84: in bypass the pin takes its level, and FORCED is raised when it falls. -/
theorem bypassForce_bypassed (high : Bool) {h : Hub} (ha : h.pathA.st = .bypassed) (hb : h.pathB.st = .bypassed) :
    bypassForce high h =
      if h.pins.bypassForceN && !high then raise 0x348 20 { h with pins := { h.pins with bypassForceN := high } }
      else { h with pins := { h.pins with bypassForceN := high } } := by
  have hclose : closePaths { h with pins := { h.pins with bypassForceN := high } } = _ := closePaths_bypassed ha hb
  simp only [bypassForce, hclose]

/-- Whether or not FORCED is raised, only reports follow the pin. -/
theorem bypassForce_switch (high : Bool) {h : Hub} (ha : h.pathA.st = .bypassed) (hb : h.pathB.st = .bypassed) :
    SwitchOnly { h with pins := { h.pins with bypassForceN := high } } (bypassForce high h) := by
  rw [bypassForce_bypassed high ha hb]
  exact SwitchOnly.ite (raise_switch _ _ _) (SwitchOnly.refl _)

theorem getCxl_putCxl (p : Nat) (c : CxlPort) (h : Hub) : getCxl p (putCxl p c h) = c := by
  unfold getCxl putCxl
  split <;> rfl

/-- R93: a host-port reset leaves the port without a link. -/
theorem getCxl_hostPortReset (p : Nat) (perst : Bool) (h : Hub) :
    ∃ c : CxlPort, getCxl p (hostPortReset p perst h) = { c with up := false, width := 0, rate := 0 } :=
  ⟨_, getCxl_putCxl _ _ _⟩

/-! ### The commands -/

section Commands

variable {s : State} {x : Sensor} {v lim : Nat}

theorem thermalThrottle_starts (hpg : s.hub.pins.pgOut = true) (hpt : throttlePoint x = some lim) (hle : lim ≤ v)
    (hout : x ∉ s.hub.ras.throttled) : Answers (.thermalThrottle x v) s (fun t =>
      t.hub.ras.throttled = x :: s.hub.ras.throttled ∧ (x, s.hub.clock) ∈ t.hub.ras.throttleStart ∧
      t.hub.ras.temps = setTemp x v s.hub.ras.temps ∧ t.hub.mem = s.hub.mem ∧ t.holes = s.holes ∧ t.hub.regs = s.hub.regs) := by
  refine ⟨onHub (throttleStart x v) s, rfl, ?_⟩
  simp [throttleStart_of_reached hpg hpt hle hout, mem_setTemp]

/-- R18: the power monitor's throttle point is its ceiling, so its command is a throttle as the thermal ones are. -/
theorem powerCeilingThrottle_starts (hpg : s.hub.pins.pgOut = true) (hle : 1500 ≤ v) (hout : Sensor.power ∉ s.hub.ras.throttled) :
    Answers (.powerCeilingThrottle v) s (fun t =>
      t.hub.ras.throttled = Sensor.power :: s.hub.ras.throttled ∧ t.hub.mem = s.hub.mem ∧ t.holes = s.holes ∧
      t.hub.regs = s.hub.regs) := by
  refine ⟨onHub (throttleStart .power v) s, rfl, ?_⟩
  simp [throttleStart_of_reached hpg rfl hle hout]

theorem throttleEnd_ends (hpg : s.hub.pins.pgOut = true) (hpt : throttlePoint x = some lim) (hlt : v < lim)
    (hin : x ∈ s.hub.ras.throttled) : Answers (.throttleEnd x v) s (fun t =>
      x ∉ t.hub.ras.throttled ∧ (∀ y, y ≠ x → (y ∈ t.hub.ras.throttled ↔ y ∈ s.hub.ras.throttled)) ∧ t.hub.mem = s.hub.mem ∧
      t.holes = s.holes) := by
  refine ⟨onHub (throttleEnd x v) s, rfl, ?_⟩
  have hsw := throttleEnd_of_below hpg hpt hlt hin
  refine ⟨?_, fun y hy => ?_, hsw.mem, rfl⟩
  · simp [switchOnly_throttled hsw, mem_intervalEnded_throttled]
  · simp [switchOnly_throttled hsw, mem_intervalEnded_throttled, hy]

theorem spdTempRead_stores {ch slot : Nat} (hpg : s.hub.pins.pgOut = true) (hch : ch < 16) (hslot : slot < 2) :
    Answers (.spdTempRead [(ch, slot, v)]) s (fun t =>
      t.hub.ras.temps = setTemp (.dimm ch slot) v s.hub.ras.temps ∧ t.hub.regs = s.hub.regs ∧ t.hub.mem = s.hub.mem) := by
  refine ⟨onHub (spdTempRead [(ch, slot, v)]) s, rfl, ?_⟩
  simp [spdTempRead_one hpg hch hslot]

theorem bypassForceNLow_bypassed (ha : s.hub.pathA.st = .bypassed) (hb : s.hub.pathB.st = .bypassed) :
    Answers .bypassForceNLow s (fun t => t.hub.pins = { s.hub.pins with bypassForceN := false } ∧ t.hub.pathA = s.hub.pathA ∧
      t.hub.pathB = s.hub.pathB ∧ t.hub.mem = s.hub.mem ∧ t.holes = s.holes ∧
      (s.hub.pins.bypassForceN = true → regBit 0x348 0x18 20 t.hub = true)) := by
  have hsw := (bypassForce_switch false ha hb).trans (pairTell_switch s.hub _)
  refine ⟨onHub (pairSync (bypassForce false)) s, rfl, hsw.pins, hsw.pathA, hsw.pathB, hsw.mem, rfl, fun hwas => ?_⟩
  refine (pairTell_steady s.hub _).err 0x348 20 ?_
  rw [bypassForce_bypassed false ha hb, hwas]
  exact raise_sets 0x348 20 (by norm_num) _

theorem bypassForceNHigh_bypassed (ha : s.hub.pathA.st = .bypassed) (hb : s.hub.pathB.st = .bypassed) :
    exec .bypassForceNHigh s = .next { s with hub := { s.hub with pins := { s.hub.pins with bypassForceN := true } } } := by
  have hforce := bypassForce_bypassed true ha hb
  rw [Bool.not_true, Bool.and_false, if_neg Bool.false_ne_true] at hforce
  exact congrArg (fun g => Host.Outcome.next { s with hub := g }) hforce

theorem hostPortReset_drops_link (s : State) (p : Fin 2) (perst : Bool) : Answers (.hostPortReset p perst) s (fun t =>
    (getCxl p t.hub).up = false ∧ (getCxl p t.hub).width = 0 ∧ (getCxl p t.hub).rate = 0) := by
  refine ⟨onHub (pairSync (hostPortReset p perst)) s, rfl, ?_⟩
  obtain ⟨c, hc⟩ := getCxl_hostPortReset p perst s.hub
  simp [pairSync, switchOnly_getCxl (pairTell_switch s.hub _), hc]

end Commands

/-- Settles O8, a lemma for each command. -/
theorem sensorsThrottle : Obligations.SensorsThrottle := by
  intro s x v lim hpg hpt
  exact ⟨thermalThrottle_starts hpg hpt, powerCeilingThrottle_starts hpg, throttleEnd_ends hpg hpt,
    fun _ _ => spdTempRead_stores hpg,
    fun ha hb => ⟨bypassForceNLow_bypassed ha hb, bypassForceNHigh_bypassed ha hb⟩,
    hostPortReset_drops_link s⟩

end Sys2Proof.Proofs

/-!
PROOFS. The queue of waiting commands, and the gate of a register page (R25 to R49, R53): what keeps the queue, what a write of
the header does, what the gate refuses, what no register defines.
-/
namespace Sys2Proof.Proofs

open Machine Safety Laws

/-! ### The queue of waiting commands

No operation of the model over the whole state writes `pending`. One lemma per operation, in the order of the definitions. -/

section Queue

variable (s : State)

/-- A fold of steps that keep the queue keeps it. -/
theorem foldl_pending {α : Type} (f : State → α → State) (hf : ∀ x a, (f x a).pending = x.pending) (l : List α) :
    (l.foldl f s).pending = s.pending :=
  List.foldlRecOn l f (motive := fun x => x.pending = s.pending) rfl fun x hx a _ => (hf x a).trans hx

/-! Pigeonholes -/

@[simp] theorem putHole_pending (k : Nat) (x : Hole) : (putHole k x s).pending = s.pending := rfl
@[simp] theorem dropWord_pending (k : Nat) (r : Requester) (w stamp : Word) : (dropWord k r w stamp s).pending = s.pending := rfl
@[simp] theorem flushQueue_pending (k : Nat) (second : Bool) (stamp : Word) :
    (flushQueue k second stamp s).2.pending = s.pending := rfl
@[simp] theorem pigeonClear_pending (v : Word) : (pigeonClear v s).pending = s.pending := rfl
@[simp] theorem pigeonReset_pending : (pigeonReset s).pending = s.pending := rfl
@[simp] theorem holdState_pending (f : Hub → Hub) : (holdState f s).pending = s.pending := rfl

@[simp] theorem pushWord_pending (k : Nat) (second : Bool) (w stamp : Word) : (pushWord k second w stamp s).pending = s.pending := by
  simp only [pushWord]
  split <;> rfl

@[simp] theorem pigeonSendReg_pending (k : Nat) (second : Bool) (r : Requester) (w : Word) :
    (pigeonSendReg k second r w s).pending = s.pending := by
  simp only [pigeonSendReg]
  split
  · rfl
  · split <;> simp

@[simp] theorem pigeonFlushReg_pending (k : Nat) (r : Requester) (v : Word) : (pigeonFlushReg k r v s).pending = s.pending := by
  simp only [pigeonFlushReg]
  split <;> split <;> simp

@[simp] theorem popQueue_pending (k : Nat) (second : Bool) : (popQueue k second s).pending = s.pending := by
  simp only [popQueue]
  split <;> rfl

@[simp] theorem pigeonPop_pending (k : Nat) (v : Word) : (pigeonPop k v s).pending = s.pending := by
  simp only [pigeonPop]
  split <;> split <;> simp

@[simp] theorem pigeonTake_pending (f : Frame) : (pigeonTake f s).2.pending = s.pending := by
  simp only [pigeonTake]
  split
  · rfl
  · split <;> simp

@[simp] theorem pigeonFrame_pending (f : Frame) : (pigeonFrame f s).pending = s.pending := by
  simp only [pigeonFrame]
  split
  · rfl
  · split <;> simp

/-! Requests to units -/

@[simp] theorem deliverUnit_pending (r : Req) : (deliverUnit r s).pending = s.pending := by
  simp only [deliverUnit]
  split_ifs <;> simp

@[simp] theorem deliverAny_pending (r : Req) : (deliverAny r s).pending = s.pending := by
  unfold deliverAny
  split
  · split <;> simp
  · rfl

@[simp] theorem onShapers_pending (f : Hub → List Req × Hub) : (onShapers f s).pending = s.pending :=
  foldl_pending _ _ (fun x r => deliverAny_pending x r) _

@[simp] theorem unitArrive_pending (port : Nat) (f : Frame) : (unitArrive port f s).pending = s.pending := by
  simp only [unitArrive]
  split <;> simp

@[simp] theorem dmaPigeon_pending (k q : Nat) : (dmaPigeon k q s).pending = s.pending := by
  simp only [dmaPigeon]
  split
  · rfl
  · rfl
  · split_ifs <;> simp

/-! Register reads -/

/-- Where a block answers at all, it answers with the queue as it was. -/
def OptQueue (s : State) (o : Option State) : Prop := ∀ t, o = some t → t.pending = s.pending

@[simp] theorem optQueue_none : OptQueue s none := by simp [OptQueue]
@[simp] theorem optQueue_some (t : State) : OptQueue s (some t) ↔ t.pending = s.pending := by simp [OptQueue]
@[simp] theorem optQueue_ite (c : Prop) [Decidable c] (a b : Option State) :
    OptQueue s (if c then a else b) ↔ (c → OptQueue s a) ∧ (¬c → OptQueue s b) := by
  split <;> simp [*]
@[simp] theorem optQueue_map {α : Type} (o : Option α) (f : α → State) (hf : ∀ a, (f a).pending = s.pending) :
    OptQueue s (o.map f) := by
  cases o <;> simp [hf]

theorem blockView_queue (p : PageInfo) (page off : Nat) : OptQueue s ((blockView p page off s).map Prod.snd) := by
  unfold blockView pure1
  cases p.blk with
  | codec => simp
  | _ => simp only [Option.map_map]; exact optQueue_map s _ _ (fun _ => rfl)

@[simp] theorem regValue_pending (p : PageInfo) (page roff : Nat) : (regValue p page roff s).2.pending = s.pending := by
  simp only [regValue]
  split
  · rfl
  · split
    · rename_i r hr
      exact blockView_queue s p page roff r.2 (by rw [hr]; rfl)
    · rfl

@[simp] theorem slotValue_pending (p : PageInfo) (page slot : Nat) : (slotValue p page slot s).2.pending = s.pending := by
  unfold slotValue
  split_ifs <;> rfl

@[simp] theorem read4_pending (p : PageInfo) (page off : Nat) : (read4 p page off s).2.pending = s.pending := by
  simp only [read4]
  split
  · simp
  · split <;> simp

@[simp] theorem read8_pending (p : PageInfo) (page off : Nat) : (read8 p page off s).2.pending = s.pending := by
  simp only [read8]
  split
  · simp
  · split
    · split <;> simp
    · simp

@[simp] theorem regRead_pending (r : Requester) (page off size : Nat) : (regRead r page off size s).2.pending = s.pending := by
  simp only [regRead]
  split
  · rfl
  · rfl
  · split
    · rfl
    · split_ifs <;> simp

/-! Register writes -/

@[simp] theorem enableEffect_pending (p : PageInfo) (page : Nat) (on : Bool) : (enableEffect p page on s).pending = s.pending := by
  unfold enableEffect
  split
  case h_6 => split <;> rfl
  all_goals simp

@[simp] theorem ctrlWrite_pending (p : PageInfo) (page v : Nat) : (ctrlWrite p page v s).pending = s.pending := by
  simp only [ctrlWrite]
  split <;> simp

@[simp] theorem headerWrite_pending (p : PageInfo) (page roff v : Nat) : (headerWrite p page roff v s).pending = s.pending := by
  unfold headerWrite
  split <;> simp

@[simp] theorem bringCtrlWrite_pending (v : Nat) : (bringCtrlWrite v s).pending = s.pending := by
  simp only [bringCtrlWrite]
  split_ifs <;> simp

theorem blockWrite_queue (r : Requester) (p : PageInfo) (page roff : Nat) (d : RegDef) (v : Nat) :
    OptQueue s (blockWrite r p page roff d v s) := by
  simp only [blockWrite]
  cases p.blk <;> simp

theorem eventWrite_queue (p : PageInfo) (page roff : Nat) (d : RegDef) (v : Nat) : OptQueue s (eventWrite p page roff d v s) := by
  unfold eventWrite
  split <;> simp

@[simp] theorem putWhole_pending (r : Requester) (p : PageInfo) (page roff : Nat) (d : RegDef) (v : Nat) :
    (putWhole r p page roff d v s).pending = s.pending := by
  unfold putWhole
  split
  · simp
  · split
    · exact eventWrite_queue s p page roff d v _ ‹_›
    · split
      · exact blockWrite_queue s r p page roff d v _ ‹_›
      · simp

@[simp] theorem slotWrite_pending (r : Requester) (p : PageInfo) (page off v : Nat) :
    (slotWrite r p page off v s).2.pending = s.pending := by
  simp only [slotWrite]
  split_ifs <;> rfl

@[simp] theorem put4_pending (r : Requester) (p : PageInfo) (page off v : Nat) : (put4 r p page off v s).pending = s.pending := by
  simp only [put4]
  split
  · rfl
  · split <;> simp

@[simp] theorem regPut_pending (r : Requester) (p : PageInfo) (page off size v : Nat) :
    (regPut r p page off size v s).2.pending = s.pending := by
  simp only [regPut]
  split
  · simp
  · split
    · simp
    · split
      · split <;> simp
      · simp

@[simp] theorem regWrite_pending (r : Requester) (page off size v : Nat) : (regWrite r page off size v s).2.pending = s.pending := by
  simp only [regWrite]
  split
  · rfl
  · rfl
  · split
    · rfl
    · split_ifs <;> simp

@[simp] theorem regWriteFrom_pending (r : Requester) (page off size v : Nat) :
    (regWriteFrom r page off size v s).pending = s.pending := by
  unfold regWriteFrom
  split <;> simp

@[simp] theorem twinRegWrite_pending (page off size v addr : Nat) : (twinRegWrite page off size v addr s).pending = s.pending := by
  simp only [twinRegWrite]
  split
  · rfl
  · split
    · rfl
    · split_ifs <;> simp

@[simp] theorem loadRecord_pending (rec : RegRec) : (loadRecord rec s).pending = s.pending := by
  unfold loadRecord
  split
  · rfl
  · split_ifs <;> simp

@[simp] theorem clockingDone_pending : (clockingDone s).pending = s.pending := by
  simp only [clockingDone]
  split
  · rfl
  · exact foldl_pending _ _ (fun x r => loadRecord_pending x r) _

@[simp] theorem nipRegRead_pending (q : NipHdr) (page off size : Nat) : (nipRegRead q page off size s).pending = s.pending := by
  simp only [nipRegRead]
  split <;> simp

@[simp] theorem nipRegWrite_pending (q : NipHdr) (page off size v : Nat) :
    (nipRegWrite q page off size v s).pending = s.pending := by
  simp only [nipRegWrite]
  split <;> simp

/-! Frames and the bridge -/

@[simp] theorem pairSyncS_pending (f : State → State) : (pairSyncS f s).pending = (f s).pending := rfl

@[simp] theorem regFrame_pending (bridge : Bool) (f : Frame) : (regFrame bridge f s).pending = s.pending := by
  simp only [regFrame]
  split_ifs <;> simp

@[simp] theorem localArrive_pending (p : Nat) (bridge : Bool) (f : Frame) : (localArrive p bridge f s).pending = s.pending := by
  simp only [localArrive]
  split
  · split
    · rfl
    · split <;> rfl
  · split_ifs <;> simp

@[simp] theorem admitted_pending (p : Nat) (f : Frame) : (admitted p f s).pending = s.pending := by
  simp only [admitted]
  split
  · split <;> rfl
  · split
    · rfl
    · split
      · split <;> simp
      · rfl

@[simp] theorem switched_pending (p : Nat) (f : Frame) : (switched p f s).pending = s.pending := by
  simp only [switched]
  split_ifs <;> simp

@[simp] theorem rxFrame_pending (p : Nat) (f : Frame) : (rxFrame p f s).pending = s.pending := by
  unfold rxFrame
  split
  · rfl
  · split
    · rfl
    · split <;> simp

@[simp] theorem takeMirrored_pending (r : Nat × Nat × Nat × Nat) : (takeMirrored r s).pending = s.pending := by
  unfold takeMirrored
  split
  · rfl
  · split
    · rfl
    · split_ifs <;> simp

@[simp] theorem takeHello_pending (serial : Nat) (regs : List (Nat × Nat × Nat × Nat)) (time : Nat) :
    (takeHello serial regs time s).pending = s.pending := by
  simp only [takeHello]
  split
  · exact foldl_pending _ _ (fun x r => takeMirrored_pending x r) _
  · rfl

@[simp] theorem twinHello_pending (p : Nat) (fields : List Nat) (serial : Nat) (regs : List (Nat × Nat × Nat × Nat)) (time : Nat) :
    (twinHello p fields serial regs time s).pending = s.pending := by
  simp only [twinHello]
  split_ifs <;> simp

@[simp] theorem twinReg_pending (p page off size v addr : Nat) : (twinReg p page off size v addr s).pending = s.pending := by
  unfold twinReg
  split_ifs <;> simp

/-! The shapes of a command's meaning -/

/-- The answer goes on, with the queue as it was. -/
def QueueKept (s : State) (a : Ans) : Prop := ∃ t, a = .next t ∧ t.pending = s.pending

theorem next_queue {t : State} (h : t.pending = s.pending) : QueueKept s (.next t) := ⟨t, rfl, h⟩

theorem hubRow_queue (f : Hub → Hub) : QueueKept s (hubRow f s) := next_queue s rfl
theorem syncRow_queue (f : Hub → Hub) : QueueKept s (syncRow f s) := next_queue s rfl
theorem unitRow_queue (f : Hub → Hub) : QueueKept s (unitRow f s) := next_queue s (by split <;> rfl)
theorem storeRow_queue (f : Hub → Hub) : QueueKept s (storeRow f s) := next_queue s (by split <;> rfl)
theorem storeSyncRow_queue (f : Hub → Hub) : QueueKept s (storeSyncRow f s) := next_queue s (by split <;> rfl)
theorem resetRow_queue (f : Hub → Hub) : QueueKept s (resetRow f s) := next_queue s (by split <;> rfl)
theorem regRow_queue (r : Requester) (page off size v : Nat) : QueueKept s (regRow r page off size v s) :=
  next_queue s (regWriteFrom_pending s r page off size v)
theorem frameRow_queue (p : Nat) (f : Frame) : QueueKept s (frameRow p f s) := next_queue s (rxFrame_pending s p f)

theorem viaRow_queue (loc : Nat → Nat × Nat) (mk : Frame → Frame) (via : Via) : QueueKept s (viaRow loc mk via s) := by
  cases via with
  | reg r i size v => exact regRow_queue s r _ _ size v
  | frame p f => exact frameRow_queue s p (mk f)

/-- Each command's meaning has one of the shapes; those not named are events of the hub. -/
theorem exec_queue (c : Instr) : QueueKept s (exec c s) := by
  cases c with
  | registerWrite | ownerWrite | errInjectArm | cntClear | errStatusClear | counterSlotWrite | joinEn | closeCmd | cold | warm
    | nearLoopWrite | defectAdd | defectRemove | invalidateAll | invalidateTenant | invalidateAsid | invalidateRange
    | prewalkCmd | stuFaultPop | stuTenantBaseWrite | alloc | free | pin | unpin | promote | demote | evict | setclass
    | sealTiles | hdrRead | tierCfgWrite | classLimitWrite | cursorDefine | cursorRelease | cursorDefWrite | drawerWrite
    | drawerRead | drawerDelete | reportPop | featureFloorWrite | cohAgentWrite | leaseDefine | leaseUndefine | leaseRevoke
    | leaseTake | leaseRenew | leaseGive | coreCtxBindWrite | start | stop | reset | patternLoad | commandFence | commandUnfence
    | substitute | benchTest | coreFaultPop | coreSemWrite | forceRelease | setOwner | dropMirror | tableLoad | tableUnload
    | migStart | indexLoad | indexUnload | mergeStart | mergeAbort | cxlpLdWrite | openModeWrite | meterClear | meterSnapshot
    | pigeonPop | pigeonClear | shaperReconfigure | injectT0Line | injectT1Line | injectT2Block | injectScratchpad
    | injectYumerLane | injectSwitchFrame | injectPoison | run | ctrlEnableWrite | errMaskWrite =>
    exact regRow_queue s _ _ _ _ _
  | read | write | writePosted | atomicAdd | atomicAnd | atomicOr | atomicXor | atomicSwap | atomicCas | atomicSmin | atomicSmax
    | atomicUmin | atomicUmax | atomicFadd32 | flush | tileWrite | regRead | regWrite | completion | frameForward | cohRdShared
    | cohRdOwn | cohUpgrade | cohWb | cohEvict | cohHeartbeat | cohFwdData | snoopResponse | work | attend | push | append
    | spill | fetch | offer | accept | decline | withdraw | whoOwns | ticketRelease | create | mirrorCreate | mirrorUpdate
    | probe | mirrorDrop | mirrorRequest | gather | pool | scatter | cutover | query | insert | delete | reservedOpcode =>
    exact frameRow_queue s _ _
  | cursorAdvance | poolSubmit | poolAbort | pigeonSend | pigeonFlush => exact viaRow_queue s _ _ _
  | backgroundEviction | ageEviction | stampPatrol | tierCmdDone | drawerWorkDone | cursorIdleExpiry | patternLoadDone
    | coreDrainDone | substitutionDone | benchTestDone | watchdog | dmaIn | dmaOut | dmaAtomic | dmaAdvance
    | engineCommandFinish | lineBufferExpiry | signalApply | attendWaitExpiry | attendDispatch | offerTimeout | emuApplyDone
    | migCopyDone | migFreezeDone | tombScanDone | mergeCommit | fill | copy | compare | reduce | poolPieceDone | snapshotDone
    | meterSample | monitorsDone | linksDone | memoryDone | fittingCommit =>
    exact unitRow_queue s _
  | translationWalkDone | invalidationDone | lineReadFill | homeTransactionStart | promotionDone | demotionDone | freeingDone
    | tileWriteIncomplete | walkDone | drainTimeout | retireCopy | freeMapRebuildDone =>
    exact storeRow_queue s _
  | deadTargetExpiry | agentHeartbeatTimeout | scrubPatrol => exact storeSyncRow_queue s _
  | hostPortReset | bypassForceNLow | nipiebFence | closingCondition | linkLoss | replayTimeout | leaseExpiry | laneBerLimit
    | twinHeartbeat =>
    exact syncRow_queue s _
  | pwrEnFall | railFault | modRstNAssert | thermalTrip | quiesceDone | quiesceTimeout =>
    exact resetRow_queue s _
  | nipiebRegRead => exact next_queue s (nipRegRead_pending s _ _ _ _)
  | nipiebRegWrite => exact next_queue s (nipRegWrite_pending s _ _ _ _ _)
  | clockingDone => exact next_queue s (clockingDone_pending s)
  | dmaPigeon => exact next_queue s (by split <;> simp)
  | wheelSlotDue => exact next_queue s (by split <;> simp [wheelStep])
  | twinHello => exact next_queue s (twinHello_pending s _ _ _ _ _)
  | twinReg => exact next_queue s (twinReg_pending s _ _ _ _ _ _)
  | frameCrcFail =>
    simp only [exec, execFrameCrcFail]
    split
    · exact frameRow_queue s _ _
    · exact hubRow_queue s _
  | _ => exact hubRow_queue s _

end Queue

/-- Settles O1: the front of the queue is taken off, then it acts. -/
theorem stepTakesTheFront : Obligations.StepTakesTheFront := fun _ _ _ => rfl

/-- Settles O3, by the shape of each command's meaning. -/
theorem everyCommandGoesOn : Obligations.EveryCommandGoesOn := fun c s => exec_queue s c

/-! ### What passes the gate of a page

`pairTell` speaks of agents and leases alone, so a write that only reports leaves nothing to tell. -/

section Gate

variable {r : Requester} {page pg off size v : Nat} {p : PageInfo} {s : State}

theorem pairTell_of_coh {a b : Hub} (h : b.coh = a.coh) : pairTell a b = b := by
  simp [pairTell, getAgent, h, bne]

theorem pairSyncS_of_coh {f : State → State} (h : (f s).hub.coh = s.hub.coh) : pairSyncS f s = f s := by
  simp [pairSyncS, pairTell_of_coh h]

/-- R606: no register below offset 0x40 is mirrored, and no counter is. -/
theorem mirrorWrite_unmirrored (h : off < 0x40 ∨ regAt p off = none) : mirrorWrite p page off size v = id := by
  funext g
  unfold mirrorWrite
  split
  · rfl
  · next hit hreg =>
    have hoff : off - hit.byte < 0x40 := by
      rcases h with h | h
      · omega
      · simp [h] at hreg
    have hmir : mirroredReg page (off - hit.byte) = false := by
      simp only [mirroredReg, Bool.or_eq_false_iff, Bool.and_eq_false_iff, beq_eq_false_iff_ne, decide_eq_false_iff_not]
      omega
    have hcmd : off - hit.byte ≠ 0x48 := by omega
    simp [hmir, hcmd]

/-- R27. -/
theorem accessOk_iff : accessOk off size = true ↔ size = 4 ∧ off % 4 = 0 ∨ size = 8 ∧ off % 8 = 0 := by simp [accessOk]

theorem size_of_accessOk (hs : accessOk off size = true) : size = 4 ∨ size = 8 :=
  (accessOk_iff.1 hs).imp And.left And.left

theorem regAt_slot (h : 0x800 ≤ off) : regAt p off = none := by
  have h40 : ¬ off < 0x40 := by omega
  have h800 : ¬ off < 0x800 := by omega
  simp [regAt, h40, h800]

theorem onHub_id (s : State) : onHub id s = s := rfl

/-- What an admitted write found at the gate. -/
theorem admits_iff (hpage : page < 0x1000) (hp : pageInfo page = some p) : admits r page off s = true ↔
    reaches r s.hub = true ∧ pageHome page s.hub = .mine page ∧ hiddenPage page s.hub = false ∧ pairBlank p s.hub = false ∧
      mayWrite r p page off s.hub = true := by
  simp [admits, Nat.mod_eq_of_lt hpage, hp, and_assoc]

/-- R41: a write whose path is down has no effect. -/
theorem regRow_unreached (h : reaches r s.hub = false) : regRow r page off size v s = .next s := by
  simp [regRow, pairSyncS, regWriteFrom, h, pairTell_of_coh]

/-- A write that the gate answers without a change of the domain. -/
theorem regRow_of_coh {t : State} (hr : reaches r s.hub = true) (ht : (regWrite r page off size v s).2 = t)
    (hcoh : t.hub.coh = s.hub.coh) : regRow r page off size v s = .next t := by
  have hfrom : regWriteFrom r page off size v s = t := by simp [regWriteFrom, hr, ht]
  rw [regRow, pairSyncS_of_coh (by rw [hfrom]; exact hcoh), hfrom]

/-- A write that the gate ignores. -/
theorem regRow_ignored (h : reaches r s.hub = true → (regWrite r page off size v s).2 = s) :
    regRow r page off size v s = .next s := by
  by_cases hr : reaches r s.hub = true
  · exact regRow_of_coh hr (h hr) rfl
  · exact regRow_unreached (by simpa using hr)

/-- A write that its gate lets through, of a register without a mirror, that leaves the coherence domain as it was. -/
theorem regRow_performed (hpage : page < 0x1000) (hp : pageInfo page = some p) (ha : admits r page off s = true)
    (hs : accessOk off size = true) (hm : off < 0x40 ∨ regAt p off = none)
    (hcoh : (regPut r p page off size v s).2.hub.coh = s.hub.coh) :
    regRow r page off size v s = .next (regPut r p page off size v s).2 := by
  obtain ⟨hr, hhome, hhid, hblank, hmay⟩ := (admits_iff hpage hp).1 ha
  refine regRow_of_coh hr ?_ hcoh
  simp [regWrite, hhome, hp, hhid, hs, hblank, hmay, mirrorWrite_unmirrored hm, onHub_id]

/-! What the gate refuses -/

/-- R42, R53: a refusal is recorded in DEV_LAST_DENY and reported by the page. -/
theorem noteDeny_switch (bad : Bool) (h : Hub) : SwitchOnly h (noteDeny r pg off bad h) :=
  (putReg_switch 0 0x58 _ h).trans (raise_switch pg _ _)

theorem noteDeny_sets (bad : Bool) (h : Hub) : regBit pg 0x18 (if bad then 0 else 1) (noteDeny r pg off bad h) = true :=
  raise_sets pg _ (by split <;> norm_num) _

theorem noteDeny_lastDeny (h : Hub) : getReg 0 0x58 (noteDeny r pg off false h) =
    w64 (mkFld 50 38 pg + mkFld 37 26 off + denyBits r) := by
  have hbad : mkFld 3 3 (bit01 false) = 0 := rfl
  unfold noteDeny
  rw [(raise_steady pg _ _).reg 0 0x58 (by unfold plainReg; norm_num), getReg_putReg, if_pos rfl, hbad, Nat.add_zero]

section Refused

variable (hr : reaches r s.hub = true) (hhome : pageHome page s.hub = .mine pg) (hp : pageInfo pg = some p)
  (hhid : hiddenPage pg s.hub = false)

include hr hhome hp hhid

/-- R27: a write of a size or alignment that the page does not take. -/
theorem regRow_malformed (hs : accessOk off size = false) :
    regRow r page off size v s = .next (onHub (noteDeny r pg off true) s) :=
  regRow_of_coh hr (by simp [regWrite, hhome, hp, hhid, hs]) (noteDeny_switch true s.hub).coh

/-- R42: a write that the page's ownership refuses. -/
theorem regRow_denied (hs : accessOk off size = true) (hblank : pairBlank p s.hub = false)
    (hmay : mayWrite r p pg off s.hub = false) :
    regRow r page off size v s = .next (onHub (noteDeny r pg off false) s) :=
  regRow_of_coh hr (by simp [regWrite, hhome, hp, hhid, hs, hblank, hmay]) (noteDeny_switch false s.hub).coh

end Refused

/-- R111: a hidden page takes no write. -/
theorem regRow_hidden (hhome : pageHome page s.hub = .mine pg) (hhid : hiddenPage pg s.hub = true) :
    regRow r page off size v s = .next s :=
  regRow_ignored fun _ => by
    simp only [regWrite, hhome, hhid]
    split <;> rfl

theorem regRead_malformed (hhome : pageHome page s.hub = .mine pg) (hp : pageInfo pg = some p)
    (hhid : hiddenPage pg s.hub = false) (hs : accessOk off size = false) :
    (regRead r page off size s).1 = 2 ^ (8 * size) - 1 := by
  simp [regRead, hhome, hp, hhid, hs, allOnes]

theorem noteDeny_sameMemory (bad : Bool) (h : Hub) : SameMemory h (noteDeny r pg off bad h) :=
  ⟨(noteDeny_switch bad h).mem, (noteDeny_switch bad h).poison⟩

end Gate

/-! ### Registers without an effect of their own (R30) -/

/-- The blocks whose pages only store what is written have no event register. -/
theorem putWhole_plain {r : Requester} {p : PageInfo} {page off v : Nat} {d : RegDef} {s : State}
    (hblk : p.blk ∈ [.dev, .time, .switch, .scache, .hbmc, .ddrc, .codec, .sec]) (hoff : 0x40 ≤ off) :
    putWhole r p page off d v s = onHub (storeFields page off d v) s := by
  have h40 : ¬ off < 0x40 := by omega
  simp only [List.mem_cons, List.not_mem_nil, or_false] at hblk
  rcases hblk with h | h | h | h | h | h | h | h <;> simp [putWhole, h40, eventWrite, eventRegs, blockWrite, h]

theorem registerWrite_stores {r : Requester} {page off size v : Nat} {s : State} {p : PageInfo} {d : RegDef} {k : Nat}
    (hpage : page < 0x1000) (hp : pageInfo page = some p)
    (hblk : p.blk ∈ [.dev, .time, .switch, .scache, .hbmc, .ddrc, .codec, .sec]) (hreg : regAt p off = some ⟨d, k, 0⟩)
    (hlo : 0x40 ≤ off) (hhi : off < 0x800) (hw : d.width = size) (hs : accessOk off size = true) (hv : v < 2 ^ (8 * size))
    (ha : admits r page off s = true) : AnswersHub (.registerWrite r page off size v) s (storeFields page off d v) := by
  have hmod : page % 0x1000 = page := Nat.mod_eq_of_lt hpage
  obtain ⟨t, hrow, hpend, hholes, hsent⟩ := regRow_whole (v := v) ha (by rwa [hmod]) hreg hhi hw hs
  rw [hmod, Nat.mod_eq_of_lt hv, putWhole_plain hblk hlo] at hpend hholes hsent
  exact ⟨t, hrow, hpend, hholes, hsent⟩

/-- Settles O15: what the gate stores, refuses and does not look at. -/
theorem registerWritesPassTheGate : Obligations.RegisterWritesPassTheGate := by
  intro r off size v s
  refine ⟨fun page p d k hpage hp hblk hreg hlo hhi hw hs hv ha =>
      registerWrite_stores hpage hp hblk hreg hlo hhi hw hs hv ha,
    fun page pg p hhome hp hhid hr => ⟨fun hs => ⟨regRead_malformed hhome hp hhid hs, ?_⟩, fun hs hblank hmay => ?_⟩,
    fun page h => ?_⟩
  · exact ⟨_, regRow_malformed hr hhome hp hhid hs, rfl, rfl, noteDeny_sets true s.hub, noteDeny_sameMemory true s.hub⟩
  · exact ⟨_, regRow_denied hr hhome hp hhid hs hblank hmay, rfl, rfl, noteDeny_sets false s.hub, noteDeny_lastDeny s.hub,
      noteDeny_sameMemory false s.hub⟩
  · rcases h with h | ⟨pg, hhome, hhid⟩
    · exact regRow_unreached h
    · exact regRow_hidden hhome hhid

/-! ### What no page or register defines (R25) -/

section Undefined

variable {r : Requester} {page pg off size v : Nat} {p : PageInfo} {s : State}

theorem regRead_unlisted (hhome : pageHome page s.hub = .mine pg) (hp : pageInfo pg = none) :
    regRead r page off size s = (0, s) := by
  simp [regRead, hhome, hp]

theorem regRow_unlisted (hhome : pageHome page s.hub = .mine pg) (hp : pageInfo pg = none) :
    regRow r page off size v s = .next s :=
  regRow_ignored fun _ => by simp [regWrite, hhome, hp]

/-- The access at off of the given size meets no counter in use and no register. -/
def undefinedAt (p : PageInfo) (off size : Nat) : Prop :=
  if 0x800 ≤ off then counterClass p ((off - 0x800) / 8) = 0
  else regAt p off = none ∧ (size = 8 → regAt p (off + 4) = none)

theorem read4_undefined (h : undefinedAt p off 4) : read4 p page off s = (0, s) := by
  unfold undefinedAt at h
  unfold read4
  split at h
  · simp [*, slotValue]
  · simp [*]

theorem read8_undefined (hs : accessOk off 8 = true) (h : undefinedAt p off 8) : read8 p page off s = (0, s) := by
  unfold undefinedAt at h
  unfold read8
  split at h
  · simp [*, slotValue]
  · next hlo =>
    obtain ⟨hat, hnext⟩ := h
    have hlo4 : ¬ 0x800 ≤ off + 4 := by have := accessOk_iff.1 hs; omega
    have hlower : undefinedAt p off 4 := by simp [undefinedAt, hlo, hat]
    have hupper : undefinedAt p (off + 4) 4 := by simp [undefinedAt, hlo4, hnext rfl]
    simp [hlo, hat, read4_undefined hlower, read4_undefined hupper]

theorem regRead_undefined (hhome : pageHome page s.hub = .mine pg) (hp : pageInfo pg = some p)
    (hs : accessOk off size = true) (hu : undefinedAt p off size) (hhid : hiddenPage pg s.hub = false)
    (hf : fenceHides pg s.hub = false) : regRead r page off size s = (0, s) := by
  simp only [regRead, hhome, hp, hhid, hs, hf]
  rcases size_of_accessOk hs with rfl | rfl
  · simp [read4_undefined hu]
  · simp [read8_undefined hs hu]

theorem put4_undefined (h : regAt p off = none) : put4 r p page off v s = s := by simp [put4, h]

theorem regPut_undefined (hu : undefinedAt p off size) (hs : accessOk off size = true) :
    (regPut r p page off size v s).2 = s := by
  unfold undefinedAt at hu
  unfold regPut
  split at hu
  · simp [*, slotWrite]
  · obtain ⟨hat, hnext⟩ := hu
    rcases size_of_accessOk hs with rfl | rfl
    · simp [*, put4_undefined hat]
    · simp [*, put4_undefined (hnext rfl)]

theorem regAt_undefined (hu : undefinedAt p off size) : regAt p off = none := by
  unfold undefinedAt at hu
  split at hu
  · exact regAt_slot ‹_›
  · exact hu.1

theorem regRow_undefined (hhome : pageHome page s.hub = .mine pg) (hp : pageInfo pg = some p)
    (hs : accessOk off size = true) (hu : undefinedAt p off size) (hfm : isFm r = true) :
    regRow r page off size v s = .next s :=
  regRow_ignored fun _ => by
    simp only [regWrite, hhome, hp, hs, mayWrite, hfm, mirrorWrite_unmirrored (.inr (regAt_undefined hu)),
      Bool.true_or, Bool.not_true, Bool.false_eq_true, if_false]
    split_ifs
    · rfl
    · rfl
    · exact regPut_undefined hu hs

end Undefined

/-- Settles O14: an unlisted page, then an undefined offset of a listed one. -/
theorem undefinedAddressesReadZero : Obligations.UndefinedAddressesReadZero := by
  intro r page pg off size v s hhome
  exact ⟨fun hp => ⟨regRead_unlisted hhome hp, regRow_unlisted hhome hp⟩,
    fun p hp hs hu => ⟨regRead_undefined hhome hp hs hu, regRow_undefined hhome hp hs hu⟩⟩

/-! ### The page header (R34 to R49) -/

section Header

variable {r : Requester} {page off size v : Nat} {p : PageInfo} {d : RegDef} {s : State}

/-- R30, R606: an admitted write of a whole header register is its effect alone, where that stays within what reports and
registers own. -/
theorem regRow_header (hpage : page < 0x1000) (hp : pageInfo page = some p) (ha : admits r page off s = true)
    (hreg : regAt p off = some ⟨d, 0, 0⟩) (hoff : off < 0x40) (hw : d.width = size) (hs : accessOk off size = true)
    (hv : v < 2 ^ (8 * size)) (hk : SwitchOnly s.hub (headerWrite p page off v s).hub) :
    regRow r page off size v s = .next (headerWrite p page off v s) := by
  have hput : (regPut r p page off size v s).2 = headerWrite p page off v s := by
    rw [regPut_whole hreg (by omega) hw (size_of_accessOk hs), Nat.mod_eq_of_lt hv, putWhole, if_pos hoff]
  rw [regRow_performed hpage hp ha hs (.inl hoff) (by rw [hput]; exact hk.coh), hput]

/-! OWNER and IRQ_ROUTE -/

theorem getReg_putReg_ne {o : Nat} (w : Word) (h : Hub) (hne : o ≠ off) : getReg page off (putReg page o w h) = getReg page off h := by
  rw [getReg_putReg, if_neg (by unfold regKey; omega)]

/-- R40, R44: outside a pair an OWNER write stores the owner and clears the page's routing enables. -/
theorem ownerWrite_alone {h : Hub} (hen : h.twin.en = false) : Machine.ownerWrite page v h =
    putReg page 0x30 (putFld (getReg page 0x30 h) 14 13 0) (putReg page 0x38 (w64 v &&& w64 (masks [(25, 4), (2, 0)])) h) := by
  simp [Machine.ownerWrite, hen, getReg_putReg_ne]

theorem ownerWrite_switch (page v : Nat) (h : Hub) : SwitchOnly h (Machine.ownerWrite page v h) :=
  (putReg_switch page 0x38 _ h).trans (putReg_switch page 0x30 _ _)

/-! CTRL and the counters -/

/-- A block that does nothing of its own when ENABLE changes. -/
def plainEnable (p : PageInfo) : Prop :=
  p.blk ≠ .port ∧ p.blk ≠ .mirror ∧ p.blk ≠ .shape ∧ p.blk ≠ .tier ∧ p.blk ≠ .emb ∧ p.blk ≠ .fitting

theorem enableEffect_plain (h : plainEnable p) (on : Bool) : enableEffect p page on s = s := by
  obtain ⟨hport, hmirror, hshape, htier, hemb, hfitting⟩ := h
  unfold enableEffect
  split
  case h_8 => rfl
  all_goals contradiction

/-- What CTRL stores of a written value. -/
def ctrlStored (page v : Nat) (h : Hub) : Hub := putReg page 0x10 (w64 v &&& w64 (masks [(31, 16), (1, 0)])) h

theorem ctrlWrite_plain (hclear : v.testBit 2 = false) (h : plainEnable p) :
    ctrlWrite p page v s = onHub (ctrlStored page v) s := by
  simp only [ctrlWrite, hclear, enableEffect_plain h]
  split <;> rfl

/-- CNT_CLEAR with ENABLE as it is. -/
theorem ctrlWrite_clear (hclear : v.testBit 2 = true) (hsame : regBit page 0x10 0 s.hub = v.testBit 0) :
    ctrlWrite p page v s = onHub (fun h => clearCounters p page (ctrlStored page v h)) s := by
  simp [ctrlWrite, hclear, hsame, ctrlStored, onHub]

/-- A counter slot of a page, cleared with the remainder it keeps. -/
def slotZeroed (page k : Nat) (h : Hub) : Hub :=
  { putReg page (0x800 + 8 * k) 0 h with kibSpare := Tab.erase h.kibSpare (regKey page (0x800 + 8 * k)) }

theorem slotZeroed_switch (page k : Nat) (h : Hub) : SwitchOnly h (slotZeroed page k h) := rfl

theorem tab_get_erase {α : Type} (t : Tab α) (k j : Nat) :
    Tab.get? (Tab.erase t k) j = if k = j then none else Tab.get? t j := by
  induction t with
  | nil => simp [Tab.erase, Tab.get?]
  | cons c u ih =>
    obtain ⟨i, b⟩ := c
    by_cases hik : i = k
    · subst hik
      simp only [Tab.erase, if_true, ih, Tab.get?]
      split <;> rfl
    · by_cases hij : i = j
      · subst hij
        simp [Tab.erase, Tab.get?, hik, Ne.symm hik]
      · simp [Tab.erase, Tab.get?, ih, hik, hij]

/-- Counter slot k of a page reads 0 and keeps no remainder. -/
def SlotClear (page k : Nat) (h : Hub) : Prop :=
  getReg page (0x800 + 8 * k) h = 0 ∧ Tab.get? h.kibSpare (regKey page (0x800 + 8 * k)) = none

theorem slotZeroed_clear (page k : Nat) (h : Hub) : SlotClear page k (slotZeroed page k h) :=
  ⟨by simp [slotZeroed, getReg, putReg, Tab.getD, tab_get_set], by simp [slotZeroed, tab_get_erase]⟩

theorem slotZeroed_keeps (page j : Nat) {k : Nat} {h : Hub} (hc : SlotClear page k h) : SlotClear page k (slotZeroed page j h) := by
  by_cases hjk : j = k
  · subst hjk
    exact slotZeroed_clear page j h
  · obtain ⟨hreg, hspare⟩ := hc
    have hne : 0x800 + 8 * j ≠ 0x800 + 8 * k := by omega
    exact ⟨(getReg_putReg_ne _ h hne).trans hreg, by simp [slotZeroed, tab_get_erase, hspare]⟩

theorem getReg_slotZeroed (page k : Nat) (h : Hub) (hoff : off < 0x800) : getReg page off (slotZeroed page k h) = getReg page off h :=
  getReg_putReg_ne 0 h (by omega)

/-- R34: CNT_CLEAR clears the page's class 1 counters, slot by slot. -/
def clearSlot (p : PageInfo) (page : Nat) (h : Hub) (k : Nat) : Hub := if counterClass p k = 1 then slotZeroed page k h else h

theorem clearCounters_eq (p : PageInfo) (page : Nat) (h : Hub) :
    clearCounters p page h = (List.range 24).foldl (clearSlot p page) h := rfl

/-- What every slot's clearing keeps, CNT_CLEAR keeps. -/
theorem clearCounters_keeps {P : Hub → Prop} {h : Hub} (hP : P h) (hz : ∀ x k, P x → P (slotZeroed page k x)) :
    P (clearCounters p page h) := by
  rw [clearCounters_eq]
  refine List.foldlRecOn _ _ hP fun x hx k _ => ?_
  unfold clearSlot
  split
  · exact hz x k hx
  · exact hx

theorem foldl_clearSlot_clear {k : Nat} (hk : counterClass p k = 1) {l : List Nat} (hl : k ∈ l) (h : Hub) :
    SlotClear page k (l.foldl (clearSlot p page) h) := by
  obtain ⟨before, after, rfl⟩ := List.append_of_mem hl
  rw [List.foldl_append, List.foldl_cons]
  refine List.foldlRecOn _ _ ?_ fun x hx j _ => ?_
  · simp only [clearSlot, hk, if_true]
    exact slotZeroed_clear page k _
  · unfold clearSlot
    split
    · exact slotZeroed_keeps page j hx
    · exact hx

theorem clearCounters_clear {k : Nat} (hk : counterClass p k = 1) (hlt : k < 24) (h : Hub) :
    SlotClear page k (clearCounters p page h) :=
  foldl_clearSlot_clear hk (List.mem_range.2 hlt) h

theorem clearCounters_switch (p : PageInfo) (page : Nat) (h : Hub) : SwitchOnly h (clearCounters p page h) :=
  clearCounters_keeps (P := SwitchOnly h) (SwitchOnly.refl h) fun x k hx => hx.trans (slotZeroed_switch page k x)

theorem clearCounters_ctrl (p : PageInfo) (page : Nat) (h : Hub) : getReg page 0x10 (clearCounters p page h) = getReg page 0x10 h :=
  clearCounters_keeps (P := fun x => getReg page 0x10 x = getReg page 0x10 h) rfl
    fun x k hx => (getReg_slotZeroed page k x (by norm_num)).trans hx

/-! ERR_STATUS, ERR_MASK, ERR_INJECT -/

theorem signalMsix_getReg (page pg off : Nat) (h : Hub) : getReg pg off (signalMsix page h) = getReg pg off h := by
  unfold signalMsix
  dsimp only
  split <;> rfl

/-- R47: a page that sends no event frame signals by MSI-X alone. -/
theorem signalPage_msix {h : Hub} (hroute : regBit page 0x30 14 h = false) : signalPage page h = signalMsix page h := by
  simp [signalPage, hroute]

theorem clearBits_switch (page o mask v : Nat) (h : Hub) : SwitchOnly h (clearBits page o mask v h) :=
  SwitchOnly.ite ((putReg_switch page o _ h).trans (signalPage_moves switch_moves page _)) (putReg_switch page o _ h)

/-- R47: clearing error bits of a page that sends no event frame changes no other register. -/
theorem clearBits_getReg {mask : Nat} {h : Hub} (hroute : regBit page 0x30 14 h = false) :
    getReg page off (clearBits page 0x18 mask v h) =
      getReg page off (putReg page 0x18 (getReg page 0x18 h &&& ~~~ (w64 v &&& w64 mask)) h) := by
  have hroute' (w : Word) : regBit page 0x30 14 (putReg page 0x18 w h) = false := by
    rw [regBit, getReg_putReg_ne _ _ (by norm_num)]
    exact hroute
  simp only [clearBits]
  split
  · rw [signalPage_msix (hroute' _), signalMsix_getReg]
  · rfl

theorem withSignal_steady (page : Nat) (f : Hub → Hub) (h : Hub) : Steady (f h) (withSignal page f h) := by
  unfold withSignal
  dsimp only
  split
  · exact signalPage_moves steady_moves page _
  · exact steady_moves.refl _

theorem setErrBit_sets (page : Nat) {b : Nat} (hb : b < 64) (h : Hub) : regBit page 0x18 b (setErrBit page b h) = true := by
  have hput : regBit page 0x18 b (putReg page 0x18 (putBit (getReg page 0x18 h) b true) h) = true := by
    rw [regBit, getReg_putReg, if_pos rfl]
    exact bit_put _ b hb
  unfold setErrBit
  dsimp only
  split
  · exact hput
  · exact (captureFirst_moves steady_moves page b _).err page b hput

/-- R39: an injected report sets the bit it names and INJECTED. -/
theorem raiseInjected_sets (page : Nat) {b : Nat} (hb : b < 64) (h : Hub) :
    regBit page 0x18 b (raiseInjected page b h) = true ∧ regBit page 0x18 2 (raiseInjected page b h) = true := by
  constructor
  · exact (withSignal_steady page _ h).err page b ((steady_moves.err page 2 _).err page b (setErrBit_sets page hb h))
  · refine (withSignal_steady page _ h).err page 2 ?_
    rw [regBit, getReg_putReg, if_pos rfl]
    exact bit_put _ 2 (by norm_num)

theorem errInjectWrite_switch (p : PageInfo) (page v : Nat) (h : Hub) : SwitchOnly h (errInjectWrite p page v h) :=
  SwitchOnly.ite ((putReg_switch page 0x28 _ h).trans (raiseInjected_switch _ _ _)) (putReg_switch page 0x28 _ h)

/-! Counter slots -/

/-- R48, R49: a write of a class 1 counter slot, by what it writes. -/
theorem regPut_slot (k : Nat) (hk : counterClass p k = 1) : (regPut r p page (0x800 + 8 * k) size v s).2 =
    if v % 2 ^ (8 * size) = 0 then onHub (slotZeroed page k) s else onHub (noteDeny r page (0x800 + 8 * k) true) s := by
  have hslot : (0x800 + 8 * k - 0x800) / 8 = k := by omega
  simp only [regPut, Nat.le_add_right, if_true, slotWrite, hslot, hk, ne_eq, not_true, if_false]
  split <;> rfl

/-- An admitted write of a class 1 counter slot. -/
theorem regRow_slot {k : Nat} (hpage : page < 0x1000) (hp : pageInfo page = some p)
    (ha : admits r page (0x800 + 8 * k) s = true) (hk : counterClass p k = 1) (hsize : size = 4 ∨ size = 8) :
    regRow r page (0x800 + 8 * k) size v s = .next (if v % 2 ^ (8 * size) = 0 then onHub (slotZeroed page k) s
      else onHub (noteDeny r page (0x800 + 8 * k) true) s) := by
  have hs : accessOk (0x800 + 8 * k) size = true := accessOk_iff.2 (by omega)
  rw [regRow_performed hpage hp ha hs (.inr (regAt_slot (by omega))), regPut_slot k hk]
  rw [regPut_slot k hk]
  split
  · exact (slotZeroed_switch page k s.hub).coh
  · exact (noteDeny_switch true s.hub).coh

end Header

/-! ### The commands of the header -/

section Commands

variable {r : Requester} {page v : Nat} {p : PageInfo} {s : State}

theorem maskOff_status (page : Nat) : maskOff page false = 0x1C := by
  unfold maskOff
  split <;> rfl

theorem statusOff_status (page : Nat) : statusOff page false = 0x18 := by
  unfold statusOff
  split <;> rfl

/-- CNT_CLEAR is no bit that CTRL keeps. -/
theorem ctrlStored_or_clear (h : Hub) : ctrlStored page (v ||| 4) h = ctrlStored page v h := by
  have hbit : w64 4 &&& w64 (masks [(31, 16), (1, 0)]) = 0#64 := by decide
  have hor : w64 (v ||| 4) = w64 v ||| w64 4 := BitVec.ofNat_or ..
  unfold ctrlStored
  rw [hor, BitVec.and_or_distrib_right, hbit, BitVec.or_zero]

section Admitted

variable (hpage : page < 0x1000) (hp : pageInfo page = some p)

include hpage hp

theorem ownerWrite_answers (ha : admits r page 0x38 s = true) (hv : v < 2 ^ 64) (hen : s.hub.twin.en = false) :
    AnswersHub (.ownerWrite r page v) s (fun h =>
      putReg page 0x30 (putFld (getReg page 0x30 h) 14 13 0) (putReg page 0x38 (w64 v &&& w64 (masks [(25, 4), (2, 0)])) h)) := by
  refine ⟨_, regRow_header hpage hp ha rfl (by norm_num) rfl rfl hv (ownerWrite_switch page v s.hub), rfl, rfl, ?_⟩
  change SameButSent _ (Machine.ownerWrite page v s.hub)
  rw [ownerWrite_alone hen]
  exact sent_refl _

theorem ctrlEnableWrite_answers (ha : admits r page 0x10 s = true) (hv : v < 2 ^ 32) (hclear : v.testBit 2 = false)
    (hplain : plainEnable p) : AnswersHub (.ctrlEnableWrite r page v) s (ctrlStored page v) := by
  have hw : headerWrite p page 0x10 v s = onHub (ctrlStored page v) s := ctrlWrite_plain hclear hplain
  refine ⟨_, regRow_header hpage hp ha rfl (by norm_num) rfl rfl hv ?_, ?_⟩
  · rw [hw]
    exact putReg_switch page 0x10 _ s.hub
  · rw [hw]
    exact ⟨rfl, rfl, sent_refl _⟩

theorem cntClear_answers (ha : admits r page 0x10 s = true) (hv : v < 2 ^ 32) (hsame : regBit page 0x10 0 s.hub = v.testBit 0) :
    Answers (.cntClear r page v) s (fun t =>
      (∀ k, counterClass p k = 1 → k < 24 → SlotClear page k t.hub) ∧
      getReg page 0x10 t.hub = w64 v &&& w64 (masks [(31, 16), (1, 0)]) ∧ t.hub.mem = s.hub.mem ∧ t.holes = s.holes) := by
  have hw : headerWrite p page 0x10 (v ||| 4) s = onHub (fun h => clearCounters p page (ctrlStored page v h)) s := by
    have hclear : (v ||| 4).testBit 2 = true := by rw [Nat.testBit_or, show Nat.testBit 4 2 = true from rfl, Bool.or_true]
    have hsame' : regBit page 0x10 0 s.hub = (v ||| 4).testBit 0 := by simp [hsame]
    refine (ctrlWrite_clear (p := p) hclear hsame').trans ?_
    simp only [ctrlStored_or_clear]
  have hk : SwitchOnly s.hub (headerWrite p page 0x10 (v ||| 4) s).hub := by
    rw [hw]
    exact (putReg_switch page 0x10 _ s.hub).trans (clearCounters_switch p page _)
  refine ⟨_, regRow_header hpage hp ha rfl (by norm_num) rfl rfl (Nat.or_lt_two_pow hv (by norm_num)) hk, ?_⟩
  refine ⟨fun k hclass hlt => ?_, ?_, hk.mem, ?_⟩
  · rw [hw]
    exact clearCounters_clear hclass hlt _
  · rw [hw, onHub_hub, clearCounters_ctrl, ctrlStored, getReg_putReg, if_pos rfl]
  · rw [hw]
    rfl

theorem errMaskWrite_answers (ha : admits r page 0x1C s = true) (hv : v < 2 ^ 32) :
    Answers (.errMaskWrite r page false v) s (fun t => getReg page 0x1C t.hub = w64 v &&& w64 (errBits p ||| 0x1F) ∧
      t.hub.mem = s.hub.mem ∧ t.holes = s.holes) := by
  have hk : SwitchOnly s.hub (headerWrite p page 0x1C v s).hub := withSignal_moves switch_moves page (putReg_switch page 0x1C _ s.hub)
  refine ⟨headerWrite p page 0x1C v s, ?_, ?_, hk.mem, rfl⟩
  · change regRow r page (maskOff page false) 4 v s = _
    rw [maskOff_status page]
    exact regRow_header hpage hp ha rfl (by norm_num) rfl rfl hv hk
  · refine ((withSignal_steady page _ s.hub).reg page 0x1C (by unfold plainReg; norm_num)).trans ?_
    rw [getReg_putReg, if_pos rfl]

theorem errStatusClear_answers (ha : admits r page 0x18 s = true) (hv : v < 2 ^ 32) (hroute : regBit page 0x30 14 s.hub = false) :
    Answers (.errStatusClear r page false v) s (fun t =>
      getReg page 0x18 t.hub = getReg page 0x18 s.hub &&& ~~~ (w64 v &&& w64 (masks [(31, 16), (4, 0)])) ∧
      (∀ o, o ≠ 0x18 → o < 0x1000 → getReg page o t.hub = getReg page o s.hub) ∧ t.hub.mem = s.hub.mem ∧ t.holes = s.holes) := by
  have hk : SwitchOnly s.hub (headerWrite p page 0x18 v s).hub := clearBits_switch page 0x18 _ v s.hub
  refine ⟨headerWrite p page 0x18 v s, ?_, ?_, fun o ho _ => ?_, hk.mem, rfl⟩
  · change regRow r page (statusOff page false) 4 v s = _
    rw [statusOff_status]
    exact regRow_header hpage hp ha rfl (by norm_num) rfl rfl hv hk
  · refine (clearBits_getReg hroute).trans ?_
    rw [getReg_putReg, if_pos rfl]
  · exact (clearBits_getReg hroute).trans (getReg_putReg_ne _ _ (Ne.symm ho))

theorem errInjectArm_answers (ha : admits r page 0x28 s = true) (hv : v < 2 ^ 64)
    (hbit : (errBits p ||| 0x1B).testBit (v % 32) = true) :
    Answers (.errInjectArm r page v) s (fun t => regBit page 0x18 (v % 32) t.hub = true ∧ regBit page 0x18 2 t.hub = true ∧
      t.hub.mem = s.hub.mem ∧ t.holes = s.holes) := by
  have hk : SwitchOnly s.hub (headerWrite p page 0x28 (v ||| 0x100) s).hub := errInjectWrite_switch p page _ s.hub
  have harm : (v ||| 0x100).testBit 8 = true := by rw [Nat.testBit_or, show Nat.testBit 0x100 8 = true from rfl, Bool.or_true]
  have hmod : (v ||| 0x100) % 32 = v % 32 := by
    rw [show 32 = 2 ^ 5 from rfl, Nat.or_mod_two_pow]
    simp
  have hw : (headerWrite p page 0x28 (v ||| 0x100) s).hub = raiseInjected page (v % 32)
      (putReg page 0x28 (w64 (v ||| 0x100) &&& w64 (masks [(63, 32), (4, 0)])) s.hub) := by
    simp [headerWrite, errInjectWrite, harm, hmod, hbit]
  obtain ⟨hset, hinjected⟩ := raiseInjected_sets page (b := v % 32) (by omega)
    (putReg page 0x28 (w64 (v ||| 0x100) &&& w64 (masks [(63, 32), (4, 0)])) s.hub)
  refine ⟨_, regRow_header hpage hp ha rfl (by norm_num) rfl rfl (Nat.or_lt_two_pow hv (by norm_num)) hk, ?_, ?_, hk.mem, rfl⟩
  · rwa [hw]
  · rwa [hw]

theorem counterSlotWrite_zero {k : Fin 256} {size : Nat} (ha : admits r page (0x800 + 8 * k.val) s = true)
    (hk : counterClass p k = 1) (hsize : size = 4 ∨ size = 8) :
    AnswersHub (.counterSlotWrite r page k size 0) s (slotZeroed page k) :=
  ⟨onHub (slotZeroed page k) s, (regRow_slot (v := 0) hpage hp ha hk hsize).trans (by rw [Nat.zero_mod, if_pos rfl]), rfl, rfl,
    sent_refl _⟩

theorem counterSlotWrite_nonzero {k : Fin 256} {size : Nat} (ha : admits r page (0x800 + 8 * k.val) s = true)
    (hk : counterClass p k = 1) (hsize : size = 4 ∨ size = 8) (hpos : 0 < v) (hv : v < 2 ^ 32) :
    Answers (.counterSlotWrite r page k size v) s (fun t => regBit page 0x18 0 t.hub = true ∧
      t.hub.mem = s.hub.mem ∧ t.holes = s.holes) := by
  have hne : v % 2 ^ (8 * size) ≠ 0 := by
    rw [Nat.mod_eq_of_lt (by rcases hsize with rfl | rfl <;> omega)]
    omega
  exact ⟨onHub (noteDeny r page (0x800 + 8 * k.val) true) s, (regRow_slot hpage hp ha hk hsize).trans (by rw [if_neg hne]),
    noteDeny_sets true s.hub, (noteDeny_switch true s.hub).mem, rfl⟩

end Admitted

end Commands

/-- Settles O11, a lemma for each command. -/
theorem headerCommandsAct : Obligations.HeaderCommandsAct := by
  intro r page p s hpage hp
  exact ⟨fun v ha hv hen => ownerWrite_answers hpage hp ha hv hen,
    fun v ha hv hclear hport hmirror hshape htier hemb hfitting =>
      ctrlEnableWrite_answers hpage hp ha hv hclear ⟨hport, hmirror, hshape, htier, hemb, hfitting⟩,
    fun v ha hv hsame => cntClear_answers hpage hp ha hv hsame,
    fun v ha hv => errMaskWrite_answers hpage hp ha hv,
    fun v ha hv hroute => errStatusClear_answers hpage hp ha hv hroute,
    fun v ha hv hbit => errInjectArm_answers hpage hp ha hv hbit,
    fun k size v ha hk hsize => ⟨counterSlotWrite_zero hpage hp ha hk hsize,
      fun hpos hv => counterSlotWrite_nonzero hpage hp ha hk hsize hpos hv⟩⟩

end Sys2Proof.Proofs

/-!
PROOFS. The state after reset; the rails and pins that start the module; what a loss of power or a reset pin takes from it
(R56 to R61, R76, R92, R95, R98, R236, R516, R521).
-/
namespace Sys2Proof.Proofs

open Machine Safety Laws

/-- Settles O5: each part stands in the definition of the reset state. -/
theorem resetState : Obligations.ResetState := by
  refine ⟨rfl, rfl, rfl, rfl, rfl, rfl, fun _ he => ?_, reset_mem_wf, rfl⟩
  exact absurd he List.not_mem_nil

/-! ### What starts the module -/

section Start

variable {f : Hub → Hub} {s : State} {g h : Hub}

/-- A command whose meaning changes the hub alone, by the hub it gives. -/
theorem hubRow_to (hf : f s.hub = g) : hubRow f s = .next { s with hub := g } := hf ▸ rfl

/-- R236: VAUX3 coming into range resumes the calendar from its record. -/
theorem vaux3On_restores (hoff : h.pins.vaux3 = false) :
    vaux3On h = calendarRestore { h with pins := { h.pins with vaux3 := true } } := by
  simp [vaux3On, hoff]

/-- R95: a bring-up starts from Held when PG_OUT and MOD_RST_N are high. -/
theorem startBringUp_held (hpg : h.pins.pgOut = true) (hrst : h.pins.modRstN = true) (hheld : h.boot.phase = .held) :
    startBringUp h = { h with boot := { h.boot with phase := .ledger, startedAt := h.clock } } := by
  simp [startBringUp, hpg, hrst, hheld]

theorem startBringUp_unpowered (hpg : h.pins.pgOut = false) : startBringUp h = h := by
  simp [startBringUp, hpg]

/-- R58, R92: PG_OUT rises when the converters are on and no trip is latched, and a bring-up starts from Held. -/
theorem pgOutRise_held (hen : h.pins.pwrEn = true) (htrip : h.pins.thermTripN = true) (hpg : h.pins.pgOut = false)
    (hrst : h.pins.modRstN = true) (hheld : h.boot.phase = .held) :
    pgOutRise h = { h with pins := { h.pins with pgOut := true },
                           boot := { h.boot with kind := 0, phase := .ledger, startedAt := h.clock } } := by
  simp only [pgOutRise, hen, htrip, hpg, Bool.not_false, and_self, if_true]
  exact startBringUp_held rfl hrst hheld

/-- R65, R98: port 0 takes its width and rate when training ends on a Ready module whose PERST0_N is high. -/
theorem cxlLinkUp_ready {rate : Nat} (x4 : Bool) (hlo : 1 ≤ rate) (hhi : rate ≤ 6) (hready : h.boot.phase = .ready)
    (hperst : h.pins.perst0N = true) (hdown : h.cxl0.up = false) :
    cxlLinkUp 0 x4 rate h = putCxl 0 { h.cxl0 with up := true, width := if x4 then 4 else 8, rate := rate } h := by
  simp [cxlLinkUp, perstHigh, pastClocking, getCxl, hlo, hhi, hready, hperst, hdown]

/-- R98: a Ready module whose PERST0_N is high answers a configuration write. -/
theorem cxlConfig_write_ready (n : Nat) (hready : h.boot.phase = .ready) (hperst : h.pins.perst0N = true) :
    cxlConfig 0 n true h = emit (.cxlIo 0 n 0) h := by
  simp [cxlConfig, perstHigh, pastClocking, hready, hperst]

end Start

/-- Settles O6, each command by the whole state it answers. -/
theorem railsStartTheModule : Obligations.RailsStartTheModule := fun _ =>
  ⟨fun hoff => hubRow_to (vaux3On_restores hoff), rfl, rfl,
    fun hen htrip hpg hrst hheld => hubRow_to (pgOutRise_held hen htrip hpg hrst hheld),
    fun hpg hheld => hubRow_to (startBringUp_held hpg rfl hheld),
    fun hpg => hubRow_to (startBringUp_unpowered hpg), rfl, rfl,
    fun x4 _ hlo hhi hready hperst hdown => hubRow_to (cxlLinkUp_ready x4 hlo hhi hready hperst hdown),
    fun ld hready hperst => hubRow_to (cxlConfig_write_ready ld hready hperst)⟩

/-! ### What a loss of power or a reset takes -/

section Fall

variable {f : Hub → Hub} {s t : State} {h : Hub} {kind : Nat} {p : Pins}

/-- R92: the hub has entered reset from some state, for a cause and with the pins as given. -/
def HeldAs (kind : Nat) (p : Pins) (h : Hub) : Prop :=
  ∃ save g a, h = { holdHub kind save g with pins := p, armoire := a }

/-- R92, R95, R521: what entry to Held leaves of a module that was at s. -/
def Cleared (s t : State) : Prop :=
  t.pending = s.pending ∧ t.hub.boot.phase = .held ∧ t.hub.mem = [] ∧ t.hub.poison = [] ∧ t.hub.stu = {} ∧ t.hub.tier = {} ∧
  t.hub.cores = [] ∧ t.hub.cur = {} ∧ t.hub.cloak = {} ∧ t.hub.emb = {} ∧ t.hub.search = {} ∧ t.hub.pou = {} ∧ t.hub.meter = {} ∧
  t.hub.ports = [] ∧ t.hub.egress = [] ∧
  (s.hub.boot.phase ≠ .held → t.holes = []) ∧ (s.hub.boot.phase = .held → t.holes = s.holes)

theorem HeldAs.pins_eq (hh : HeldAs kind p h) : h.pins = p := by
  obtain ⟨save, g, a, rfl⟩ := hh
  rfl

theorem HeldAs.kind_eq (hh : HeldAs kind p h) : h.boot.kind = kind := by
  obtain ⟨save, g, a, rfl⟩ := hh
  rfl

theorem HeldAs.phase_eq (hh : HeldAs kind p h) : h.boot.phase = .held := by
  obtain ⟨save, g, a, rfl⟩ := hh
  rfl

/-- The pins of a held hub are its own to change. -/
theorem HeldAs.withPins (hh : HeldAs kind p h) (q : Pins) : HeldAs kind q { h with pins := q } := by
  obtain ⟨save, g, a, rfl⟩ := hh
  exact ⟨save, g, a, rfl⟩

theorem HeldAs.cleared (hh : HeldAs kind p t.hub) (hpend : t.pending = s.pending) (hlost : s.hub.boot.phase ≠ .held → t.holes = [])
    (hkept : s.hub.boot.phase = .held → t.holes = s.holes) : Cleared s t := by
  obtain ⟨save, g, a, hh⟩ := hh
  unfold Cleared
  rw [hh]
  exact ⟨hpend, rfl, rfl, rfl, rfl, rfl, rfl, rfl, rfl, rfl, rfl, rfl, rfl, rfl, rfl, hlost, hkept⟩

/-- R109, R521: an event after which the hub is in reset clears it, and the Pigeonholes of a module that was not held. -/
theorem resetRow_held (hf : HeldAs kind p (f s.hub)) :
    ∃ t, resetRow f s = .next t ∧ Cleared s t ∧ t.hub.pins = p ∧ t.hub.boot.kind = kind := by
  have hheld : (onHub f s).hub.boot.phase = .held := hf.phase_eq
  by_cases hwas : s.hub.boot.phase = .held
  · refine ⟨onHub f s, ?_, hf.cleared rfl (absurd hwas) (fun _ => rfl), hf.pins_eq, hf.kind_eq⟩
    simp only [resetRow, hheld, hwas, ne_eq, not_true, false_and, if_false]
  · refine ⟨pigeonReset (onHub f s), ?_, hf.cleared rfl (fun _ => rfl) (fun h => absurd h hwas), hf.pins_eq, hf.kind_eq⟩
    simp only [resetRow, hheld, ne_eq, Ne.symm hwas, not_false_eq_true, true_or, and_self, if_true]

/-- R59: when PG_OUT falls the hub is held. -/
theorem powerDown_held (hpg : h.pins.pgOut = true) : HeldAs 0 { h.pins with pgOut := false } (powerDown h) := by
  simp only [powerDown, hpg, if_true]
  exact ⟨_, _, _, rfl⟩

/-- R59, R61: PWR_EN falls, and the trip latch opens. -/
theorem pwrEnFall_held (hpg : h.pins.pgOut = true) :
    HeldAs 0 { h.pins with pgOut := false, pwrEn := false, thermTripN := true } (pwrEnFall h) := by
  have hdown := powerDown_held hpg
  have hfall := hdown.withPins { (powerDown h).pins with pwrEn := false, thermTripN := true }
  rw [hdown.pins_eq] at hfall
  simpa only [pwrEnFall, hdown.pins_eq] using hfall

/-- R61: a sensor at its trip point drops the rails and latches THERM_TRIP_N. -/
theorem thermalTrip_held {x : Sensor} {v lim : Nat} (hpg : h.pins.pgOut = true) (hpt : tripPoint x = some lim) (hle : lim ≤ v) :
    HeldAs 0 { h.pins with pgOut := false, thermTripN := false } (thermalTrip x v h) := by
  have hdown := powerDown_held (h := logEvent 0x03 (sensorBytes x ++ bytesLE 1 v) h) (by rwa [logEvent_pins])
  rw [logEvent_pins] at hdown
  have htrip := hdown.withPins { h.pins with pgOut := false, thermTripN := false }
  simpa only [thermalTrip, hpt, hpg, hle, and_self, if_true, hdown.pins_eq] using htrip

/-- R92: MOD_RST_N going low holds the hub of a powered module at once (log entry 62). -/
theorem modRstAssert_held (hpg : h.pins.pgOut = true) (hrst : h.pins.modRstN = true) :
    HeldAs (if h.boot.phase = .held then h.boot.kind else 1) { h.pins with modRstN := false } (modRstAssert h) := by
  simp only [modRstAssert, hrst, hpg, if_true]
  exact ⟨true, _, _, rfl⟩

end Fall

/-- Settles O7: each of the four events holds the hub, and entry to Held clears it. -/
theorem powerFalls : Obligations.PowerFalls := by
  intro s hpg
  refine ⟨?_, ?_, fun x v lim hpt hle => ?_, fun hrst => ?_⟩
  · exact resetRow_held (pwrEnFall_held hpg)
  · exact resetRow_held (powerDown_held hpg)
  · obtain ⟨t, hrow, hcleared, hpins, -⟩ := resetRow_held (f := thermalTrip x v) (thermalTrip_held hpg hpt hle)
    exact ⟨t, hrow, hcleared, hpins⟩
  · exact resetRow_held (modRstAssert_held hpg hrst)

end Sys2Proof.Proofs

/-!
PROOFS. A Nipieb register write of a Joined member (R71, R607, R610): the loss of a domain agent that it causes is told over the
bridge once the write has been performed, and the frame is counted, so registers change beyond the write's own effect.
-/
namespace Sys2Proof.Proofs

open Machine Safety Laws

/-- A Joined member that serves, with bridge port 8 Ready, no frame counted on the bridge, and domain agent 2 Active. -/
def joinedWithAgent : State :=
  { hub := { boot := { phase := .ready }, pins := { vaux3 := true, pwrEn := true, modRstN := true, pgOut := true },
             side := { dynAddr := some 8 }, ports := [(8, { st := .ready })], twin := { en := true, st := .joined },
             coh := { agents := [(2, { st := .active })] } } }

/-- The fabric manager withdraws agent 2 (R312): COH_AGENT entry 2 written with EN = 0. -/
def withdrawAgent : Instr := .nipiebRegWrite {} 0x60 0x110 8 0

theorem joinedWithAgent_served : nipServed false {} joinedWithAgent.hub = true := by decide +kernel

/-- The write itself sends one frame over the bridge, the mirrored register of R606. -/
theorem regWrite_withdraw_sent :
    getReg twinPage 0x800 (regWrite .sideband 0x60 0x110 8 0 joinedWithAgent).2.hub = 1 := by decide +kernel

/-- The command sends a second one, the agent's loss of R607. -/
theorem nipRegWrite_withdraw_sent :
    getReg twinPage 0x800 (pairSyncS (nipRegWrite {} 0x60 0x110 8 0) joinedWithAgent).hub = 2 := by decide +kernel

theorem exec_withdrawAgent : exec withdrawAgent joinedWithAgent = .next (pairSyncS (nipRegWrite {} 0x60 0x110 8 0) joinedWithAgent) := rfl

/-- Refutes O43: a NIPIEB_REG_WRITE that withdraws an Active agent of a Joined member leaves another counter of bridge frames than
its register write does. -/
theorem not_sidebandActs : ¬ Obligations.SidebandActs := by
  intro hacts
  obtain ⟨-, -, -, -, hpowered, -⟩ := hacts {} joinedWithAgent
  obtain ⟨-, hwrite, -⟩ := hpowered joinedWithAgent_served
  obtain ⟨u, hexec, hregs, -⟩ := hwrite 0x60 0x110 8 0 rfl
  have hu : pairSyncS (nipRegWrite {} 0x60 0x110 8 0) joinedWithAgent = u :=
    Host.Outcome.next.inj (exec_withdrawAgent.symm.trans hexec)
  have hsame : getReg twinPage 0x800 u.hub = getReg twinPage 0x800 (regWrite .sideband 0x60 0x110 8 0 joinedWithAgent).2.hub := by
    unfold getReg
    rw [hregs]
  rw [← hu, nipRegWrite_withdraw_sent, regWrite_withdraw_sent] at hsame
  exact absurd hsame (by decide)

end Sys2Proof.Proofs

/-!
PROOFS. What an update of the Armoire changes (R571, R572), and that only a tick moves the clock (log entry 5): one lemma for each
operation that closing a ring path can come to (R74 to R77, R254, R312), the store and its tiles, requests at their home, agents
that are lost, ports and paths.
-/
namespace Sys2Proof.Proofs

open Machine Safety Laws

/-! ### Updates of the Armoire -/

section Armoire

variable {R : Hub → Hub → Prop}

/-- R571: the lines of an update are verified, and what fails is reported. -/
theorem verifyLines_moves (m : Moves R) (h : Hub) : R h (verifyLines h) := by
  have hreports (p : Prop) [Decidable p] (b : Nat) (x : Hub) : R x (if p then raise 0x310 b x else x) :=
    m.ite (raise_moves m 0x310 b x) (m.refl x)
  unfold verifyLines
  dsimp only
  split
  · exact m.armoire _ h
  · exact m.trans (m.trans (m.trans (m.armoire _ h) (count_moves m 0x310 1 _ _ (by norm_num))) (hreports _ 19 _)) (hreports _ 16 _)

theorem armTouch_moves (m : Moves R) (region : Nat) (h : Hub) : R h (armTouch region h) :=
  m.trans (m.armoire _ h) (verifyLines_moves m _)

theorem counterSave_moves (m : Moves R) (h : Hub) : R h (counterSave h) :=
  m.trans (m.armoire _ h) (armTouch_moves m 8 _)

theorem counterSave_switch (h : Hub) : SwitchOnly h (counterSave h) := counterSave_moves switch_moves h

end Armoire

/-! ### The clock

The facts that hold by unfolding alone are given as `(rfl)`: `simp` then rewrites by them, and no long chain of operations is left
for the kernel to compare by evaluation.
-/

section Clock

variable (h : Hub)

/-! The shapes of operations -/

@[simp] theorem ite_clock (c : Prop) [Decidable c] (a b : Hub) : (if c then a else b).clock = if c then a.clock else b.clock :=
  apply_ite Hub.clock c a b

variable {h} in
theorem ite_keeps_clock {c : Prop} [Decidable c] {a b : Hub} (ha : a.clock = h.clock) (hb : b.clock = h.clock) :
    (if c then a else b).clock = h.clock := by
  split <;> assumption

/-- A fold of operations that keep the clock keeps it. -/
@[simp] theorem foldl_clock {α : Type} (f : Hub → α → Hub) (hf : ∀ x a, (f x a).clock = x.clock) (l : List α) :
    (l.foldl f h).clock = h.clock :=
  List.foldlRecOn l f (motive := fun x => x.clock = h.clock) rfl fun x hx a _ => (hf x a).trans hx

/-- Where an operation gives a hub at all, its clock is that of h. -/
def OptClock (o : Option Hub) : Prop := ∀ x, o = some x → x.clock = h.clock

@[simp] theorem optClock_none : OptClock h none := by simp [OptClock]
@[simp] theorem optClock_some (x : Hub) : OptClock h (some x) ↔ x.clock = h.clock := by simp [OptClock]

variable {h} in
theorem OptClock.map {o : Option Hub} {f : Hub → Hub} (ho : OptClock h o) (hf : ∀ x, (f x).clock = x.clock) :
    OptClock h (o.map f) := by
  cases o with
  | none => simp
  | some x => simpa [hf] using ho

variable {h} in
theorem OptClock.bind {o : Option Hub} {f : Hub → Option Hub} (ho : OptClock h o) (hf : ∀ x, OptClock x (f x)) :
    OptClock h (o.bind f) := by
  cases o with
  | none => simp
  | some x =>
    intro y hy
    exact (hf x y hy).trans (ho x rfl)

/-! Reports and frames that leave -/

@[simp] theorem raiseInjected_clock (p b : Nat) : (raiseInjected p b h).clock = h.clock := (raiseInjected_switch p b h).clock
@[simp] theorem raiseQuiet_clock (p b : Nat) : (raiseQuiet p b h).clock = h.clock := (raiseQuiet_switch p b h).clock
@[simp] theorem armoireAppend_clock (k : Nat) (d : List Byte) : (armoireAppend k d h).clock = h.clock :=
  (armoireAppend_switch k d h).clock
@[simp] theorem countKib_clock (p s n : Nat) (hs : s < 256) : (countKib p s n h).clock = h.clock :=
  (countKib_moves switch_moves p s n h hs).clock
@[simp] theorem dropFrame_clock (sp : Nat) (e : Bool) (d : DropCause) (f : Frame) : (dropFrame sp e d f h).clock = h.clock :=
  (dropFrame_moves switch_moves sp e d f h).clock
@[simp] theorem sendBridge_clock (f : Frame) : (sendBridge raise f h).clock = h.clock :=
  (sendBridge_moves switch_moves (raise_moves switch_moves) f h).clock
@[simp] theorem sendRing_clock (i : Nat) (e : Bool) (f : Frame) : (sendRing raise i e f h).clock = h.clock :=
  (sendRing_moves switch_moves (raise_moves switch_moves) i e f h).clock

@[simp] theorem raiseMark_clock (p b : Nat) (inj : Bool) : (raiseMark p b inj h).clock = h.clock := by simp [raiseMark]

@[simp] theorem rasNote_clock (ue inj : Bool) (kind loc : Nat) : (rasNote ue inj kind loc h).clock = h.clock := by simp [rasNote]

@[simp] theorem eccReport_clock (page kind loc device : Nat) (ue scrub inj : Bool) :
    (eccReport page kind loc device ue scrub inj h).clock = h.clock := by simp [eccReport]

@[simp] theorem histAdd_clock (kind loc : Nat) (ue : Bool) : (histAdd kind loc ue h).clock = h.clock := by
  simp only [histAdd]
  split_ifs
  · rfl
  · rfl
  · split <;> simp

@[simp] theorem meterAdd_clock (tenant i n : Nat) : (meterAdd tenant i n h).clock = h.clock := by simp [meterAdd]

@[simp] theorem meterReq_clock (r : Req) : (meterReq r h).clock = h.clock := by simp [meterReq]

/-! Free values, poison, lines held elsewhere -/

@[simp] theorem fresh_clock : (fresh h).2.clock = h.clock := (rfl)
@[simp] theorem freshLoc_clock : (freshLoc h).2.clock = h.clock := (rfl)
@[simp] theorem freshBytes_clock (n : Nat) : (freshBytes n h).2.clock = h.clock := by
  induction n generalizing h with
  | zero => rfl
  | succ n ih => exact ih _

@[simp] theorem addPoison_clock (a n : Nat) : (addPoison a n h).clock = h.clock := (rfl)
@[simp] theorem poisonHalf_clock (a : Nat) : (poisonHalf a h).clock = h.clock := (rfl)
@[simp] theorem clearPoison_clock (ks : List Nat) : (clearPoison ks h).clock = h.clock := (rfl)
@[simp] theorem clearInjection_clock : (clearInjection h).clock = h.clock := (rfl)
@[simp] theorem setT0_clock (line : Nat) (v : T0State) : (setT0 line v h).clock = h.clock := (rfl)
@[simp] theorem dropT0_clock (line : Nat) : (dropT0 line h).clock = h.clock := (rfl)
@[simp] theorem putFilter_clock (line : Nat) (e : Option Nat) : (putFilter line e h).clock = h.clock := (rfl)
@[simp] theorem dropFilter_clock (line : Nat) : (dropFilter line h).clock = h.clock := (rfl)
@[simp] theorem putAgent_clock (k : Nat) (a : CohAgent) : (putAgent k a h).clock = h.clock := (rfl)
@[simp] theorem countSlice_clock (line slot n : Nat) : (countSlice line slot n h).clock = h.clock := (rfl)
@[simp] theorem poisonLine_clock (line : Nat) : (poisonLine line h).clock = h.clock := by simp [poisonLine]

@[simp] theorem settleLine_clock (line : Nat) : (settleLine line h).clock = h.clock := by
  unfold settleLine
  split <;> simp

@[simp] theorem settleLines_clock (ls : List Nat) : (settleLines ls h).clock = h.clock := by simp [settleLines]
@[simp] theorem takeLines_clock (ls : List Nat) : (takeLines ls h).clock = h.clock := by simp [takeLines]
@[simp] theorem storeLines_clock (ls : List Nat) : (storeLines ls h).clock = h.clock :=
  foldl_clock h _ (fun x l => (setT0_clock (dropFilter l x) l .dirty).trans (dropFilter_clock x l)) ls

@[simp] theorem memWrite_clock (a : Nat) (bs : List Byte) (poisoned : Bool) : (memWrite a bs poisoned h).clock = h.clock := by
  simp [memWrite]

@[simp] theorem partialWrite_clock (off : Nat) (bs : List Byte) (en : List Bool) (poisoned : Bool) :
    (partialWrite off bs en poisoned h).clock = h.clock := by simp [partialWrite]

/-! Injected errors -/

@[simp] theorem injectT0_clock (a : Nat) (ue : Bool) : (injectT0 a ue h).clock = h.clock := by simp [injectT0]
@[simp] theorem injectT1_clock (a : Nat) (ue : Bool) : (injectT1 a ue h).clock = h.clock := by simp [injectT1]
@[simp] theorem injectT2_clock (a : Nat) (ue : Bool) : (injectT2 a ue h).clock = h.clock := by simp [injectT2, putTile]

@[simp] theorem meetInjection_clock (off n : Nat) : (meetInjection off n h).clock = h.clock := by
  unfold meetInjection
  split <;> simp

@[simp] theorem meetMove_clock (t target : Nat) : (meetMove t target h).clock = h.clock := by
  unfold meetMove
  split <;> simp

@[simp] theorem meetSpInjection_clock (off n : Nat) : (meetSpInjection off n h).clock = h.clock := by
  unfold meetSpInjection
  split <;> simp

@[simp] theorem spStore_clock (a : Nat) (bs : List Byte) (poisoned : Bool) : (spStore a bs poisoned h).clock = h.clock := by
  simp [spStore]

/-! Tiles -/

@[simp] theorem selvedgeNote_clock (n : Nat) : (selvedgeNote n h).clock = h.clock := by simp [selvedgeNote]
@[simp] theorem selvedgeError_clock (n : Nat) : (selvedgeError n h).clock = h.clock := by simp [selvedgeError]
@[simp] theorem checkTile_clock (t : Nat) : (checkTile t h).clock = h.clock := by simp [checkTile]
@[simp] theorem widenPoison_clock (t : Nat) : (widenPoison t h).clock = h.clock :=
  foldl_clock h _ (fun x l => addPoison_clock x (128 * l) 128) _
@[simp] theorem touchTile_clock (t : Nat) : (touchTile t h).clock = h.clock := by simp [touchTile]
@[simp] theorem openSeal_clock (t : Nat) : (openSeal t h).clock = h.clock := by simp [openSeal]
@[simp] theorem dropImage_clock (t : Nat) : (dropImage t h).clock = h.clock := by simp [dropImage]
@[simp] theorem abandon_clock (t : Nat) : (abandon t h).clock = h.clock := by simp [abandon]
@[simp] theorem renewTile_clock (t : Nat) : (renewTile t h).clock = h.clock := (rfl)
@[simp] theorem leaveQueue_clock (t : Nat) : (leaveQueue t h).clock = h.clock := (rfl)
@[simp] theorem sealTile_clock (t : Nat) : (sealTile t h).clock = h.clock := (rfl)

/-- What is stored, poisoned and cached says nothing of the clock. -/
theorem contents_clock (m : List Host.Cell) (p : List Nat) (c : Coh) :
    Hub.clock { h with mem := m, poison := p, coh := c } = h.clock := rfl

@[simp] theorem freeFinish_clock (t : Nat) : (freeFinish t h).clock = h.clock := by
  unfold freeFinish
  exact (contents_clock ..).trans ((leaveQueue_clock ..).trans (putTile_clock ..))

theorem promoteCheck_clock (t : Nat) :
    (widenPoison t (checkTile t (meetMove t 3 (meterAdd 0 0 65536 (meterAdd 0 1 65536 h))))).clock = h.clock := by
  simp only [widenPoison_clock, checkTile_clock, meetMove_clock, meterAdd_clock]

theorem promoteStore_clock (c : Bool) (n t : Nat) (v : Tile) :
    (count 0x90 0 1 (putTile t v (if c then count 0x98 5 n h else h))).clock = h.clock := by
  simp only [count_clock, putTile_clock, ite_clock, ite_self]

@[simp] theorem promoteFinish_clock (t : Nat) : (promoteFinish t h).clock = h.clock :=
  (promoteStore_clock ..).trans (promoteCheck_clock h t)

@[simp] theorem writeBackTile_clock (t : Nat) : (writeBackTile t h).clock = h.clock := by
  unfold writeBackTile
  refine foldl_clock h _ (fun x l => ?_) (tileLines t)
  split
  · exact (countSlice_clock ..).trans (setT0_clock ..)
  · rfl

@[simp] theorem demoteFinish_clock (t : Nat) : (demoteFinish t h).clock = h.clock := by
  unfold demoteFinish
  extract_lets moved checked us n
  have hchecked : checked.clock = h.clock := by
    simp only [checked, moved, ite_clock, sealTile_clock, checkTile_clock, meetMove_clock, writeBackTile_clock, meterAdd_clock,
      ite_self]
  clear_value checked us n
  split
  · simpa using hchecked
  · extract_lets placed counted
    have hcounted : counted.clock = h.clock := by simpa [counted, placed] using hchecked
    clear_value counted
    split <;> simpa using hcounted

@[simp] theorem dropToLower_clock (t : Nat) : (dropToLower t h).clock = h.clock := by simp [dropToLower]
@[simp] theorem evictNow_clock (t : Nat) : (evictNow t h).clock = h.clock := by simp [evictNow]

theorem takeSlot_clock (c : Nat) : OptClock h (takeSlot c h) := by
  unfold takeSlot
  split
  · simp
  · cases chooseVictim c h <;> simp

theorem promoteStart_clock (t : Nat) : OptClock h (promoteStart t h) := (takeSlot_clock h _).map fun x => by simp
theorem allocTile_clock (t cls owner : Nat) : OptClock h (allocTile t cls owner h) :=
  (takeSlot_clock h cls).map fun x => by simp

theorem allocFresh_clock (t cls owner : Nat) : OptClock h (allocFresh t cls owner h) := by
  intro x hx
  exact (allocTile_clock (freeFinish t h) t cls owner x hx).trans (freeFinish_clock h t)

theorem ensureUpper_clock (t owner : Nat) : OptClock h (ensureUpper t owner h) := by
  unfold ensureUpper
  split
  case h_5 =>
    intro x hx
    refine (((promoteStart_clock (count 0x90 4 1 h) t).map (promoteFinish_clock · t)).map (dropImage_clock · t) x hx).trans ?_
    exact count_clock _ _ _ h
  case h_6 => exact allocTile_clock h t 0 owner
  case h_7 | h_8 => exact allocFresh_clock h t 0 owner
  all_goals simp

theorem tileWriteSlot_clock (t cls owner : Nat) : OptClock h (tileWriteSlot t cls owner h) := by
  unfold tileWriteSlot
  split
  case h_5 => exact (takeSlot_clock h cls).map fun x => by simp
  case h_6 => exact allocTile_clock h t cls owner
  case h_7 | h_8 => exact allocFresh_clock h t cls owner
  all_goals simp

/-! Writes of the module's own structures -/

@[simp] theorem pairWrite_clock (off : Nat) (bs : List Byte) (poisoned : Bool) : (pairWrite off bs poisoned h).clock = h.clock := by
  simp [pairWrite]

theorem writeTilePart_clock (off : Nat) (bs : List Byte) (poisoned : Bool) (owner : Nat) :
    OptClock h (writeTilePart off bs poisoned owner h) := by
  unfold writeTilePart
  split
  · simp
  · refine (ensureUpper_clock h _ owner).map fun x => ?_
    simp only [memWrite_clock, touchTile_clock, openSeal_clock]
    refine (foldl_clock _ _ (fun y l => setT0_clock y l .dirty) _).trans ?_
    simp

theorem engWrite_clock (fuel off : Nat) (bs : List Byte) (p : Bool) (owner : Nat) : OptClock h (engWrite fuel off bs p owner h) := by
  induction fuel generalizing off bs h with
  | zero => simp [engWrite]
  | succ fuel ih =>
    simp only [engWrite]
    split_ifs
    · simp
    · simp
    · simp
    · exact (writeTilePart_clock h off _ p owner).bind fun x => ih x _ _

@[simp] theorem poolFull_clock : (poolFull h).clock = h.clock := by simp [poolFull]

@[simp] theorem ownWrite_clock (off : Nat) (bs : List Byte) : (ownWrite off bs h).clock = h.clock := by
  unfold ownWrite
  split
  · exact engWrite_clock h _ off bs false 0 _ ‹_›
  · simp

@[simp] theorem writeLease_clock (i : Nat) (l : Lease) : (writeLease i l h).clock = h.clock := by simp [writeLease]
@[simp] theorem leaseIdle_clock (i : Nat) : (leaseIdle i h).clock = h.clock := by simp [leaseIdle]

/-! Requests at their home -/

@[simp] theorem newReq_clock : (newReq h).2.clock = h.clock := (rfl)
@[simp] theorem allocTag_clock : (allocTag h).2.clock = h.clock := by
  unfold allocTag
  split <;> rfl
@[simp] theorem putTx_clock (x : HomeTx) : (putTx x h).clock = h.clock := (rfl)
@[simp] theorem removeTx_clock (id : Nat) : (removeTx id h).clock = h.clock := (rfl)
@[simp] theorem grantLine_clock (line : Nat) (e : Option Nat) : (grantLine line e h).clock = h.clock := (rfl)
@[simp] theorem flushCheck_clock : (flushCheck h).clock = h.clock := by simp [flushCheck]
@[simp] theorem devLoadNote_clock (p n : Nat) : (devLoadNote p n h).clock = h.clock := by simp [devLoadNote]
@[simp] theorem memData_clock (p n tag : Nat) (data : List Byte) (poison : Bool) : (memData p n tag data poison h).clock = h.clock := by
  simp [memData]
@[simp] theorem memCmp_clock (p n tag : Nat) : (memCmp p n tag h).clock = h.clock := by simp [memCmp]
@[simp] theorem cxlDrop_clock (p n cause dpa : Nat) : (cxlDrop p n cause dpa h).clock = h.clock := by simp [cxlDrop]
@[simp] theorem putCxl_clock (p : Nat) (c : CxlPort) : (putCxl p c h).clock = h.clock := by simp [putCxl]
@[simp] theorem extentUnused_clock (p i withdrawn : Nat) : (extentUnused p i withdrawn h).clock = h.clock := by simp [extentUnused]
@[simp] theorem drainCheck_clock (p : Nat) : (drainCheck p h).clock = h.clock := by simp [drainCheck]

@[simp] theorem answer_clock (r : Req) (status detail aux : Nat) (poison : Bool) (data : List Byte) :
    (answer r status detail aux poison data h).clock = h.clock := by
  simp only [answer]
  split <;> simp

@[simp] theorem answerStatus_clock (r : Req) (status detail : Nat) : (answerStatus r status detail h).clock = h.clock :=
  answer_clock h r status detail 0 false []

@[simp] theorem answerRead_clock (r : Req) (aux : Nat) (data : List Byte) (poison : Bool) (sc : Option Nat) :
    (answerRead r aux data poison sc h).clock = h.clock := by
  unfold answerRead
  split <;> simp

/-- Snoops sent for a line, with the hub that has sent them. -/
@[simp] theorem foldl_snoops_clock {α : Type} (f : List Snoop × Hub → α → List Snoop × Hub)
    (hf : ∀ x a, (f x a).2.clock = x.2.clock) (l : List α) (x : List Snoop × Hub) : (l.foldl f x).2.clock = x.2.clock :=
  List.foldlRecOn l f (motive := fun y => y.2.clock = x.2.clock) rfl fun y hy a _ => (hf y a).trans hy

@[simp] theorem snoopLine_clock (r : Req) (line : Nat) (acc : List Snoop × Hub) :
    (snoopLine r line acc).2.clock = acc.2.clock := by
  simp only [snoopLine]
  split
  · rfl
  · split
    · split_ifs
      · rfl
      · split <;> simp
      · simp
      · simp
    · split_ifs <;> simp

@[simp] theorem makeRoom_clock (line : Nat) : (makeRoom line h).clock = h.clock := by
  unfold makeRoom
  split
  · rfl
  · split
    · rfl
    · dsimp only
      split <;> simp

theorem tileWrite_clock (t owner : Nat) (hd : Option GivenHeader) (payload : List Byte) (mask module unit time : Nat) :
    OptClock h ((tileWrite t owner hd payload mask module unit time h).map (·.2)) := by
  simp only [tileWrite, Option.map_map]
  refine (tileWriteSlot_clock h t _ owner).map fun x => ?_
  simp only [Function.comp, selvedgeError_clock, renewTile_clock]
  exact foldl_clock _ _ (fun y j => addPoison_clock y (65536 * t + 4096 * j) 4096) _

variable {h} in
/-- The two outcomes of a tile write that has its slot (R177): the answer's status, over the hub it leaves. -/
theorem tileWrite_some_clock {t owner : Nat} {hd : Option GivenHeader} {payload : List Byte} {mask module unit time : Nat}
    {bad : Bool} {h1 : Hub} (hw : tileWrite t owner hd payload mask module unit time h = some (bad, h1)) : h1.clock = h.clock :=
  tileWrite_clock h t owner hd payload mask module unit time h1 (by rw [hw]; rfl)

@[simp] theorem homeAct_clock (x : HomeTx) : (homeAct x h).clock = h.clock := by
  unfold homeAct
  extract_lets +onlyGivenNames r f metered t line
  have hmetered : metered.clock = h.clock := meterReq_clock h r
  clear_value metered
  rw [← hmetered]
  split
  case h_4 | h_5 =>
    refine ite_keeps_clock ((answerRead_clock ..).trans (meetInjection_clock ..)) ?_
    refine ite_keeps_clock ((answerStatus_clock ..).trans ?_) ?_
    · simp only [partialWrite_clock, storeLines_clock, openSeal_clock, meetInjection_clock]
    refine ite_keeps_clock ?_ ?_
    · extract_lets n met ret
      have hmet : met.clock = metered.clock := by
        simp only [met, countSlice_clock, storeLines_clock, openSeal_clock, meetInjection_clock]
      exact ite_keeps_clock ((answer_clock ..).trans hmet) ((answer_clock ..).trans ((memWrite_clock ..).trans hmet))
    refine ite_keeps_clock ?_ ?_
    · extract_lets hd
      split
      · exact (answerStatus_clock ..).trans (poolFull_clock _)
      · exact (answerStatus_clock ..).trans (tileWrite_some_clock ‹_›)
    refine ite_keeps_clock ((answerRead_clock ..).trans ((grantLine_clock ..).trans (meetInjection_clock ..))) ?_
    refine ite_keeps_clock ?_ rfl
    extract_lets me met granted
    have hgranted : granted.clock = metered.clock := by
      simp only [granted, met, openSeal_clock, grantLine_clock, meetInjection_clock]
    exact ite_keeps_clock (answer_clock ..) (ite_keeps_clock rfl
      (ite_keeps_clock ((answer_clock ..).trans hgranted) ((answerRead_clock ..).trans hgranted)))
  all_goals rfl

@[simp] theorem homeGrant_clock (x : HomeTx) : (homeGrant x h).clock = h.clock := by
  unfold homeGrant
  split
  · extract_lets roomy
    have hroomy : roomy.clock = h.clock := makeRoom_clock h _
    clear_value roomy
    split <;> simpa using hroomy
  · simp

@[simp] theorem resumeRoom_clock : (resumeRoom h).clock = h.clock := by
  refine foldl_clock h _ (fun y x => ?_) _
  split
  · rfl
  · exact (homeAct_clock ..).trans (removeTx_clock ..)

@[simp] theorem homeReady_clock (x : HomeTx) : (homeReady x h).clock = h.clock := by
  unfold homeReady
  extract_lets +onlyGivenNames r t st owner done full wait
  have hdone (y : Hub) : (done y).clock = y.clock := homeGrant_clock y x
  have hfull (y : Hub) : (full y).clock = y.clock := by simp [full]
  have hwait (w : TxWait) (y : Hub) : (wait w y).clock = y.clock := rfl
  clear_value done full wait owner st
  split
  · split <;> simp [hdone, hwait]
  split
  · split
    case h_6 =>
      split
      · exact (hwait ..).trans ((promoteStart_clock _ t _ ‹_›).trans (count_clock ..))
      · exact hfull h
    case h_7 =>
      split
      · exact (hdone _).trans (allocTile_clock h t 0 owner _ ‹_›)
      · exact hfull h
    case h_8 =>
      split
      · exact (hdone _).trans (allocFresh_clock h t 0 owner _ ‹_›)
      · exact hfull h
    all_goals simp [hdone, hwait]
  split
  case h_4 | h_5 =>
    split
    case h_1 | h_2 | h_3 => simp [hdone, hwait]
    all_goals split <;> simp [hdone, hwait]
  all_goals simp

@[simp] theorem afterSnoop_clock (x : HomeTx) : (afterSnoop x h).clock = h.clock := by
  unfold afterSnoop
  split <;> simp

@[simp] theorem snoopAnswer_clock (tag state : Nat) (forwarded : Bool) (data : List Byte) (poison : Bool) :
    (snoopAnswer tag state forwarded data poison h).clock = h.clock := by
  unfold snoopAnswer
  split
  · rfl
  · dsimp only
    simp only [afterSnoop_clock, ite_clock, countSlice_clock, dropFilter_clock, putFilter_clock, setT0_clock, memWrite_clock, ite_self]

@[simp] theorem answerForLost_clock (tag : Nat) : (answerForLost tag h).clock = h.clock := by
  unfold answerForLost
  split
  · rfl
  · split
    · simp only [afterSnoop_clock, ite_clock, dropFilter_clock, poisonLine_clock, ite_self]
    · exact snoopAnswer_clock ..

@[simp] theorem loseAgent_clock (k cause : Nat) : (loseAgent k cause h).clock = h.clock := by
  unfold loseAgent
  extract_lets +onlyGivenNames a
  split
  · rfl
  · extract_lets +onlyGivenNames h1 src h2 h3 mine h4
    have h3_clock : h3.clock = h.clock := by simp [h3, h2, h1]
    have h4_clock : h4.clock = h3.clock := foldl_clock _ _ (fun y i => leaseIdle_clock y i) _
    exact (foldl_clock _ _ (fun y t => answerForLost_clock y t) _).trans (h4_clock.trans h3_clock)

@[simp] theorem loseAgentsOf_clock (p : Nat) : (loseAgentsOf p h).clock = h.clock := by simp [loseAgentsOf]

/-! Ports and paths -/

@[simp] theorem losePortQueue_clock (p : Nat) : (losePortQueue p h).clock = h.clock := by
  refine foldl_clock _ _ (fun y q => ?_) _
  split <;> simp

@[simp] theorem putPath_clock (i : PathId) (v : RingPath) : (putPath i v h).clock = h.clock := by cases i <;> rfl

@[simp] theorem portTo_clock (p : Nat) (st : PortState) : (portTo p st h).clock = h.clock := by
  unfold portTo
  dsimp only
  split <;> simp

@[simp] theorem portOff_clock (p : Nat) : (portOff p h).clock = h.clock := by simp [portOff]
@[simp] theorem portStart_clock (p : Nat) : (portStart p h).clock = h.clock := by simp [portStart]
@[simp] theorem setDrive_clock (i : PathId) (d : Bool) : (setDrive i d h).clock = h.clock := by simp [setDrive]

@[simp] theorem pathExits_clock (i : PathId) (old st : PathState) : (pathExits i old st h).clock = h.clock := by
  simp [pathExits]

@[simp] theorem pathTo_clock (i : PathId) (st : PathState) : (pathTo i st h).clock = h.clock := by simp [pathTo]
@[simp] theorem pathClose_clock (i : PathId) : (pathClose i h).clock = h.clock := by simp [pathClose]
@[simp] theorem pathCondition_clock (i : PathId) : (pathCondition i h).clock = h.clock := by simp [pathCondition]
@[simp] theorem closePaths_clock : (closePaths h).clock = h.clock := by simp [closePaths]
@[simp] theorem fittingAbandon_clock : (fittingAbandon h).clock = h.clock := by simp [fittingAbandon]

/-- Reset takes what the hub held and leaves its clock. -/
theorem holdHub_clock (kind : Nat) (save : Bool) : (holdHub kind save h).clock = h.clock := by
  have hclose : (closePaths (fittingAbandon h)).clock = h.clock := by simp
  cases save
  · exact hclose
  · exact (counterSave_switch _).clock.trans hclose

end Clock

end Sys2Proof.Proofs

/-!
PROOFS. The commands that write registers of the RING, BRINGUP, DEFECT and PORT pages (R74, R77, R84, R93, R95, R106, R117, R126,
R282, R287): what reports and saved records keep, what an admitted write of a block's own register comes to, each command.
-/
namespace Sys2Proof.Proofs

open Machine Safety Laws

/-! ### A register with an effect of its own -/

section Block

variable {r : Requester} {page off v : Nat} {p : PageInfo} {d : RegDef} {k : Nat} {s x : State} {c : Instr}

/-- A register of a block that has no event register does what the block says. -/
theorem putWhole_block (hoff : 0x40 ≤ off) (hev : eventRegs p = none) (hb : blockWrite r p page off d v s = some x) :
    putWhole r p page off d v s = x := by
  simp [putWhole, Nat.not_lt.2 hoff, eventWrite, hev, hb]

/-- A command that writes such a register, of four bytes, through its gate. -/
theorem answers_block (hc : exec c s = regRow r page off 4 v s) (ha : admits r page off s = true) (hpage : page < 0x1000)
    (hp : pageInfo page = some p) (hreg : regAt p off = some ⟨d, k, 0⟩) (hw : d.width = 4) (hlo : 0x40 ≤ off) (hhi : off < 0x800)
    (hs : accessOk off 4 = true) (hev : eventRegs p = none) (hv : v < 2 ^ 32) (hb : blockWrite r p page off d v s = some x) :
    Answers c s (fun t => t.pending = s.pending ∧ t.holes = x.holes ∧ SameButSent x.hub t.hub) := by
  have hmod : page % 0x1000 = page := Nat.mod_eq_of_lt hpage
  obtain ⟨t, hrow, hpend, hholes, hsent⟩ := regRow_whole (v := v) ha (by rwa [hmod]) hreg hhi hw hs
  rw [hmod, Nat.mod_eq_of_lt hv] at hpend hholes hsent
  rw [putWhole_pending] at hpend
  rw [putWhole_block hlo hev hb] at hholes hsent
  exact ⟨t, hc.trans hrow, hpend, hholes, hsent⟩

/-- The same, of a register whose effect is the hub's alone. -/
theorem answersHub_block {f : Hub → Hub} (hc : exec c s = regRow r page off 4 v s) (ha : admits r page off s = true)
    (hpage : page < 0x1000) (hp : pageInfo page = some p) (hreg : regAt p off = some ⟨d, k, 0⟩) (hw : d.width = 4) (hlo : 0x40 ≤ off)
    (hhi : off < 0x800) (hs : accessOk off 4 = true) (hev : eventRegs p = none) (hv : v < 2 ^ 32)
    (hb : blockWrite r p page off d v s = some (onHub f s)) : AnswersHub c s f :=
  answers_block hc ha hpage hp hreg hw hlo hhi hs hev hv hb

end Block

/-! ### The RING page -/

section Ring

variable {r : Requester} {v : Nat} {s : State} {h : Hub}

theorem fld_w64_nibble (hv : v < 16) : fld (w64 v) 3 0 = v := by
  simp [fld, nbits, w64, Nat.mod_eq_of_lt hv]

theorem floorWrite_low (hv : v ≤ 2) : floorWrite (w64 v) h = putReg 0x348 0x100 (w64 (0x200 + v)) h := by
  simp [floorWrite, fld_w64_nibble (show v < 16 by omega), Nat.not_lt.2 hv, ringPage]

theorem floorWrite_high (hlo : 2 < v) (hhi : v < 16) : floorWrite (w64 v) h = raise 0x348 22 h := by
  simp [floorWrite, fld_w64_nibble hhi, hlo, ringPage]

/-- A write of RING_FEATURE_FLOOR, by its requester and value. -/
theorem featureFloorWrite_answers (ha : admits r 0x348 0x100 s = true) (hv : v < 16) :
    AnswersHub (.featureFloorWrite r v) s (floorWrite (w64 v)) :=
  answersHub_block rfl ha (by norm_num) rfl rfl rfl (by norm_num) (by norm_num) rfl rfl (by omega) rfl

theorem featureFloorWrite_stores (ha : admits r 0x348 0x100 s = true) (hv : v ≤ 2) :
    AnswersHub (.featureFloorWrite r v) s (putReg 0x348 0x100 (w64 (0x200 + v))) := by
  have hw := featureFloorWrite_answers (v := v) ha (by omega)
  rwa [AnswersHub, floorWrite_low hv] at hw

theorem featureFloorWrite_refused (ha : admits r 0x348 0x100 s = true) (hlo : 2 < v) (hhi : v < 16) :
    Answers (.featureFloorWrite r v) s (fun t => regBit 0x348 0x18 22 t.hub = true ∧
      getReg 0x348 0x100 t.hub = getReg 0x348 0x100 s.hub ∧ t.hub.mem = s.hub.mem ∧ t.holes = s.holes) := by
  obtain ⟨t, hexec, -, hholes, hsent⟩ := featureFloorWrite_answers ha hhi
  rw [floorWrite_high hlo hhi] at hsent
  have hsteady := sent_moves steady_moves hsent
  have hswitch := (raise_switch 0x348 22 s.hub).trans (sent_moves switch_moves hsent)
  refine ⟨t, hexec, hsteady.err _ _ (raise_sets 0x348 22 (by norm_num) s.hub), ?_, hswitch.mem, hholes⟩
  exact (steady_moves.trans (raise_steady 0x348 22 s.hub) hsteady).reg 0x348 0x100 (by unfold plainReg; norm_num)

/-- R76: JOIN_EN asks nothing of a path in bypass. -/
theorem pathsObeyJoin_bypassed (ha : h.pathA.st = .bypassed) (hb : h.pathB.st = .bypassed) : pathsObeyJoin h = h := by
  have hstays (i : PathId) : pathUnjoin i h = h := by cases i <;> simp [pathUnjoin, getPath, ha, hb]
  simp only [pathsObeyJoin, hstays, ite_self]

/-- R76: JOIN_EN asks nothing of the paths whose bit is 1. -/
theorem pathsObeyJoin_joined (ha : joinEn .a h = true) (hb : joinEn .b h = true) : pathsObeyJoin h = h := by
  simp [pathsObeyJoin, ha, hb]

theorem ringCtrlWrite_bypassed (w : Word) (ha : h.pathA.st = .bypassed) (hb : h.pathB.st = .bypassed) :
    ringCtrlWrite w h = putReg 0x348 0x40 (w &&& w64 0xB) h := by
  unfold ringCtrlWrite
  rw [pathsObeyJoin_bypassed (h := putReg _ _ _ h) ha hb, closePaths_bypassed (h := putReg _ _ _ h) ha hb]
  rfl

theorem joinEn_bypassed (ha : admits r 0x348 0x40 s = true) (hv : v < 16) (hpa : s.hub.pathA.st = .bypassed)
    (hpb : s.hub.pathB.st = .bypassed) : AnswersHub (.joinEn r v) s (putReg 0x348 0x40 (w64 v &&& w64 0xB)) := by
  have hw : AnswersHub (.joinEn r v) s (ringCtrlWrite (w64 v)) :=
    answersHub_block rfl ha (by norm_num) rfl rfl rfl (by norm_num) (by norm_num) rfl rfl (by omega) rfl
  rwa [AnswersHub, ringCtrlWrite_bypassed (w64 v) hpa hpb] at hw

/-- A path that CLOSE_CMD has taken off its drive (R77). -/
def PathOff (old new : RingPath) : Prop := new.drive = false ∧ new.st = if old.sense then .closing else .bypassed

theorem setDrive_path (i : PathId) (d : Bool) (h : Hub) :
    getPath i (setDrive i d h) = { getPath i h with drive := d } := by
  unfold setDrive
  split
  · next hd => rw [← hd]
  · cases i <;> simp [getPath, putPath]

theorem getPath_pathTo (i : PathId) (st : PathState) (h : Hub) : getPath i (pathTo i st h) =
    { getPath i h with st := st, since := h.clock, qual := (getPath i h).qual && st != .bypassed } := by
  cases i <;> rfl

theorem pathClose_off (i : PathId) (h : Hub) : PathOff (getPath i h) (getPath i (pathClose i h)) := by
  unfold PathOff
  simp only [pathClose, getPath_pathTo, setDrive_path, and_self]

/-- R74: a closing condition takes path A off its drive; what path B's closing does leaves its record as it was. -/
theorem closePaths_off (hc : closingCond h = true) (hst : closable h.pathA.st = true) : PathOff h.pathA (closePaths h).pathA := by
  have hclose : pathCondition .a h = pathClose .a h := by simp [pathCondition, getPath, hc, hst]
  have hpath : (closePaths h).pathA = getPath .a (pathClose .a h) := by
    simp only [closePaths, hclose]
    rfl
  rw [hpath]
  exact pathClose_off .a h

/-- R84: CLOSE_CMD, with JOIN_EN of both paths. -/
theorem ringCtrlWrite_close (hst : closable h.pathA.st = true) : PathOff h.pathA (ringCtrlWrite (w64 11) h).pathA := by
  have hbits (i : Nat) : regBit ringPage 0x40 i (putReg ringPage 0x40 (w64 11 &&& w64 0xB) h) = bitOf (w64 11 &&& w64 0xB) i := by
    rw [regBit, getReg_putReg, if_pos rfl]
  have hcmd : regBit ringPage 0x40 3 (putReg ringPage 0x40 (w64 11 &&& w64 0xB) h) = true := hbits 3
  have hclosing : closingCond (putReg ringPage 0x40 (w64 11 &&& w64 0xB) h) = true := by
    rw [closingCond, hcmd]
    simp
  unfold ringCtrlWrite
  rw [pathsObeyJoin_joined (h := putReg _ _ _ h) (hbits 0) (hbits 1)]
  exact closePaths_off (h := putReg _ _ _ h) hclosing hst

theorem closeCmd_off (ha : admits r 0x348 0x40 s = true) (hst : closable s.hub.pathA.st = true) :
    Answers (.closeCmd r 3) s (fun t => t.hub.pathA.drive = false ∧
      t.hub.pathA.st = (if s.hub.pathA.sense then .closing else .bypassed) ∧ t.holes = s.holes) := by
  have hw : AnswersHub (.closeCmd r 3) s (ringCtrlWrite (w64 11)) :=
    answersHub_block (v := 11) rfl ha (by norm_num) rfl rfl rfl (by norm_num) (by norm_num) rfl rfl (by norm_num) rfl
  obtain ⟨t, hexec, -, hholes, hsent⟩ := hw
  obtain ⟨hdrive, hclosed⟩ := ringCtrlWrite_close hst
  have hpath : t.hub.pathA = (ringCtrlWrite (w64 11) s.hub).pathA := (sent_moves switch_moves hsent).pathA
  exact ⟨t, hexec, by rw [hpath, hdrive], by rw [hpath, hclosed], hholes⟩

end Ring

/-! ### The PORT pages -/

section Port

variable {r : Requester} {v : Nat} {s : State} {h : Hub}

theorem pageInfo_port : ∀ p : Fin 28, pageInfo (0x10 + p.val) = some ⟨.port, p.val, 0, 0x03⟩ := by decide

/-- R287, log entry 91: NEAR_LOOP of a Disabled port is stored, with no effect before its next start. -/
theorem portCfgWrite_disabled {p : Nat} (hv : v < 4) (hst : (getPort p h).st = .disabled) :
    portCfgWrite p (w64 v) h = putReg (0x10 + p) 0x40 (w64 v) h := by
  have hmask : w64 v &&& w64 3 = w64 v := by interval_cases v <;> rfl
  simp [portCfgWrite, hst, hmask, portPage]

theorem nearLoopWrite_disabled (p : Fin 28) (ha : admits r (0x10 + p.val) 0x40 s = true) (hv : v < 4)
    (hst : (getPort p s.hub).st = .disabled) : AnswersHub (.nearLoopWrite r p v) s (putReg (0x10 + p.val) 0x40 (w64 v)) := by
  have hw : AnswersHub (.nearLoopWrite r p v) s (portCfgWrite p.val (w64 v)) :=
    answersHub_block rfl ha (by omega) (pageInfo_port p) rfl rfl (by norm_num) (by norm_num) rfl rfl (by omega) rfl
  rwa [AnswersHub, portCfgWrite_disabled hv hst] at hw

end Port

/-! ### The BRINGUP page -/

section BringUp

variable {r : Requester} {v : Nat} {s : State} {h : Hub}

theorem bringCtrlWrite_cold (hcold : v.testBit 1 = true) : bringCtrlWrite v s = holdState coldReset (onHub counterSave s) := by
  simp [bringCtrlWrite, hcold]

/-- R107: entry to Quiescing leaves the sequencer as it entered. -/
theorem warmEnter_boot (h : Hub) : (warmEnter h).boot =
    { h.boot with phase := .quiescing, warm := true, kind := 2, lost := false, startedAt := h.clock } := rfl

theorem bridgeOne_boot (kind : Nat) (l : List Nat) (h : Hub) : (bridgeOne kind l h).boot = h.boot :=
  (sent_moves switch_moves (bridgeOne_sent kind l h)).boot

theorem warmRequest_boot (hready : h.boot.phase = .ready) (hfence : h.ras.fence ≠ .fatal) : (warmRequest h).boot =
    { h.boot with phase := .quiescing, warm := true, kind := 2, lost := false, startedAt := h.clock } := by
  unfold warmRequest
  rw [if_pos ⟨hready, hfence⟩]
  dsimp only
  split
  · rw [bridgeOne_boot, warmEnter_boot]
  · exact warmEnter_boot h

theorem warm_quiesces (ha : admits r 0x330 0x40 s = true) (hready : s.hub.boot.phase = .ready) (hfence : s.hub.ras.fence ≠ .fatal) :
    Answers (.warm r) s (fun t => t.hub.boot.phase = .quiescing ∧ t.hub.boot.warm = true ∧ t.hub.boot.kind = 2 ∧
      t.hub.boot.startedAt = s.hub.clock ∧ t.holes = s.holes) := by
  have hw : Answers (.warm r) s (fun t => t.pending = s.pending ∧ t.holes = (bringCtrlWrite 1 s).holes ∧
      SameButSent (bringCtrlWrite 1 s).hub t.hub) :=
    answers_block rfl ha (by norm_num) rfl rfl rfl (by norm_num) (by norm_num) rfl rfl (by norm_num) rfl
  obtain ⟨t, hexec, -, hholes, hsent⟩ := hw
  have hsave := counterSave_switch s.hub
  have hboot : t.hub.boot = _ := (sent_moves switch_moves hsent).boot.trans
    (warmRequest_boot (h := counterSave s.hub) (by rwa [hsave.boot]) (by rwa [hsave.fence]))
  exact ⟨t, hexec, by rw [hboot], by rw [hboot], by rw [hboot], by rw [hboot, hsave.clock], hholes⟩

/-- R93, R95: a cold reset of a powered module passes through Held to Ledger. -/
theorem coldReset_powered (hpg : h.pins.pgOut = true) (hrst : h.pins.modRstN = true) : coldReset h =
    { holdHub 1 true h with boot := { (holdHub 1 true h).boot with phase := .ledger, startedAt := (holdHub 1 true h).clock } } :=
  startBringUp_held hpg hrst rfl

/-- R93, R95, R117: what COLD leaves of a powered module, over the counters saved. -/
theorem cold_clears {v : Nat} (ha : admits r 0x330 0x40 s = true) (hv : v < 4) (hpg : s.hub.pins.pgOut = true)
    (hrst : s.hub.pins.modRstN = true) :
    Answers (.cold r v) s (fun t => t.hub.boot.phase = .ledger ∧ t.hub.boot.kind = 1 ∧ t.hub.boot.startedAt = s.hub.clock ∧
      t.hub.mem = [] ∧ t.hub.tier = {} ∧ t.hub.stu = {} ∧ t.holes = [] ∧ t.hub.pins = s.hub.pins) := by
  have hbit : (v ||| 2).testBit 1 = true := by interval_cases v <;> rfl
  have hlt : v ||| 2 < 4 := by interval_cases v <;> decide
  have hsave := counterSave_switch s.hub
  have hw : Answers (.cold r v) s (fun t => t.pending = s.pending ∧ t.holes = (bringCtrlWrite (v ||| 2) s).holes ∧
      SameButSent (bringCtrlWrite (v ||| 2) s).hub t.hub) :=
    answers_block rfl ha (by norm_num) rfl rfl rfl (by norm_num) (by norm_num) rfl rfl (by omega) rfl
  rw [bringCtrlWrite_cold hbit] at hw
  obtain ⟨t, hexec, -, hholes, hsent⟩ := hw
  have hpowered := coldReset_powered (h := counterSave s.hub) (by rwa [hsave.pins]) (by rwa [hsave.pins])
  have hswitch : SwitchOnly (coldReset (counterSave s.hub)) t.hub := sent_moves switch_moves hsent
  rw [hpowered] at hswitch
  refine ⟨t, hexec, by rw [hswitch.boot], by rw [hswitch.boot]; rfl, ?_, hswitch.mem, hswitch.tier, hswitch.stu, hholes,
    hswitch.pins.trans hsave.pins⟩
  rw [hswitch.boot]
  exact (holdHub_clock _ 1 true).trans hsave.clock

end BringUp

/-! ### The DEFECT page -/

section Defect

variable {r : Requester} {s : State} {h : Hub}

theorem defectAdd_stores (hroom : h.armoire.defect.length < 1024)
    (hloc : locOk (regFld 0x338 0x58 63 60 h) (regFld 0x338 0x58 47 0 h) = true) : defectCmd 1 h =
      setDefects (h.armoire.defect ++ [defectEntry (regFld 0x338 0x58 63 60 h) 3 (regFld 0x338 0x58 47 0 h)]) h := by
  have hput (w : Word) : defectPut w h = setDefects (h.armoire.defect ++ [w]) h := if_neg (Nat.not_le.2 hroom)
  exact (if_pos hloc).trans (hput _)

theorem defectRemove_erases {w : Word} (hw : h.armoire.defect[regFld 0x338 0x48 9 0 h]? = some w) (hfactory : fld w 59 58 ≠ 0) :
    defectCmd 2 h = setDefects (h.armoire.defect.eraseIdx (regFld 0x338 0x48 9 0 h)) h := by
  change defectRemove h = _
  simp only [defectRemove, defectPage, hw, if_neg hfactory]

theorem defectCtrl_answers {c : Instr} {v : Nat} {f : Hub → Hub} (hc : exec c s = regRow r 0x338 0x40 4 v s)
    (ha : admits r 0x338 0x40 s = true) (hv : v < 2 ^ 32) (hf : defectCmd v s.hub = f s.hub) : AnswersHub c s f := by
  have hw : AnswersHub c s (defectCmd v) :=
    answersHub_block hc ha (by norm_num) rfl rfl rfl (by norm_num) (by norm_num) rfl rfl hv rfl
  rwa [AnswersHub, hf] at hw

end Defect

/-- Settles O10, page by page. -/
theorem pageCommandsAct : Obligations.PageCommandsAct := by
  unfold Obligations.PageCommandsAct
  intro r s
  refine ⟨fun v ha hv => featureFloorWrite_stores ha hv, fun v ha hlo hhi => featureFloorWrite_refused ha hlo hhi,
    fun v ha hv hpa hpb => joinEn_bypassed ha hv hpa hpb, fun ha hst => closeCmd_off ha hst,
    fun p v ha hv hst => nearLoopWrite_disabled p ha hv hst, fun ha hready hfence => warm_quiesces ha hready hfence,
    fun v ha hv hpg hrst => cold_clears ha hv hpg hrst, fun ha hroom hloc => ?_, fun w ha hw hfactory => ?_⟩
  · exact defectCtrl_answers (v := 1) rfl ha (by norm_num) (defectAdd_stores hroom hloc)
  · exact defectCtrl_answers (v := 2) rfl ha (by norm_num) (defectRemove_erases hw hfactory)

end Sys2Proof.Proofs

/-!
PROOFS. The training of a Yumer port (R63, R64, R76, R87, R88, R99 to R101, R114, R280, R287, R555, R559, R597): a port that is not
Ready starts again as its record alone, what a port keeps through reports and the module's own notes, each end of a phase.
-/
namespace Sys2Proof.Proofs

open Machine Safety Laws

/-! ### A port's record -/

section Record

variable {a b : Port}

theorem linkOnly_st (k : LinkOnly a b) : b.st = a.st := by rw [k]
theorem linkOnly_since (k : LinkOnly a b) : b.since = a.since := by rw [k]
theorem linkOnly_txRetired (k : LinkOnly a b) : b.txRetired = a.txRetired := by rw [k]
theorem linkOnly_rxRetired (k : LinkOnly a b) : b.rxRetired = a.rxRetired := by rw [k]
theorem linkOnly_wasReady (k : LinkOnly a b) : b.wasReady = a.wasReady := by rw [k]
theorem linkOnly_secondFail (k : LinkOnly a b) : b.secondFail = a.secondFail := by rw [k]
theorem linkOnly_rxPower (k : LinkOnly a b) : b.rxPower = a.rxPower := by rw [k]

end Record

theorem tab_set_set {α : Type} (t : Tab α) (k : Nat) (a b : α) : Tab.set (Tab.set t k a) k b = Tab.set t k b := by
  induction t with
  | nil => simp [Tab.set]
  | cons c u ih =>
    obtain ⟨i, v⟩ := c
    by_cases hik : i = k
    · simp [Tab.set, hik]
    · by_cases hlt : k < i
      · simp [Tab.set, hik, hlt]
      · simp [Tab.set, hik, hlt, ih]

/-- A bit that is cleared reads 0. -/
theorem bit_cleared (w : Word) (i : Nat) : bitOf (putBit w i false) i = false := by
  have hmask : (w64 (maskOf i i)).getLsbD i = decide (i < 64) := by
    have hone : maskOf i i = 2 ^ i := by simp [maskOf, Nat.shiftLeft_eq]
    rw [hone, w64, BitVec.getLsbD_ofNat, Nat.testBit_two_pow_self, Bool.and_true]
  unfold bitOf putBit putFld
  rw [BitVec.testBit_toNat, BitVec.getLsbD_or, BitVec.getLsbD_and, BitVec.getLsbD_not, hmask]
  simp [mkFld, bit01, w64]

section Ports

variable {p : Nat} {h x : Hub} {st : PortState}

theorem putPort_putPort (p : Nat) (v w : Port) (h : Hub) : putPort p w (putPort p v h) = putPort p w h := by
  simp only [putPort, tab_set_set]

theorem getPort_putPort_same (p : Nat) (v : Port) (h : Hub) : getPort p (putPort p v h) = v := by
  rw [getPort_putPort, if_pos rfl]

theorem sameMemory_of_switch (k : SwitchOnly h x) : SameMemory h x := ⟨k.mem, k.poison⟩

theorem sameMemory_putPort (v : Port) (k : SwitchOnly h x) : SameMemory h (putPort p v x) := ⟨k.mem, k.poison⟩

theorem getPath_of_switch (k : SwitchOnly h x) (i : PathId) : getPath i x = getPath i h := by
  cases i
  · exact k.pathA
  · exact k.pathB

/-- What a port is on entry to a phase of its training. -/
def restarted (p : Nat) (st : PortState) (h : Hub) : Port := { linkClear (getPort p h) with st := st, since := h.clock }

/-- R254 asks nothing of a port that is not Ready: it starts again. -/
theorem portTo_idle (hidle : (getPort p h).st ≠ .ready) : portTo p st h = putPort p (restarted p st h) h := if_neg hidle

theorem portTo_st (p : Nat) (st : PortState) (h : Hub) : (getPort p (portTo p st h)).st = st := by
  unfold portTo
  dsimp only
  split <;> rw [getPort_putPort_same]

/-- R64, R99: to Retry; with a second lane failure, PORT_FAIL too. -/
theorem portRetry_idle (hidle : (getPort p h).st ≠ .ready) (second : Bool) : portRetry p second h =
    if second then raise 0x330 22 (putPort p { restarted p .retry h with secondFail := second } h)
    else putPort p { restarted p .retry h with secondFail := second } h := by
  simp only [portRetry, portTo_idle hidle, getPort_putPort_same, putPort_putPort]

theorem learnPartner_idle (hidle : (getPort p h).st ≠ .ready) (vkm : Bool) (level module : Nat) : learnPartner p vkm level module h =
    putPort p { restarted p .qualify h with
      partnerV := true, partnerVkm := vkm, partnerLevel := level, partnerModule := module, level := min 2 level } h := by
  simp only [learnPartner, portTo_idle hidle, getPort_putPort_same, putPort_putPort]

end Ports

/-! ### What reports and the module's own notes keep -/

section Notes

variable {R : Hub → Hub → Prop}

theorem setDefects_moves (m : Moves R) (l : List Word) (h : Hub) : R h (setDefects l h) :=
  m.trans (m.armoire _ h) (armTouch_moves m 4 _)

theorem defectNote_moves (m : Moves R) (kind source loc : Nat) (h : Hub) : R h (defectNote kind source loc h) :=
  m.ite (m.refl h) (m.ite (raise_moves m defectPage 16 h) (setDefects_moves m _ h))

theorem noteFallback_moves (m : Moves R) (p module : Nat) (h : Hub) : R h (noteFallback p module h) :=
  m.ite (count_moves m 0x330 2 1 h (by norm_num)) (m.refl h)

theorem storeRecord_moves (m : Moves R) (p : Nat) (h : Hub) : R h (storeRecord p h) :=
  m.ite (m.refl h) (m.trans (m.armoire _ h) (armTouch_moves m 6 _))

theorem histAdd_moves (m : Moves R) (kind loc : Nat) (ue : Bool) (h : Hub) : R h (histAdd kind loc ue h) := by
  unfold histAdd
  refine m.ite (m.refl h) (m.ite (m.armoire _ h) ?_)
  split
  · exact m.armoire _ h
  · exact raise_moves m 0x300 17 h

end Notes

/-! ### Equalisation -/

section Equalise

variable {p l : Nat} {h : Hub}

/-- The record of a port with a lane retired (R63). -/
def laneRetired (rx : Bool) (l : Nat) (o : Port) : Port :=
  if rx then { o with rxRetired := some l } else { o with txRetired := some l }

theorem laneRetired_st (rx : Bool) (l : Nat) (o : Port) : (laneRetired rx l o).st = o.st := by cases rx <;> rfl

/-- R63, R64, R288: a lane is retired, noted and reported. -/
theorem retireLane_port (rx : Bool) : LinkOnly (laneRetired rx l (getPort p h)) (getPort p (retireLane p rx l h)) := by
  have hnotes (o : Port) (src loc : Nat) : LinkOnly o (getPort p (raise (portPage p) 17 (defectNote 3 src loc (putPort p o h)))) := by
    have hsteady := (steady_moves.trans (defectNote_moves steady_moves 3 src loc (putPort p o h)) (raise_steady (portPage p) 17 _)).port p
    rwa [getPort_putPort_same] at hsteady
  exact hnotes _ _ _

theorem retireLane_switch (p : Nat) (rx : Bool) (l : Nat) (h : Hub) : SwitchOnly h (retireLane p rx l h) :=
  (putPort_switch p _ h).trans ((defectNote_moves switch_moves 3 _ _ _).trans (raise_switch (portPage p) 17 _))

theorem retireLane_reports (p : Nat) (rx : Bool) (l : Nat) (h : Hub) : regBit (portPage p) 0x18 17 (retireLane p rx l h) = true :=
  raise_sets (portPage p) 17 (by norm_num) _

/-- What the lane map starts from once a lane is retired: its record, its report, the stored bytes as they were. -/
theorem laneMap_retired (hst : (getPort p h).st = .equalise) (rx : Bool) (l : Nat) :
    let x := portTo p .laneMap (retireLane p rx l h)
    (getPort p x).st = .laneMap ∧ (getPort p x).txRetired = (laneRetired rx l (getPort p h)).txRetired ∧
      (getPort p x).rxRetired = (laneRetired rx l (getPort p h)).rxRetired ∧ regBit (portPage p) 0x18 17 x = true ∧ SameMemory h x := by
  have hport := retireLane_port (p := p) (l := l) (h := h) rx
  have htx := linkOnly_txRetired hport
  have hrx := linkOnly_rxRetired hport
  have hidle : (getPort p (retireLane p rx l h)).st ≠ .ready := by
    rw [linkOnly_st hport, laneRetired_st, hst]
    decide
  simp only [portTo_idle hidle, getPort_putPort_same]
  exact ⟨rfl, htx, hrx, retireLane_reports p rx l h, sameMemory_putPort _ (retireLane_switch p rx l h)⟩

variable {tx rx : List Nat} {r : DirOutcome × DirOutcome}

theorem equaliseDone_fits (hst : (getPort p h).st = .equalise) (hout : portOutcome (getPort p h) tx rx = r)
    (htx : badOutcome r.1 = false) (hrx : badOutcome r.2 = false) :
    equaliseDone p tx rx h = portTo p .laneMap (retireOutcome p r h) := by
  have hsecond (d : DirOutcome) (hd : badOutcome d = false) : secondOutcome d = false := (Bool.or_eq_false_iff.1 hd).2
  simp [equaliseDone, hst, hout, htx, hrx, hsecond _ htx, hsecond _ hrx]

theorem equaliseDone_retries (hst : (getPort p h).st = .equalise) (htx : (portOutcome (getPort p h) tx rx).1 = .retry)
    (hrx : (portOutcome (getPort p h) tx rx).2 = .pass) : equaliseDone p tx rx h = portRetry p false h := by
  simp [equaliseDone, hst, htx, hrx, secondOutcome, badOutcome]

theorem equaliseDone_second (hst : (getPort p h).st = .equalise) (htx : (portOutcome (getPort p h) tx rx).1 = .second) :
    equaliseDone p tx rx h = portRetry p true h := by
  simp [equaliseDone, hst, htx, secondOutcome]

end Equalise

/-! ### The lane map -/

section LaneMap

variable {p level module role : Nat} {vkm : Bool} {own : Option Nat} {h : Hub}

theorem laneMapDone_near (hst : (getPort p h).st = .laneMap) (hnear : regBit (portPage p) 0x40 1 h = true) :
    laneMapDone p vkm level module role own h = putPort p { restarted p .qualify h with level := 2 } h := by
  have hidle : (getPort p h).st ≠ .ready := by simp [hst]
  simp [laneMapDone, hst, hnear, portTo_idle hidle, getPort_putPort_same, putPort_putPort]

/-- What a port that learnt its partner has of it (R99, R287). -/
def Learnt (p : Nat) (vkm : Bool) (level module : Nat) (h x : Hub) : Prop :=
  (getPort p x).st = .qualify ∧ (getPort p x).partnerV = true ∧ (getPort p x).partnerVkm = vkm ∧
    (getPort p x).partnerModule = module ∧ (getPort p x).partnerLevel = level ∧ (getPort p x).level = min 2 level ∧ SameMemory h x

theorem learnPartner_learnt {x : Hub} (hidle : (getPort p x).st ≠ .ready) (hswitch : SwitchOnly h x) :
    Learnt p vkm level module h (learnPartner p vkm level module x) := by
  unfold Learnt
  rw [learnPartner_idle hidle, getPort_putPort_same]
  exact ⟨rfl, rfl, rfl, rfl, rfl, rfl, sameMemory_putPort _ hswitch⟩

theorem noteFallback_learnt (hidle : (getPort p h).st ≠ .ready) :
    Learnt p vkm level module h (learnPartner p vkm level module (noteFallback p module h)) := by
  refine learnPartner_learnt ?_ (noteFallback_moves switch_moves p module h)
  rwa [linkOnly_st ((noteFallback_moves steady_moves p module h).port p)]

/-- A refusal that raises an error: to Retry, with the error's bit. -/
theorem portRetry_raised (hidle : (getPort p h).st ≠ .ready) (page b : Nat) (hb : b < 64) :
    let x := portRetry p false (raise page b h)
    (getPort p x).st = .retry ∧ regBit page 0x18 b x = true ∧ SameMemory h x := by
  have hraised : (getPort p (raise page b h)).st ≠ .ready := by rwa [linkOnly_st ((raise_steady page b h).port p)]
  simp only [portRetry_idle hraised, Bool.false_eq_true, if_false, getPort_putPort_same]
  exact ⟨rfl, raise_sets page b hb h, sameMemory_putPort _ (raise_switch page b h)⟩

theorem loopFail_refuses {i : PathId} (hloop : (getPath i h).st = .loopback) :
    (getPath i (loopFail i h)).st = .refused ∧ regBit 0x348 0x18 17 (loopFail i h) = true := by
  rw [loopFail, if_pos hloop, getPath_of_switch (raise_switch ringPage 17 _), getPath_pathTo]
  exact ⟨rfl, raise_sets 0x348 17 (by norm_num) _⟩

section Far

variable (hst : (getPort p h).st = .laneMap) (hfar : regBit (portPage p) 0x40 1 h = false)

include hst hfar

theorem laneMapDone_ownPort {q : Nat} (hring : isRingPort p = true) (hloop : (getPath (pathOf p) h).st = .loopback) (hne : q ≠ p)
    (hq : q < 4) (hpath : pathOf q = pathOf p) :
    laneMapDone p vkm level module role (some q) h = learnPartner p true level (moduleId h) h := by
  simp [laneMapDone, hst, hfar, hring, hloop, hne, hq, hpath]

theorem laneMapDone_notOwn (hring : isRingPort p = true) (hloop : (getPath (pathOf p) h).st = .loopback) :
    laneMapDone p vkm level module role none h = loopFail (pathOf p) h := by
  simp [laneMapDone, hst, hfar, hring, hloop]

variable (hring : ¬(isRingPort p = true ∧ (getPath (pathOf p) h).st = .loopback))

include hring

/-- A port that meets a partner outside Loopback: its level first, then who it is. -/
theorem laneMapDone_outside : laneMapDone p vkm level module role own h =
    if level + 1 < 2 ∨ 3 < level then portRetry p false (raise (portPage p) 20 h)
    else if bindMode p h = 2 ∧ h.twin.en = true then
      if h.armoire.moduleId = some module ∧ role ≠ h.twin.role ∧ vkm = true
      then learnPartner p true level module (noteFallback p module h) else portRetry p false h
    else if vkm && moduleValid h && module == moduleId h then portRetry p false (raise 0x330 23 h)
    else learnPartner p vkm level module (noteFallback p module h) := by
  have hout : (isRingPort p && (getPath (pathOf p) h).st == .loopback) = false := by simpa using hring
  simp only [laneMapDone, hst, hfar, hout, ne_eq, not_true_eq_false, Bool.false_eq_true, if_false]

theorem laneMapDone_badLevel (hlevel : level = 0 ∨ 3 < level) :
    laneMapDone p vkm level module role own h = portRetry p false (raise (portPage p) 20 h) := by
  rw [laneMapDone_outside hst hfar hring, if_pos (by omega)]

theorem laneMapDone_partner (hlo : 1 ≤ level) (hhi : level ≤ 3) (hbridge : bindMode p h ≠ 2 ∨ h.twin.en = false) :
    laneMapDone p vkm level module role own h =
      if vkm && moduleValid h && module == moduleId h then portRetry p false (raise 0x330 23 h)
      else learnPartner p vkm level module (noteFallback p module h) := by
  have hnone : ¬(bindMode p h = 2 ∧ h.twin.en = true) := by
    rintro ⟨hmode, hen⟩
    simp [hmode, hen] at hbridge
  rw [laneMapDone_outside hst hfar hring, if_neg (by omega), if_neg hnone]

theorem laneMapDone_member (hlo : 1 ≤ level) (hhi : level ≤ 3) (hmode : bindMode p h = 2) (hen : h.twin.en = true) :
    laneMapDone p vkm level module role own h =
      if h.armoire.moduleId = some module ∧ role ≠ h.twin.role ∧ vkm = true
      then learnPartner p true level module (noteFallback p module h) else portRetry p false h := by
  rw [laneMapDone_outside hst hfar hring, if_neg (by omega), if_pos ⟨hmode, hen⟩]

end Far

end LaneMap

/-! ### Ready and the loss of a link -/

section Ready

variable {p : Nat} {h : Hub} {tx rx : List Nat}

theorem soakEnd_ready (hst : (getPort p h).st = .qualify) (hout : portOutcome (getPort p h) tx rx = (.pass, .pass)) :
    soakEnd p tx rx h = portIsReady p h := by
  simp [soakEnd, hst, hout, secondOutcome, badOutcome]

theorem meetLane_uninjected (hnone : h.ras.injection = none) : meetLane p h = h := by
  simp [meetLane, hnone]

/-- The record of a port that is Ready (R99, R100). -/
def readyPort (p : Nat) (h : Hub) : Port :=
  { getPort p h with st := .ready, since := h.clock, wasReady := true, secondFail := false }

/-- The hub of a port that is Ready, its training record stored (R101). -/
def readyHub (p : Nat) (h : Hub) : Hub :=
  if regBit (portPage p) 0x40 1 h then putPort p (readyPort p h) h else storeRecord p (putPort p (readyPort p h) h)

theorem readyHub_moves {R : Hub → Hub → Prop} (m : Moves R) (p : Nat) (h : Hub) : R (putPort p (readyPort p h) h) (readyHub p h) :=
  m.ite (m.refl _) (storeRecord_moves m p _)

/-- R599: a pair that goes to Syncing leaves the stored bytes and what is injected; its frames are links' counts to a port. -/
theorem twinLinks_keeps (h : Hub) : SameMemory h (twinLinks h) ∧ LinkOnly (getPort p h) (getPort p (twinLinks h)) ∧
    (h.ras.injection = none → (twinLinks h).ras.injection = none) := by
  unfold twinLinks
  split
  · have hsent := bridgeAll_sent 0x60 (helloFields h) (twinTo .syncing 0 h)
    obtain ⟨hmem, hpoison⟩ := sameMemory_of_switch (sent_moves switch_moves hsent)
    exact ⟨⟨hmem, hpoison⟩, (sent_moves steady_moves hsent).port p, fun hnone => sent_moves uninjected_moves hsent hnone⟩
  · exact ⟨⟨rfl, rfl⟩, rfl, id⟩

theorem portIsReady_keeps (p : Nat) (h : Hub) : SameMemory h (portIsReady p h) ∧
    LinkOnly (readyPort p h) (getPort p (portIsReady p h)) ∧
    (h.ras.injection = none → (portIsReady p h).ras.injection = none) := by
  obtain ⟨⟨hmem, hpoison⟩, hport, hquiet⟩ := twinLinks_keeps (p := p) (readyHub p h)
  have hswitch := readyHub_moves switch_moves p h
  have hready := (readyHub_moves steady_moves p h).port p
  rw [getPort_putPort_same] at hready
  exact ⟨⟨hmem.trans hswitch.mem, hpoison.trans hswitch.poison⟩, linkOnly_trans hready hport,
    fun hnone => hquiet (readyHub_moves uninjected_moves p h hnone)⟩

/-- A port that is no bridge leaves Ready by itself. -/
theorem portDrop_alone {st : PortState} (hbridge : bindMode p h ≠ 2 ∨ h.twin.en = false) : portDrop p st h = portTo p st h := by
  refine if_neg ?_
  rintro ⟨-, hmode, hen⟩
  simp [hmode, hen] at hbridge

end Ready

/-! ### One second of Retry -/

section Retry

variable {p : Nat} {h : Hub}

theorem retryExpiry_detects (hst : (getPort p h).st = .retry) (hlate : (getPort p h).since + 1000000000 ≤ h.clock)
    (hfirst : (getPort p h).secondFail = false) : retryExpiry p h = putPort p (restarted p .detect h) h := by
  have hidle : (getPort p h).st ≠ .ready := by simp [hst]
  rw [← portTo_idle hidle]
  simp [retryExpiry, hst, hlate, hfirst, msToNs]

theorem retryExpiry_disables (hst : (getPort p h).st = .retry) (hlate : (getPort p h).since + 1000000000 ≤ h.clock)
    (hsecond : (getPort p h).secondFail = true) : retryExpiry p h =
      putPort p (restarted p .disabled h) (putReg (portPage p) 0x10 (putBit (getReg (portPage p) 0x10 h) 0 false) h) := by
  have hidle : (getPort p h).st ≠ .ready := by simp [hst]
  have hto : portTo p .disabled (putReg (portPage p) 0x10 (putBit (getReg (portPage p) 0x10 h) 0 false) h) = _ := portTo_idle hidle
  simp [retryExpiry, hst, hlate, hsecond, msToNs, hto]
  rfl

end Retry

/-! ### A lane in service -/

section Lane

variable {p lane : Nat} {rx uncorr : Bool} {h : Hub}

/-- R559: a lane that crosses its limit enters the fault history, its record permanent. -/
def laneNoted (p : Nat) (rx : Bool) (lane : Nat) (uncorr : Bool) (h : Hub) : Hub :=
  let loc := laneLoc p (bit01 rx) lane
  let x := histAdd 3 loc uncorr h
  let kept := x.armoire.history.map (fun r => if r.kind = 3 ∧ r.loc = loc then { r with perm := true } else r)
  if enabled rasPage h then { x with armoire := { x.armoire with history := kept } } else x

theorem laneNoted_moves {R : Hub → Hub → Prop} (m : Moves R) (p : Nat) (rx : Bool) (lane : Nat) (uncorr : Bool) (h : Hub) :
    R h (laneNoted p rx lane uncorr h) := by
  have hadd := histAdd_moves m 3 (laneLoc p (bit01 rx) lane) uncorr h
  unfold laneNoted
  exact m.ite (m.trans hadd (m.armoire _ _)) hadd

/-- The lanes that R559 looks at: those of a Ready port that are in use. -/
theorem laneBer_watched (hst : (getPort p h).st = .ready) (hlane : lane ≤ 8)
    (hother : (if rx then (getPort p h).rxRetired else (getPort p h).txRetired) ≠ some lane) :
    ¬((getPort p h).st ≠ .ready ∨ 8 < lane ∨ (if rx then (getPort p h).rxRetired else (getPort p h).txRetired) = some lane) := by
  rintro (hne | hgt | hsome)
  · exact hne hst
  · omega
  · exact hother hsome

section Watched

variable (hst : (getPort p h).st = .ready) (hlane : lane ≤ 8)
  (hother : (if rx then (getPort p h).rxRetired else (getPort p h).txRetired) ≠ some lane)

include hst hlane hother

theorem laneBer_notes (hauto : regBit 0x300 0x40 3 h = false) : laneBer p rx lane uncorr h = laneNoted p rx lane uncorr h := by
  unfold laneBer
  dsimp only
  rw [if_neg (laneBer_watched hst hlane hother), if_pos (by simp [rasPage, hauto])]
  rfl

theorem laneBer_retires (hen : enabled 0x300 h = true) (hauto : regBit 0x300 0x40 3 h = true)
    (hnone : (if rx then (getPort p h).rxRetired else (getPort p h).txRetired) = none) : laneBer p rx lane uncorr h =
      portDrop p .equalise (retireLane p rx lane (raiseEvent rasPage 2 (count rasPage 5 1 (laneNoted p rx lane uncorr h)))) := by
  unfold laneBer
  dsimp only
  rw [if_neg (laneBer_watched hst hlane hother), if_neg (by simp [rasPage, hauto, hen]), if_neg (by simp [hnone])]
  rfl

end Watched

theorem bindMode_congr {a b : Hub} (hreg : getReg (0x10 + p) 0x58 b = getReg (0x10 + p) 0x58 a) (htwin : b.twin = a.twin) :
    bindMode p b = bindMode p a := by
  unfold bindMode regFld
  rw [hreg, htwin]

/-- The event of the RAS page is no register of a port. -/
theorem raiseEvent_portBind (b : Nat) (h : Hub) :
    getReg (0x10 + p) 0x58 (raiseEvent rasPage b h) = getReg (0x10 + p) 0x58 h := by
  refine ((withSignal_steady 0x300 _ h).reg (0x10 + p) 0x58 ⟨by norm_num, by norm_num, by norm_num⟩).trans ?_
  rw [getReg_putReg, if_neg (by unfold regKey; omega)]

theorem retireLane_portBind (rx : Bool) (l : Nat) (h : Hub) :
    getReg (0x10 + p) 0x58 (retireLane p rx l h) = getReg (0x10 + p) 0x58 h :=
  (steady_moves.trans (defectNote_moves steady_moves 3 _ _ (putPort p _ h)) (raise_steady (portPage p) 17 _)).reg (0x10 + p) 0x58
    ⟨by norm_num, by norm_num, by norm_num⟩

/-- What a lane's retirement notes leaves the port's binding. -/
theorem laneRetirement_bindMode :
    let x := retireLane p rx lane (raiseEvent rasPage 2 (count rasPage 5 1 (laneNoted p rx lane uncorr h)))
    bindMode p x = bindMode p h ∧ x.twin = h.twin := by
  have hnoted := steady_moves.trans (laneNoted_moves steady_moves p rx lane uncorr h)
    (count_moves steady_moves rasPage 5 1 _ (by norm_num))
  have hswitch := (laneNoted_moves switch_moves p rx lane uncorr h).trans (count_switch rasPage 5 1 _)
  have htwin := ((hswitch.trans (raiseEvent_switch rasPage 2 _)).trans (retireLane_switch p rx lane _)).twin
  refine ⟨bindMode_congr ?_ htwin, htwin⟩
  rw [retireLane_portBind, raiseEvent_portBind]
  exact hnoted.reg (0x10 + p) 0x58 ⟨by norm_num, by norm_num, by norm_num⟩

end Lane

/-! ### Optical power -/

section Power

variable {q : Nat} {bs : List Nat} {h : Hub}

/-- R87: the power bytes are stored, one for each ring port. -/
def storePowers (bs : List Nat) (h : Hub) : Hub :=
  (List.range 4).foldl (fun x p => putPort p { getPort p x with rxPower := nth bs p 0x80 % 256 } x) h

/-- R88: a path in use has a port under the limit. -/
def powerLow (h : Hub) : Bool :=
  (List.range 4).any (fun p =>
    let st := (getPath (pathOf p) h).st
    (st == .joining || st == .joined) && decide (powerOf (getPort p h).rxPower < powerOf (regFld ringPage 0x5C 7 0 h)))

theorem rxPowerUpdate_eq (bs : List Nat) (h : Hub) :
    rxPowerUpdate bs h = if powerLow (storePowers bs h) then raise ringPage 19 (storePowers bs h) else storePowers bs h := rfl

theorem storePowers_switch (bs : List Nat) (h : Hub) : SwitchOnly h (storePowers bs h) := rfl

theorem storePowers_rxPower (hq : q < 4) : (getPort q (storePowers bs h)).rxPower = bs.getD q 0x80 % 256 := by
  have hports : List.range 4 = [0, 1, 2, 3] := rfl
  interval_cases q <;> simp [storePowers, hports, getPort_putPort, nth]

theorem rxPowerUpdate_steady (bs : List Nat) (h : Hub) : Steady (storePowers bs h) (rxPowerUpdate bs h) := by
  rw [rxPowerUpdate_eq]
  exact steady_moves.ite (raise_steady ringPage 19 _) (steady_moves.refl _)

theorem rxPowerUpdate_switch (bs : List Nat) (h : Hub) : SwitchOnly h (rxPowerUpdate bs h) := by
  rw [rxPowerUpdate_eq]
  exact (storePowers_switch bs h).trans (switch_moves.ite (raise_switch ringPage 19 _) (switch_moves.refl _))

theorem powerLow_of (hq : q < 4) (hst : (getPath (pathOf q) h).st ∈ [.joining, .joined])
    (hlow : powerOf (bs.getD q 0x80 % 256) < powerOf (regFld 0x348 0x5C 7 0 h)) : powerLow (storePowers bs h) = true := by
  refine List.any_eq_true.2 ⟨q, List.mem_range.2 hq, ?_⟩
  have hpath : getPath (pathOf q) (storePowers bs h) = getPath (pathOf q) h := getPath_of_switch (storePowers_switch bs h) _
  refine Bool.and_eq_true_iff.2 ⟨by simpa [hpath] using hst, decide_eq_true ?_⟩
  rw [storePowers_rxPower hq]
  exact hlow

end Power

theorem dirOutcome_cases {l : Nat} (hl : l ≤ 8) : dirOutcome none [] = .pass ∧ dirOutcome none [l] = .retire l ∧
    dirOutcome (some l) [l] = .pass ∧
    ∀ m, m ≤ 8 → m ≠ l → dirOutcome none [l, m] = .retry ∧ dirOutcome (some l) [m] = .second := by
  refine ⟨rfl, ?_, ?_, fun m hm hne => ⟨?_, ?_⟩⟩
  · simp [dirOutcome, hl, dedup]
  · simp [dirOutcome, dedup]
  · simp [dirOutcome, hl, hm, hne, dedup]
  · simp [dirOutcome, hm, Ne.symm hne, dedup]

/-! ### The commands -/

section Commands

variable {c : Instr} {s : State} {f : Hub → Hub} {P : Hub → Prop}

theorem hubRow_next {x : Hub} (hc : exec c s = hubRow f s) (hx : f s.hub = x) : exec c s = .next { s with hub := x } := by
  rw [hc, ← hx]
  rfl

theorem hubRow_answers (hc : exec c s = hubRow f s) (hP : P (f s.hub)) : HubAnswers c s P := ⟨onHub f s, hc, rfl, rfl, hP⟩

theorem syncRow_answers (hc : exec c s = syncRow f s) (hP : P (pairTell s.hub (f s.hub))) : HubAnswers c s P :=
  ⟨onHub (pairSync f) s, hc, rfl, rfl, hP⟩

end Commands

section Trains

variable (p : Fin 28) (s : State)

theorem portDetectStart_detects (hst : (getPort p s.hub).st = .disabled) (hen : enabled (0x10 + p.val) s.hub = true)
    (hmay : portMayStart p s.hub = true) :
    exec (.portDetectStart p) s = .next { s with hub := putPort p (restarted p .detect s.hub) s.hub } := by
  have hidle : (getPort p s.hub).st ≠ .ready := by simp [hst]
  refine hubRow_next rfl ?_
  rw [← portTo_idle hidle, detectStart, if_pos hmay, portStart, if_pos ⟨hst, hen⟩]

theorem partnerDetected_equalises {tx rx : Nat} (hst : (getPort p s.hub).st = .detect) (htx : 8 ≤ tx) (hrx : 8 ≤ rx) :
    exec (.partnerDetected p tx rx) s = .next { s with hub := putPort p (restarted p .equalise s.hub) s.hub } := by
  have hidle : (getPort p s.hub).st ≠ .ready := by simp [hst]
  refine hubRow_next rfl ?_
  rw [← portTo_idle hidle, partnerDetected, if_pos ⟨hst, htx, hrx⟩]

theorem equaliseDone_passes {tx rx : List Nat} (hst : (getPort p s.hub).st = .equalise)
    (hout : portOutcome (getPort p s.hub) tx rx = (.pass, .pass)) :
    exec (.equaliseDone p tx rx) s = .next { s with hub := putPort p (restarted p .laneMap s.hub) s.hub } := by
  have hidle : (getPort p s.hub).st ≠ .ready := by simp [hst]
  refine hubRow_next rfl ?_
  rw [equaliseDone_fits hst hout rfl rfl, ← portTo_idle hidle]
  rfl

theorem equaliseDone_retiresTx {tx rx : List Nat} {l : Nat} (hst : (getPort p s.hub).st = .equalise)
    (hout : portOutcome (getPort p s.hub) tx rx = (.retire l, .pass)) :
    HubAnswers (.equaliseDone p tx rx) s (fun h => (getPort p h).st = .laneMap ∧ (getPort p h).txRetired = some l ∧
      (getPort p h).rxRetired = (getPort p s.hub).rxRetired ∧ regBit (0x10 + p.val) 0x18 17 h = true ∧ SameMemory s.hub h) := by
  refine hubRow_answers rfl ?_
  rw [equaliseDone_fits hst hout rfl rfl]
  exact laneMap_retired hst false l

theorem equaliseDone_retiresRx {tx rx : List Nat} {l : Nat} (hst : (getPort p s.hub).st = .equalise)
    (hout : portOutcome (getPort p s.hub) tx rx = (.pass, .retire l)) :
    HubAnswers (.equaliseDone p tx rx) s (fun h => (getPort p h).st = .laneMap ∧ (getPort p h).rxRetired = some l ∧
      (getPort p h).txRetired = (getPort p s.hub).txRetired ∧ regBit (0x10 + p.val) 0x18 17 h = true ∧ SameMemory s.hub h) := by
  refine hubRow_answers rfl ?_
  rw [equaliseDone_fits hst hout rfl rfl]
  obtain ⟨hmap, htx, hrx, hkept⟩ := laneMap_retired hst true l
  exact ⟨hmap, hrx, htx, hkept⟩

theorem equaliseDone_toRetry {tx rx : List Nat} (hst : (getPort p s.hub).st = .equalise)
    (htx : (portOutcome (getPort p s.hub) tx rx).1 = .retry) (hrx : (portOutcome (getPort p s.hub) tx rx).2 = .pass) :
    exec (.equaliseDone p tx rx) s =
      .next { s with hub := putPort p { restarted p .retry s.hub with secondFail := false } s.hub } := by
  have hidle : (getPort p s.hub).st ≠ .ready := by simp [hst]
  refine hubRow_next rfl ?_
  rw [equaliseDone_retries hst htx hrx, portRetry_idle hidle, if_neg Bool.false_ne_true]

theorem equaliseDone_failsPort {tx rx : List Nat} (hst : (getPort p s.hub).st = .equalise)
    (htx : (portOutcome (getPort p s.hub) tx rx).1 = .second) :
    HubAnswers (.equaliseDone p tx rx) s (fun h => (getPort p h).st = .retry ∧ (getPort p h).secondFail = true ∧
      regBit 0x330 0x18 22 h = true ∧ SameMemory s.hub h) := by
  have hidle : (getPort p s.hub).st ≠ .ready := by simp [hst]
  have hport := (raise_steady 0x330 22 (putPort p { restarted p .retry s.hub with secondFail := true } s.hub)).port p
  rw [getPort_putPort_same] at hport
  refine hubRow_answers rfl ?_
  rw [equaliseDone_second hst htx, portRetry_idle hidle, if_pos rfl]
  exact ⟨linkOnly_st hport, linkOnly_secondFail hport, raise_sets 0x330 22 (by norm_num) _,
    sameMemory_of_switch ((putPort_switch p _ s.hub).trans (raise_switch 0x330 22 _))⟩

theorem lanemapDone_nearLoop {vkm : Bool} {level module role : Nat} {own : Option Nat} (hst : (getPort p s.hub).st = .laneMap)
    (hnear : regBit (0x10 + p.val) 0x40 1 s.hub = true) : exec (.lanemapDone p vkm level module role own) s =
      .next { s with hub := putPort p { restarted p .qualify s.hub with level := 2 } s.hub } :=
  hubRow_next rfl (laneMapDone_near hst hnear)

section Outside

variable {vkm : Bool} {level module role : Nat} {own : Option Nat} (hst : (getPort p s.hub).st = .laneMap)
  (hfar : regBit (0x10 + p.val) 0x40 1 s.hub = false) (hring : ¬(isRingPort p = true ∧ (getPath (pathOf p) s.hub).st = .loopback))

include hst hfar hring

theorem lanemapDone_learns (hbridge : bindMode p s.hub ≠ 2 ∨ s.hub.twin.en = false) (hlo : 1 ≤ level) (hhi : level ≤ 3)
    (hother : ¬(vkm = true ∧ moduleValid s.hub = true ∧ module = moduleId s.hub)) :
    HubAnswers (.lanemapDone p vkm level module role own) s (Learnt p vkm level module s.hub) := by
  refine hubRow_answers rfl ?_
  rw [laneMapDone_partner hst hfar hring hlo hhi hbridge, if_neg (by simpa [and_assoc] using hother)]
  exact noteFallback_learnt (by simp [hst])

theorem lanemapDone_levelError (hlevel : level = 0 ∨ 3 < level) : HubAnswers (.lanemapDone p vkm level module role own) s (fun h =>
    (getPort p h).st = .retry ∧ regBit (0x10 + p.val) 0x18 20 h = true ∧ SameMemory s.hub h) := by
  refine hubRow_answers rfl ?_
  rw [laneMapDone_badLevel hst hfar hring hlevel]
  exact portRetry_raised (by simp [hst]) (portPage p) 20 (by norm_num)

theorem lanemapDone_ownModule (hbridge : bindMode p s.hub ≠ 2 ∨ s.hub.twin.en = false) (hlo : 1 ≤ level) (hhi : level ≤ 3)
    (hvkm : vkm = true) (hvalid : moduleValid s.hub = true) (hown : module = moduleId s.hub) :
    HubAnswers (.lanemapDone p vkm level module role own) s (fun h =>
      (getPort p h).st = .retry ∧ regBit 0x330 0x18 23 h = true ∧ SameMemory s.hub h) := by
  refine hubRow_answers rfl ?_
  rw [laneMapDone_partner hst hfar hring hlo hhi hbridge, if_pos (by simp [hvkm, hvalid, hown])]
  exact portRetry_raised (by simp [hst]) 0x330 23 (by norm_num)

end Outside

section Loopback

variable {vkm : Bool} {level module role : Nat} (hst : (getPort p s.hub).st = .laneMap)
  (hfar : regBit (0x10 + p.val) 0x40 1 s.hub = false) (hring : isRingPort p = true) (hloop : (getPath (pathOf p) s.hub).st = .loopback)

include hst hfar hring hloop

theorem lanemapDone_loopsBack {q : Nat} (hne : q ≠ p.val) (hq : q < 4) (hpath : pathOf q = pathOf p) :
    HubAnswers (.lanemapDone p vkm level module role (some q)) s (fun h => (getPort p h).st = .qualify ∧
      (getPort p h).partnerModule = moduleId s.hub ∧ SameMemory s.hub h) := by
  refine hubRow_answers rfl ?_
  rw [laneMapDone_ownPort hst hfar hring hloop hne hq hpath]
  obtain ⟨hqualify, -, -, hmodule, -, -, hmemory⟩ :=
    learnPartner_learnt (p := p.val) (vkm := true) (level := level) (module := moduleId s.hub) (by simp [hst]) (SwitchOnly.refl s.hub)
  exact ⟨hqualify, hmodule, hmemory⟩

theorem lanemapDone_loopFails : HubAnswers (.lanemapDone p vkm level module role none) s (fun h =>
    (getPath (pathOf p) h).st = .refused ∧ regBit 0x348 0x18 17 h = true) := by
  refine hubRow_answers rfl ?_
  rw [laneMapDone_notOwn hst hfar hring hloop]
  exact loopFail_refuses hloop

end Loopback

theorem lanemapDone_member {vkm : Bool} {level module role : Nat} {own : Option Nat} (hst : (getPort p s.hub).st = .laneMap)
    (hfar : regBit (0x10 + p.val) 0x40 1 s.hub = false) (hring : isRingPort p = false) (hmode : bindMode p s.hub = 2)
    (hen : s.hub.twin.en = true) (hlo : 1 ≤ level) (hhi : level ≤ 3) :
    HubAnswers (.lanemapDone p vkm level module role own) s (fun h => SameMemory s.hub h ∧ (getPort p h).st =
      if s.hub.armoire.moduleId = some module ∧ role ≠ s.hub.twin.role ∧ vkm = true then .qualify else .retry) := by
  have hidle : (getPort p s.hub).st ≠ .ready := by simp [hst]
  refine hubRow_answers rfl ?_
  rw [laneMapDone_member hst hfar (by simp [hring]) hlo hhi hmode hen]
  split
  · obtain ⟨hqualify, -, -, -, -, -, hmemory⟩ := noteFallback_learnt (vkm := true) (level := level) (module := module) hidle
    exact ⟨hmemory, hqualify⟩
  · rw [portRetry_idle hidle, if_neg Bool.false_ne_true, getPort_putPort_same]
    exact ⟨sameMemory_putPort _ (SwitchOnly.refl _), rfl⟩

theorem qualifySoakEnd_ready {tx rx : List Nat} (hst : (getPort p s.hub).st = .qualify)
    (hout : portOutcome (getPort p s.hub) tx rx = (.pass, .pass)) (hnone : s.hub.ras.injection = none) :
    HubAnswers (.qualifySoakEnd p tx rx) s (fun h => (getPort p h).st = .ready ∧ (getPort p h).wasReady = true ∧
      (getPort p h).since = s.hub.clock ∧ SameMemory s.hub h) := by
  obtain ⟨hmemory, hport, hquiet⟩ := portIsReady_keeps p s.hub
  refine hubRow_answers rfl ?_
  rw [soakEnd_ready hst hout, meetLane_uninjected (hquiet hnone)]
  exact ⟨linkOnly_st hport, linkOnly_wasReady hport, linkOnly_since hport, hmemory⟩

theorem linkLoss_detects (hst : (getPort p s.hub).st = .ready) (hbridge : bindMode p s.hub ≠ 2 ∨ s.hub.twin.en = false) :
    HubAnswers (.linkLoss p) s (fun h => (getPort p h).st = .detect) := by
  refine syncRow_answers rfl ?_
  rw [linkOnly_st ((pairTell_steady _ _).port p), linkLoss, if_pos hst, portDrop_alone hbridge, portTo_st]

theorem retryTimerExpiry_disables (hst : (getPort p s.hub).st = .retry) (hlate : (getPort p s.hub).since + 1000000000 ≤ s.hub.clock)
    (hsecond : (getPort p s.hub).secondFail = true) : HubAnswers (.retryTimerExpiry p) s (fun h =>
      getPort p h = restarted p .disabled s.hub ∧ regBit (0x10 + p.val) 0x10 0 h = false ∧ SameMemory s.hub h) := by
  refine hubRow_answers rfl ?_
  rw [retryExpiry_disables hst hlate hsecond]
  refine ⟨getPort_putPort_same .., ?_, ⟨rfl, rfl⟩⟩
  change bitOf (getReg (portPage p) 0x10 (putReg (portPage p) 0x10 _ s.hub)) 0 = false
  rw [getReg_putReg, if_pos rfl, bit_cleared]

section Watched

variable {rx uncorr : Bool} {lane : Nat} (hst : (getPort p s.hub).st = .ready) (hlane : lane ≤ 8)
  (hother : (if rx then (getPort p s.hub).rxRetired else (getPort p s.hub).txRetired) ≠ some lane)

include hst hlane hother

theorem laneBerLimit_notes (hauto : regBit 0x300 0x40 3 s.hub = false) :
    HubAnswers (.laneBerLimit p rx lane uncorr) s (fun h => (getPort p h).st = .ready ∧ SameMemory s.hub h) := by
  have hsteady := steady_moves.trans (laneNoted_moves steady_moves p rx lane uncorr s.hub) (pairTell_steady s.hub _)
  have hswitch := (laneNoted_moves switch_moves p rx lane uncorr s.hub).trans (pairTell_switch s.hub _)
  refine syncRow_answers rfl ?_
  rw [laneBer_notes hst hlane hother hauto]
  exact ⟨(linkOnly_st (hsteady.port p)).trans hst, sameMemory_of_switch hswitch⟩

theorem laneBerLimit_equalises (hen : enabled 0x300 s.hub = true) (hauto : regBit 0x300 0x40 3 s.hub = true)
    (hnone : (if rx then (getPort p s.hub).rxRetired else (getPort p s.hub).txRetired) = none)
    (hbridge : bindMode p s.hub ≠ 2 ∨ s.hub.twin.en = false) :
    HubAnswers (.laneBerLimit p rx lane uncorr) s (fun h => (getPort p h).st = .equalise) := by
  obtain ⟨hmode, htwin⟩ := laneRetirement_bindMode (p := p) (lane := lane) (rx := rx) (uncorr := uncorr) (h := s.hub)
  rw [← hmode, ← htwin] at hbridge
  refine syncRow_answers rfl ?_
  rw [linkOnly_st ((pairTell_steady _ _).port p), laneBer_retires hst hlane hother hen hauto hnone, portDrop_alone hbridge, portTo_st]

end Watched

theorem ringRxpwrUpdate_stores (powers : List Nat) : HubAnswers (.ringRxpwrUpdate powers) s (fun h =>
    (∀ q < 4, (getPort q h).rxPower = powers.getD q 0x80 % 256) ∧
    (∀ q < 4, (getPath (pathOf q) s.hub).st ∈ [.joining, .joined] →
      powerOf (powers.getD q 0x80 % 256) < powerOf (regFld 0x348 0x5C 7 0 s.hub) → regBit 0x348 0x18 19 h = true) ∧
    SameMemory s.hub h) := by
  refine hubRow_answers rfl ⟨fun q hq => ?_, fun q hq hst hlow => ?_, sameMemory_of_switch (rxPowerUpdate_switch powers s.hub)⟩
  · rw [linkOnly_rxPower ((rxPowerUpdate_steady powers s.hub).port q), storePowers_rxPower hq]
  · rw [rxPowerUpdate_eq, if_pos (powerLow_of hq hst hlow)]
    exact raise_sets 0x348 19 (by norm_num) _

end Trains

/-- Settles O13, phase by phase. -/
theorem portsTrain : Obligations.PortsTrain := by
  unfold Obligations.PortsTrain
  intro p s o become
  refine ⟨portDetectStart_detects p s, fun tx rx => partnerDetected_equalises p s, fun tx rx hst => ?_,
    fun vkm level module role own hst => ?_, fun vkm level module role hst hfar => ?_,
    fun tx rx => qualifySoakEnd_ready p s, linkLoss_detects p s, fun hst hlate => ?_, fun rx uncorr lane hst hlane hother => ?_,
    ringRxpwrUpdate_stores s, fun l hl => dirOutcome_cases hl⟩
  · exact ⟨equaliseDone_passes p s hst, fun l => equaliseDone_retiresTx p s hst, fun l => equaliseDone_retiresRx p s hst,
      equaliseDone_toRetry p s hst, equaliseDone_failsPort p s hst⟩
  · refine ⟨lanemapDone_nearLoop p s hst, fun hfar hring hbridge => ⟨?_, ?_, ?_⟩⟩
    · exact lanemapDone_learns p s hst hfar hring hbridge
    · exact lanemapDone_levelError p s hst hfar hring
    · exact lanemapDone_ownModule p s hst hfar hring hbridge
  · exact ⟨fun q hring hloop hne hq hpath => lanemapDone_loopsBack p s hst hfar hring hloop hne hq hpath,
      lanemapDone_loopFails p s hst hfar, fun own => lanemapDone_member p s hst hfar⟩
  · exact ⟨fun hfirst => hubRow_next rfl (retryExpiry_detects hst hlate hfirst), retryTimerExpiry_disables p s hst hlate⟩
  · exact ⟨fun _ => laneBerLimit_notes p s hst hlane hother, laneBerLimit_equalises p s hst hlane hother⟩

end Sys2Proof.Proofs

/-!
PROOFS. The phases of bring-up (R95 to R97, R102, R105, R107, R108, R118, R121, R521, R578): what the operations of each phase keep
of the sequencer, then each phase's end.
-/
namespace Sys2Proof.Proofs

open Machine Safety Laws

/-- What a step of a fold leaves as it was, the fold does. -/
theorem foldl_keeps {α β γ : Type} (g : β → γ) {f : β → α → β} (hf : ∀ x a, g (f x a) = g x) (l : List α) (x : β) :
    g (l.foldl f x) = g x :=
  List.foldlRecOn l f (motive := fun y => g y = g x) rfl fun y hy a _ => (hf y a).trans hy

/-! ### Quiescing (R107, R109, R521) -/

section Quiescing

variable {s : State} {h : Hub} {f : Hub → Hub}

theorem warmReset_boot (h : Hub) : (warmReset h).boot = { (warmClear h).boot with phase := .ledger, coreTested := false } := rfl

/-- R109, R521: an event that takes the module from Quiescing to Ledger empties the Pigeonholes. -/
theorem resetRow_toLedger (hst : s.hub.boot.phase = .quiescing) (hto : (f s.hub).boot.phase = .ledger) :
    resetRow f s = .next (pigeonReset (onHub f s)) := by
  simp [resetRow, hst, hto]

theorem quiesceDone_complete (hst : h.boot.phase = .quiescing) (htxs : h.coh.txs = []) (hwait : h.coh.waiting = [])
    (hfilter : h.coh.filter = []) : ∃ g, quiesceDone h = warmReset g :=
  ⟨_, if_pos ⟨hst, htxs, hwait, hfilter⟩⟩

theorem quiesceTimeout_late (hst : h.boot.phase = .quiescing) (hlate : h.boot.startedAt + 30000000 ≤ h.clock) :
    ∃ g, quiesceTimeout h = raise 0x330 24 (warmReset g) :=
  ⟨_, if_pos ⟨hst, hlate⟩⟩

theorem quiesceDone_toLedger (hst : s.hub.boot.phase = .quiescing) (htxs : s.hub.coh.txs = []) (hwait : s.hub.coh.waiting = [])
    (hfilter : s.hub.coh.filter = []) : Answers .quiesceDone s (fun t =>
      t.hub.boot.phase = .ledger ∧ t.holes = [] ∧ t.hub.boot.coreTested = false) := by
  obtain ⟨g, hdone⟩ := quiesceDone_complete hst htxs hwait hfilter
  have hboot : (quiesceDone s.hub).boot = _ := (congrArg Hub.boot hdone).trans (warmReset_boot g)
  exact ⟨_, resetRow_toLedger hst (by rw [hboot]), congrArg Boot.phase hboot, rfl, congrArg Boot.coreTested hboot⟩

theorem quiesceTimeout_toLedger (hst : s.hub.boot.phase = .quiescing) (hlate : s.hub.boot.startedAt + 30000000 ≤ s.hub.clock) :
    Answers .quiesceTimeout s (fun t => t.hub.boot.phase = .ledger ∧ t.holes = [] ∧ regBit 0x330 0x18 24 t.hub = true) := by
  obtain ⟨g, hdone⟩ := quiesceTimeout_late hst hlate
  have hboot : (quiesceTimeout s.hub).boot = _ := (congrArg Hub.boot hdone).trans ((raise_boot _ _ _).trans (warmReset_boot g))
  refine ⟨_, resetRow_toLedger hst (by rw [hboot]), congrArg Boot.phase hboot, rfl, ?_⟩
  change regBit 0x330 0x18 24 (quiesceTimeout s.hub) = true
  rw [hdone]
  exact raise_sets 0x330 24 (by norm_num) _

end Quiescing

/-! ### Ledger (R95, R113) -/

section Ledger

variable {s : State} {h : Hub} {bad staged : Bool}

theorem ledgerDone_readable (hst : h.boot.phase = .ledger) : (ledgerDone false bad staged h).boot.phase = .clocking := by
  unfold ledgerDone
  rw [if_neg (not_not_intro hst)]
  rfl

theorem ledgerDone_unreadable (hst : h.boot.phase = .ledger) :
    ∃ g, ledgerDone true bad staged h = raise 0x330 16 g := by
  unfold ledgerDone
  rw [if_neg (not_not_intro hst)]
  exact ⟨_, rfl⟩

theorem ledgerDone_clocks (hst : s.hub.boot.phase = .ledger) :
    Answers (.ledgerDone false bad staged) s (fun t => t.hub.boot.phase = .clocking ∧ t.holes = s.holes) :=
  ⟨onHub (ledgerDone false bad staged) s, rfl, ledgerDone_readable hst, rfl⟩

theorem ledgerDone_reports (hst : s.hub.boot.phase = .ledger) :
    Answers (.ledgerDone true bad staged) s (fun t => regBit 0x330 0x18 16 t.hub = true ∧ t.holes = s.holes) := by
  obtain ⟨g, hfail⟩ := ledgerDone_unreadable (bad := bad) (staged := staged) hst
  refine ⟨onHub (ledgerDone true bad staged) s, rfl, ?_, rfl⟩
  rw [onHub_hub, hfail]
  exact raise_sets 0x330 16 (by norm_num) g

end Ledger

/-! ### Clocking (R95, R578) -/

section Clocking

variable {s x : State} {h g : Hub}

/-- The path of the bring-up under way and the active bundle are the same. -/
structure SameCourse (h g : Hub) : Prop where
  warm : g.boot.warm = h.boot.warm
  active : g.armoire.active = h.armoire.active

theorem SameCourse.trans {a b c : Hub} (x : SameCourse a b) (y : SameCourse b c) : SameCourse a c :=
  ⟨y.warm.trans x.warm, y.active.trans x.active⟩

theorem foldl_course {α : Type} {f : Hub → α → Hub} (hf : ∀ x a, SameCourse x (f x a)) (l : List α) (h : Hub) :
    SameCourse h (l.foldl f h) :=
  ⟨foldl_keeps (fun x => x.boot.warm) (fun x a => (hf x a).warm) l h,
    foldl_keeps (fun x => x.armoire.active) (fun x a => (hf x a).active) l h⟩

theorem putReg_course (page off : Nat) (v : Word) (h : Hub) : SameCourse h (putReg page off v h) := ⟨rfl, rfl⟩

theorem putPort_course (p : Nat) (v : Port) (h : Hub) : SameCourse h (putPort p v h) := ⟨rfl, rfl⟩

theorem takeProfile_course (hcold : h.boot.warm = false) : SameCourse h (takeProfile h) := by
  unfold takeProfile
  rw [hcold, if_neg Bool.false_ne_true]
  exact ⟨hcold.symm ▸ rfl, rfl⟩

theorem renumber_course (h : Hub) : SameCourse h (renumber h) := ⟨rfl, rfl⟩

theorem loadLanes_course (h : Hub) : SameCourse h (loadLanes h) := by
  unfold loadLanes
  refine SameCourse.trans (foldl_course ?_ (List.range 28) h) (foldl_course ?_ _ _)
  · exact fun x p => putPort_course p _ x
  · intro x w
    dsimp only
    split_ifs
    · exact putPort_course _ _ x
    · exact putPort_course _ _ x
    · exact ⟨rfl, rfl⟩

theorem loadWays_course (h : Hub) : SameCourse h (loadWays h) := ⟨rfl, rfl⟩

theorem loadProfile_course (training : Bool) (h : Hub) : SameCourse h (loadProfile training h) := by
  unfold loadProfile
  refine foldl_course ?_ _ h
  exact fun x c => (putReg_course _ _ _ x).trans (putReg_course _ _ _ _)

theorem vcoreStart_course (h : Hub) : SameCourse h (vcoreStart h) := by
  unfold vcoreStart
  split <;> exact ⟨rfl, rfl⟩

/-- R112, R165, R575: what a cold path does before the register load. -/
theorem clockingStart_course (hcold : h.boot.warm = false) : SameCourse h (clockingStart h) := by
  unfold clockingStart
  extract_lets +onlyGivenNames _ _ sized taken limits
  have hsized : SameCourse h sized := by
    simp only [sized, hcold, Bool.false_eq_true, if_false]
    exact ⟨rfl, rfl⟩
  clear_value sized
  have htaken : SameCourse h taken := (hsized.trans (takeProfile_course (hsized.warm.trans hcold))).trans
    ((renumber_course _).trans ((loadLanes_course _).trans (loadWays_course _)))
  clear_value taken
  have hlimits : SameCourse h limits := by
    simp only [limits, htaken.warm.trans hcold, Bool.false_eq_true, if_false]
    exact htaken.trans (loadProfile_course _ taken)
  clear_value limits
  exact ⟨hlimits.warm, (vcoreStart_course limits).active.trans hlimits.active⟩

/-- R578: without a bundle, the one register loaded is the feature floor. -/
theorem bundleRegs_bundleless (hnone : h.armoire.active = none) : bundleRegs h = [⟨0x348, 0x100, 4, 1⟩] := by
  simp [bundleRegs, activeBundle, hnone]

/-- R578: on the cold path a record of four bytes, of a register of a block with no event register, does what the block says. -/
theorem loadRecord_block {page off v k : Nat} {p : PageInfo} {d : RegDef} (hcold : s.hub.boot.warm = false)
    (hp : pageInfo page = some p) (hreg : regAt p off = some ⟨d, k, 0⟩) (hw : d.width = 4) (hlo : 0x40 ≤ off) (hhi : off < 0x800)
    (hs : accessOk off 4 = true) (hev : eventRegs p = none) (hv : v < 2 ^ 32) (hb : blockWrite .sideband p page off d v s = some x) :
    loadRecord ⟨page, off, 4, v⟩ s = x := by
  have hput : (regPut .sideband p page off 4 v s).2 = x := by
    rw [regPut_whole hreg hhi hw (.inl rfl), Nat.mod_eq_of_lt hv, putWhole_block hlo hev hb]
  simp [loadRecord, hp, hcold, hs, hput]

theorem loadRecord_featureFloor (hcold : s.hub.boot.warm = false) :
    loadRecord ⟨0x348, 0x100, 4, 1⟩ s = onHub (putReg 0x348 0x100 (w64 0x201)) s := by
  have hload : loadRecord ⟨0x348, 0x100, 4, 1⟩ s = onHub (floorWrite (w64 1)) s :=
    loadRecord_block hcold rfl rfl rfl (by norm_num) (by norm_num) rfl rfl (by norm_num) rfl
  rw [hload, onHub, floorWrite_low (by norm_num)]
  rfl

/-- R95: a cold path goes on to Testing. -/
theorem clockingEnd_cold (hcold : h.boot.warm = false) :
    (clockingEnd h).boot = { h.boot with loading := false, phase := .testing, coreTested := false } := by
  have hadopt (g : Hub) : (adoptId g).boot = g.boot := by
    unfold adoptId
    split <;> rfl
  have hcfg (g : Hub) : (takeTwinCfg g).boot = g.boot := hadopt _
  simp [clockingEnd, setBoot, hcold, hcfg]

theorem clockingDone_loads (hst : s.hub.boot.phase = .clocking) : clockingDone s =
    onHub clockingEnd ((bundleRegs (clockingStart s.hub)).foldl (fun x r => loadRecord r x) (onHub clockingStart s)) :=
  if_neg (not_not_intro hst)

theorem clockingDone_bundleless (hst : s.hub.boot.phase = .clocking) (hcold : s.hub.boot.warm = false)
    (hnone : s.hub.armoire.active = none) :
    clockingDone s = onHub clockingEnd (onHub (putReg 0x348 0x100 (w64 0x201)) (onHub clockingStart s)) := by
  obtain ⟨hwarm, hactive⟩ := clockingStart_course hcold
  rw [clockingDone_loads hst, bundleRegs_bundleless (hactive.trans hnone), List.foldl_cons, List.foldl_nil,
    loadRecord_featureFloor (s := onHub clockingStart s) (hwarm.trans hcold)]

theorem clockingDone_toTesting (hst : s.hub.boot.phase = .clocking) (hcold : s.hub.boot.warm = false)
    (hnone : s.hub.armoire.active = none) : Answers .clockingDone s (fun t => t.hub.boot.phase = .testing ∧
      t.hub.boot.loading = false ∧ t.hub.boot.coreTested = false ∧ t.holes = s.holes) := by
  have hcourse := (clockingStart_course hcold).trans (putReg_course 0x348 0x100 (w64 0x201) _)
  have hboot := clockingEnd_cold (hcourse.warm.trans hcold)
  exact ⟨onHub clockingEnd (onHub (putReg 0x348 0x100 (w64 0x201)) (onHub clockingStart s)),
    congrArg Host.Outcome.next (clockingDone_bundleless hst hcold hnone), congrArg Boot.phase hboot,
    congrArg Boot.loading hboot, congrArg Boot.coreTested hboot, rfl⟩

end Clocking

/-! ### Testing (R102, R105) -/

section Testing

variable {s : State} {h g : Hub} {r : TestReport}

theorem foldl_switch {α : Type} {f : Hub → α → Hub} (hf : ∀ x a, SwitchOnly x (f x a)) (l : List α) (h : Hub) :
    SwitchOnly h (l.foldl f h) :=
  List.foldlRecOn l f (motive := SwitchOnly h) (SwitchOnly.refl h) fun x hx a _ => hx.trans (hf x a)

theorem armTouch_switch (region : Nat) (h : Hub) : SwitchOnly h (armTouch region h) := armTouch_moves switch_moves region h

theorem defectNote_switch (kind source loc : Nat) (h : Hub) : SwitchOnly h (defectNote kind source loc h) := by
  unfold defectNote defectPut setDefects
  refine SwitchOnly.ite (SwitchOnly.refl h) (SwitchOnly.ite (raise_switch _ _ h) ?_)
  exact SwitchOnly.trans (switch_moves.armoire _ h) (armTouch_switch 4 _)

theorem fenceUnmapped_boot (h : Hub) : (fenceUnmapped h).boot = h.boot := by
  refine foldl_keeps Hub.boot (fun x k => ?_) _ h
  split <;> rfl

theorem fenceUnmapped_mem (h : Hub) : (fenceUnmapped h).mem = h.mem := by
  refine foldl_keeps Hub.mem (fun x k => ?_) _ h
  split <;> rfl

/-- R102, R105: what the self-test leaves of a hub that its findings have been noted in: the cores numbered anew, those without
a physical core fenced. -/
def selfTested (h : Hub) : Hub := fenceUnmapped (setBoot { (renumber h).boot with coreTested := true } (renumber h))

theorem selfTested_boot (h : Hub) : (selfTested h).boot = { (renumber h).boot with coreTested := true } := fenceUnmapped_boot _

theorem selfTested_mem (h : Hub) : (selfTested h).mem = h.mem := fenceUnmapped_mem _

/-- R102, R105: the cores that failed enter the defect map, which with the report of too few changes nothing else. -/
theorem coreSelfTestDone_notes (failed : List Nat) (hst : h.boot.phase = .testing) (hnew : h.boot.coreTested = false) :
    ∃ g, SwitchOnly h g ∧ SwitchOnly (selfTested g) (coreSelfTestDone failed h) := by
  refine ⟨_, foldl_switch (fun x p => defectNote_switch 1 1 p x) (failed.filter (fun p => decide (p < 72))) h, ?_⟩
  unfold coreSelfTestDone
  rw [if_neg (by simp [hst, hnew])]
  exact SwitchOnly.ite (raise_switch _ _ _) (SwitchOnly.refl _)

theorem coreSelfTestDone_once (failed : List Nat) (hst : s.hub.boot.phase = .testing) (hnew : s.hub.boot.coreTested = false) :
    Answers (.coreSelfTestDone failed) s (fun t => t.hub.boot.coreTested = true ∧ t.hub.boot.phase = .testing ∧
      t.hub.mem = s.hub.mem ∧ t.holes = s.holes) := by
  obtain ⟨g, hnoted, hraised⟩ := coreSelfTestDone_notes failed hst hnew
  have hboot := hraised.boot.trans (selfTested_boot g)
  have hphase : g.boot.phase = .testing := (congrArg Boot.phase hnoted.boot).trans hst
  exact ⟨onHub (coreSelfTestDone failed) s, rfl, congrArg Boot.coreTested hboot, (congrArg Boot.phase hboot).trans hphase,
    (hraised.mem.trans (selfTested_mem g)).trans hnoted.mem, rfl⟩

/-! The end of Testing. -/

/-- R118: entry to Ready leaves the sequencer as it entered. -/
theorem goReady_boot (h : Hub) : (goReady h).boot = { h.boot with
    phase := .ready, warm := false, elapsedUs := (h.clock - h.boot.startedAt) / 1000
    lastKind := if h.boot.warm then (if h.boot.lost then 3 else 2) else h.boot.kind } := by
  simp only [goReady, logEvent_boot, setBoot_boot]

/-- What the report of a channel leaves of the sequencer. -/
structure SameStacks (b c : Boot) : Prop where
  hbmOk : c.hbmOk = b.hbmOk
  kind : c.kind = b.kind
  warm : c.warm = b.warm

theorem SameStacks.trans {a b c : Boot} (x : SameStacks a b) (y : SameStacks b c) : SameStacks a c :=
  ⟨y.hbmOk.trans x.hbmOk, y.kind.trans x.kind, y.warm.trans x.warm⟩

theorem ddrOutcome_stacks (d : DdrReport) (h : Hub) : SameStacks h.boot (ddrOutcome d h).boot := by
  unfold ddrOutcome
  extract_lets +onlyGivenNames noted
  split_ifs <;> constructor <;> simp [noted]

theorem foldl_stacks {α : Type} {f : Hub → α → Hub} (hf : ∀ x a, SameStacks x.boot (f x a).boot) (l : List α) (h : Hub) :
    SameStacks h.boot (l.foldl f h).boot :=
  List.foldlRecOn l f (motive := fun x => SameStacks h.boot x.boot) ⟨rfl, rfl, rfl⟩
    fun x hx a _ => hx.trans (hf x a)

theorem reloadLimits_boot (training : Bool) (slots : Nat) (h : Hub) : (reloadLimits training slots h).boot = h.boot := by
  refine foldl_keeps Hub.boot (fun x c => ?_) _ h
  split <;> rfl

/-- R102: with an empty defect map and nothing found, no way is out of service. -/
theorem testEntries_clean (hmap : h.armoire.defect = []) (hways : r.waysFailed = []) (hrows : r.rowsFailed = []) :
    testEntries r h = { h with coh := { h.coh with waysBad := [] } } := by
  simp [testEntries, loadWays, hmap, hways, hrows]

theorem arrayFatal_clean (hbank : r.bankFailed = false) (hways : h.coh.waysBad = []) : arrayFatal r h = false := by
  simp [arrayFatal, hbank, hways, Tab.getD, Tab.get?]

theorem testingDone_clean (hst : h.boot.phase = .testing) (htested : h.boot.coreTested = true) (hmap : h.armoire.defect = [])
    (hhbm : r.hbmFailed = []) (hways : r.waysFailed = []) (hrows : r.rowsFailed = []) (hbank : r.bankFailed = false) :
    ∃ g, testingDone r h = goReady g ∧ g.boot.hbmOk = 255 ∧ g.boot.kind = h.boot.kind ∧ g.boot.warm = h.boot.warm := by
  unfold testingDone
  rw [if_neg (by simp [hst, htested]), testEntries_clean hmap hways hrows]
  have hclean := arrayFatal_clean (h := { h with coh := { h.coh with waysBad := [] } }) hbank rfl
  have hout : stacksOut { h with coh := { h.coh with waysBad := [] } } = 0 := by simp [stacksOut, hmap]
  have hstacks (x : Hub) : SameStacks x.boot (reloadLimits (decide (x.boot.pool = 1)) x.tier.slots
      (sizeTiers r.slotsLost r.granulesLost (r.ddr.foldl (fun y d => ddrOutcome d y) x))).boot := by
    rw [reloadLimits_boot]
    exact foldl_stacks (fun y d => ddrOutcome_stacks d y) r.ddr x
  simp only [hclean, hout, hhbm, List.contains_nil, Nat.zero_testBit, Bool.or_false, Bool.false_eq_true, if_false]
  have hall : ((List.range 8).map (fun k => 2 ^ k)).sum = 255 := rfl
  refine ⟨_, rfl, ?_⟩
  simp only [(armTouch_switch 6 _).boot, setBoot_boot]
  refine ⟨(hstacks _).hbmOk.trans ?_, (hstacks _).kind.trans ?_, (hstacks _).warm.trans ?_⟩
  · simp [hall]
  · simp
  · simp

theorem testingDone_ready (hst : s.hub.boot.phase = .testing) (htested : s.hub.boot.coreTested = true)
    (hcold : s.hub.boot.warm = false) (hmap : s.hub.armoire.defect = []) (hhbm : r.hbmFailed = []) (hways : r.waysFailed = [])
    (hrows : r.rowsFailed = []) (hbank : r.bankFailed = false) : Answers (.testingDone r) s (fun t =>
      t.hub.boot.phase = .ready ∧ t.hub.boot.hbmOk = 255 ∧ t.hub.boot.lastKind = s.hub.boot.kind ∧ t.holes = s.holes) := by
  obtain ⟨g, hdone, hok, hkind, hwarm⟩ := testingDone_clean hst htested hmap hhbm hways hrows hbank
  have hboot := (congrArg Hub.boot hdone).trans (goReady_boot g)
  refine ⟨onHub (testingDone r) s, rfl, congrArg Boot.phase hboot, (congrArg Boot.hbmOk hboot).trans hok, ?_, rfl⟩
  refine (congrArg Boot.lastKind hboot).trans ?_
  simp [hwarm, hcold, hkind]

end Testing

/-! ### Restoring (R108) and the T2 fill (R97) -/

section Restoring

variable {s : State} {h : Hub} {lostHbm lostDdr : Bool}

theorem dropImage_boot (t : Nat) (h : Hub) : (dropImage t h).boot = h.boot := putTile_boot t _ h

theorem freeFinish_boot (t : Nat) (h : Hub) : (freeFinish t h).boot = h.boot := by
  unfold freeFinish leaveQueue
  exact putTile_boot t {} h

theorem tierLoseT2_boot (h : Hub) : (tierLoseT2 h).boot = h.boot := by
  unfold tierLoseT2
  refine foldl_keeps Hub.boot (fun x t => ?_) _ h
  split
  · exact dropImage_boot t x
  · exact (putTile_boot t _ _).trans (freeFinish_boot t x)
  · rfl

/-- R108: what the memory that trained in full held is gone; the sequencer notes it. -/
theorem restoringDone_notes (hst : h.boot.phase = .restoring) : ∃ g, restoringDone lostHbm lostDdr h = goReady g ∧
    g.boot = { h.boot with lost := lostHbm || lostDdr, degraded := h.boot.degraded || (lostHbm || lostDdr) } := by
  unfold restoringDone
  rw [if_neg (not_not_intro hst)]
  extract_lets +onlyGivenNames kept lost noted
  have hkept : kept.boot = h.boot := by
    simp only [kept]
    split_ifs
    · rfl
    · exact tierLoseT2_boot h
    · rfl
  refine ⟨_, rfl, ?_⟩
  simp only [apply_ite Hub.boot, raise_boot, ite_self, noted, setBoot_boot, hkept, lost]

theorem restoringDone_ready (hst : s.hub.boot.phase = .restoring) (hwarm : s.hub.boot.warm = true) :
    Answers (.restoringDone lostHbm lostDdr) s (fun t => t.hub.boot.phase = .ready ∧ t.hub.boot.warm = false ∧
      t.hub.boot.lastKind = (if lostHbm || lostDdr then 3 else 2) ∧ t.holes = s.holes ∧
      ((lostHbm || lostDdr) = true → t.hub.boot.degraded = true)) := by
  obtain ⟨g, hdone, hnoted⟩ := restoringDone_notes (lostHbm := lostHbm) (lostDdr := lostDdr) hst
  have hboot := (congrArg Hub.boot hdone).trans (goReady_boot g)
  rw [hnoted] at hboot
  refine ⟨onHub (restoringDone lostHbm lostDdr) s, rfl, congrArg Boot.phase hboot, congrArg Boot.warm hboot, ?_, rfl, fun hlost => ?_⟩
  · exact (congrArg Boot.lastKind hboot).trans (if_pos hwarm)
  · refine (congrArg Boot.degraded hboot).trans ?_
    simp [hlost]

theorem t2InitDone_fills (hst : h.boot.phase = .ready) (hfill : h.boot.t2Done = false) : t2InitDone h =
    { h with boot := { h.boot with t2Done := true, watermark := channelBytes h / 1048576 } } :=
  if_pos ⟨hst, by rw [hfill]; rfl⟩

end Restoring

/-- Settles O9, phase by phase. -/
theorem phasesFollow : Obligations.PhasesFollow := by
  unfold Obligations.PhasesFollow
  intro s
  exact ⟨quiesceDone_toLedger, quiesceTimeout_toLedger, fun bad staged hst => ⟨ledgerDone_clocks hst, ledgerDone_reports hst⟩,
    clockingDone_toTesting, coreSelfTestDone_once, fun r => testingDone_ready, fun lostHbm lostDdr => restoringDone_ready,
    fun hst hfill => hubRow_to (t2InitDone_fills hst hfill)⟩

end Sys2Proof.Proofs

/-!
PROOFS. A CXL.mem write with byte enables (R496, R501) over a memory that is not in canonical form: the bytes that stay are read in
one walk of rising addresses and written back, so a byte listed out of order reads zero and is lost. No condition of the statement
asks for MemoryCanonical.
-/
namespace Sys2Proof.Proofs

open Machine Safety Laws

/-- Port 0 with a link, logical device 3 with one Active extent at byte 0x80000000 of the store, its tile in a T1 slot; memory lists
address 0x80000081 before 0x80000080. -/
def hostOverUnsortedMemory : State :=
  { hub := { boot := { phase := .ready }, mem := [(0x80000081, 5#8), (0x80000080, 7#8)],
             tier := { tiles := [(0x8000, { st := .upper })] },
             cxl0 := { up := true, lds := [(3, { en := true, dec0 := ⟨0, 2 ^ 28, 0, true⟩ })],
                       extents := [(0, { st := .active, ld := 3, r := true, w := true, count := 4, offBlk := 32 })] } } }

/-- The 64 bytes of a partial write. -/
def zeroLine : List Byte := List.replicate 64 0#8

/-- Enables that name no byte. -/
def noEnables : List Bool := List.replicate 64 false

/-- What the write answers. -/
def afterNoByte : State := onHub (memWr 0 3 0x80 7 zeroLine noEnables false) hostOverUnsortedMemory

theorem hostOverUnsortedMemory_meetsCxl : meetsCxl 0 3 0x80 true 0 0x80000080 0x80 hostOverUnsortedMemory = true := by decide +kernel

theorem exec_writeNoByte : exec (.memwrptl 0 3 0x80 7 zeroLine noEnables false) hostOverUnsortedMemory = .next afterNoByte := rfl

theorem byte_before : memGet hostOverUnsortedMemory.hub.mem 0x80000080 = 7#8 := by decide

theorem byte_afterNoByte : memGet afterNoByte.hub.mem 0x80000080 = 0#8 := by decide +kernel

/-- Refutes O36: MEMWRPTL that enables no byte takes the byte at 0x80000080 from 7 to 0 where memory lists its addresses out of
order, which MemoryCanonical would rule out. -/
theorem not_cxlMemoryActs : ¬ Obligations.CxlMemoryActs := by
  intro hacts
  obtain ⟨-, hserved, -⟩ := hacts 0 3 0x80 7 hostOverUnsortedMemory
  obtain ⟨-, -, hpartial⟩ := hserved 0 0x80000080 0x80 rfl rfl
  obtain ⟨t, hexec, -, -, hbytes, -⟩ := hpartial zeroLine noEnables hostOverUnsortedMemory_meetsCxl rfl rfl
  obtain rfl : afterNoByte = t := Host.Outcome.next.inj (exec_writeNoByte.symm.trans hexec)
  have hkept : memGet afterNoByte.hub.mem 0x80000080 = 7#8 := (hbytes 0x80000080).trans ((if_neg (by decide)).trans byte_before)
  exact absurd (byte_afterNoByte.symm.trans hkept) (by decide)

end Sys2Proof.Proofs

/-!
PROOFS. The commands of the STU (R143 to R161): what an admitted write of a register of its pages comes to; invalidations and
prewalks; what reading the page tables leaves as it was, and the end of a walk.
-/
namespace Sys2Proof.Proofs

open Machine Safety Laws

/-! ### The STU's pages -/

/-- What the map says of page 0x00A0 + sub. -/
def stuPage (sub : Nat) : PageInfo := ⟨.stu, 0, sub, 13⟩

theorem pageInfo_stu {sub : Nat} (hsub : sub < 4) : pageInfo (0xA0 + sub) = some (stuPage sub) := by
  interval_cases sub <;> rfl

section Write

variable {r : Requester} {page off size v k : Nat} {p : PageInfo} {d : RegDef} {s : State} {c : Instr} {f g : Hub → Hub}
  {P : Hub → Prop}

/-- A command that writes a whole block register through its gate, no event register, has the effect the block gives the write. -/
theorem answersHub_write (hc : exec c s = regRow r page off size v s) (ha : admits r page off s = true) (hpage : page < 0x1000)
    (hp : pageInfo page = some p) (hreg : regAt p off = some ⟨d, k, 0⟩) (hw : d.width = size) (hlo : 0x40 ≤ off) (hhi : off < 0x800)
    (hs : accessOk off size = true) (hv : v < 2 ^ (8 * size)) (hev : eventWrite p page off d v s = none)
    (hb : blockWrite r p page off d v s = some (onHub f s)) : AnswersHub c s f := by
  have hmod : page % 0x1000 = page := Nat.mod_eq_of_lt hpage
  have hput : putWhole r p page off d v s = onHub f s := by simp [putWhole, Nat.not_lt.2 hlo, hev, hb]
  obtain ⟨t, hrow, hpend, hholes, hsent⟩ := regRow_whole (v := v) ha (by rwa [hmod]) hreg hhi hw hs
  rw [hmod, Nat.mod_eq_of_lt hv, hput] at hpend hholes hsent
  exact ⟨t, hc.trans hrow, hpend, hholes, hsent⟩

theorem answersHub_congr (h : AnswersHub c s f) (hfg : f s.hub = g s.hub) : AnswersHub c s g := by
  unfold AnswersHub at *
  rwa [← hfg]

/-- What the other member of a pair hears is left out where P does not see it. -/
theorem hubAnswers_of_sent {x : Hub} (h : AnswersHub c s f) (hx : f s.hub = x) (hP : ∀ y, SameButSent x y → P y) :
    HubAnswers c s P := by
  obtain ⟨t, hexec, hpend, hholes, hsent⟩ := h
  exact ⟨t, hexec, hpend, hholes, hP t.hub (hx ▸ hsent)⟩

end Write

/-! ### STU_TENANT_BASE (R155) -/

section TenantBase

variable {r : Requester} {v : Nat} {s : State}

theorem tenantBaseWrite_answers (ha : admits r 0xA0 0x48 s = true) (hv : v < 2 ^ 64) : AnswersHub (.stuTenantBaseWrite r v) s
    (lockedWrite 0xA0 0x48 18 (rg "STU_TENANT_BASE" .stu 0x048 8 [(45, 16)]) v) :=
  answersHub_write rfl ha (by norm_num) (pageInfo_stu (sub := 0) (by norm_num)) rfl rfl (by norm_num) (by norm_num) rfl hv rfl rfl

theorem tenantBaseWrite_locked (ha : admits r 0xA0 0x48 s = true) (hv : v < 2 ^ 64) (hen : enabled 0xA0 s.hub = true) :
    HubAnswers (.stuTenantBaseWrite r v) s (fun h => getReg 0xA0 0x48 h = getReg 0xA0 0x48 s.hub ∧ regBit 0xA0 0x18 18 h = true ∧
      SameMemory s.hub h) := by
  refine hubAnswers_of_sent (tenantBaseWrite_answers ha hv) (if_pos hen) fun x hsent => ?_
  have hsteady := (raise_steady 0xA0 18 s.hub).reg 0xA0 0x48 (by unfold plainReg; norm_num)
  have hsent' := sent_moves steady_moves hsent
  exact ⟨(hsent'.reg 0xA0 0x48 (by unfold plainReg; norm_num)).trans hsteady,
    hsent'.err 0xA0 18 (raise_sets 0xA0 18 (by norm_num) s.hub),
    sameMemory_of_switch ((raise_switch 0xA0 18 s.hub).trans (sent_moves switch_moves hsent))⟩

theorem tenantBaseWrite_stores (ha : admits r 0xA0 0x48 s = true) (hv : v < 2 ^ 64) (hen : enabled 0xA0 s.hub = false)
    (hrsv : getReg 0xA0 0x48 s.hub &&& ~~~ (w64 (maskOf 45 16)) = 0) :
    AnswersHub (.stuTenantBaseWrite r v) s (putReg 0xA0 0x48 (w64 v &&& w64 (maskOf 45 16))) := by
  refine answersHub_congr (tenantBaseWrite_answers ha hv) ?_
  have hmask : masks [(45, 16)] = maskOf 45 16 := rfl
  simp only [lockedWrite, hen, Bool.false_eq_true, if_false, storeFields, rg, hmask, hrsv]
  rw [show (0 : Word) ||| _ = _ from BitVec.zero_or]

end TenantBase

/-- Settles O16, by the lock of R155. -/
theorem tenantBaseIsLocked : Obligations.TenantBaseIsLocked := fun _ _ _ ha hv =>
  ⟨tenantBaseWrite_locked ha hv, tenantBaseWrite_stores ha hv⟩

/-! ### STU_FAULT_CTRL (R157) -/

section FaultFifo

variable {r : Requester} {s : State}

theorem shows_faultCtrl (hlen : s.hub.stu.faults.length ≤ 16) : shows 0xA0 0x60 s = some (s.hub.stu.faults.length * 65536) := by
  have hview : shows 0xA0 0x60 s = some (mkFld 20 16 s.hub.stu.faults.length) := rfl
  rw [hview, mkFld, Nat.mod_eq_of_lt (by omega), Nat.shiftLeft_eq]

theorem faultPop_answers (ha : admits r 0xA0 0x60 s = true) : AnswersHub (.stuFaultPop r) s stuFaultPop :=
  answersHub_write rfl ha (by norm_num) (pageInfo_stu (sub := 0) (by norm_num)) rfl rfl (by norm_num) (by norm_num) rfl
    (by norm_num) rfl rfl

theorem stuFaultPop_eq (h : Hub) : stuFaultPop h = { h with stu := { h.stu with faults := h.stu.faults.tail } } := by
  rw [stuFaultPop, List.drop_one]

theorem stuFaultPop_empty {h : Hub} (hnone : h.stu.faults = []) : stuFaultPop h = h := by
  have hdrop : h.stu.faults.drop 1 = h.stu.faults := by rw [hnone]; rfl
  rw [stuFaultPop, hdrop]

end FaultFifo

/-- Settles O17: the depth shown, then POP with and without a record. -/
theorem faultFifoPops : Obligations.FaultFifoPops := fun _ s =>
  ⟨shows_faultCtrl, fun ha => answersHub_congr (faultPop_answers ha) (stuFaultPop_eq s.hub),
    fun ha hnone => answersHub_congr (faultPop_answers ha) (stuFaultPop_empty hnone)⟩

/-! ### Invalidations (R149, R150, R158) -/

/-- The fields of STU_INV_CMD and STU_PREWALK_CMD read back from the command word. -/
theorem invWord_fields {scope tenant asid n : Nat} (hscope : scope < 4) (ht : tenant < 4096) (ha : asid < 65536) (hn : n < 65536) :
    invWord scope tenant asid n < 2 ^ 64 ∧ invWord scope tenant asid n % 4 = scope ∧
      nbits (invWord scope tenant asid n) 43 32 = tenant ∧ nbits (invWord scope tenant asid n) 63 48 = asid ∧
      nbits (invWord scope tenant asid n) 31 16 = n := by
  simp only [invWord, mkFld, nbits, Nat.shiftLeft_eq, Nat.shiftRight_eq_div_pow]
  norm_num
  omega

/-- What is 2 MiB aligned stays when aligned again. -/
theorem aligned_twice (a : Nat) : a / 2 ^ 21 * 2 ^ 21 / 2 ^ 21 * 2 ^ 21 = a / 2 ^ 21 * 2 ^ 21 := by
  rw [Nat.mul_div_cancel _ (by norm_num)]

section Invalidation

variable {r : Requester} {scope tenant asid n start : Nat} {s : State} {c : Instr} {h : Hub} {i : InvCmd} {is : List InvCmd}

/-- The invalidation commands, each with its scope. -/
def invalidations (r : Requester) (tenant asid n : Nat) : List (Nat × Instr) :=
  [(0, .invalidateAll r tenant asid n), (1, .invalidateTenant r tenant asid n), (2, .invalidateAsid r tenant asid n),
   (3, .invalidateRange r tenant asid n)]

/-- Every invalidation command is a write of STU_INV_CMD with its scope. -/
theorem invalidation_write (hmem : (scope, c) ∈ invalidations r tenant asid n) :
    scope < 4 ∧ exec c s = regRow r 0xA1 0x48 8 (invWord scope tenant asid n) s := by
  simp only [invalidations, List.mem_cons, Prod.mk.injEq, List.not_mem_nil, or_false] at hmem
  rcases hmem with ⟨rfl, rfl⟩ | ⟨rfl, rfl⟩ | ⟨rfl, rfl⟩ | ⟨rfl, rfl⟩ <;> exact ⟨by norm_num, rfl⟩

/-- Where an invalidation command starts: STU_INV_ADDR, 2 MiB aligned. -/
def invStart (h : Hub) : Nat := (getReg 0xA1 0x40 h).toNat / 2 ^ 21 * 2 ^ 21

theorem invCmdWrite_word (hscope : scope < 4) (ht : tenant < 4096) (ha : asid < 65536) (hn : n < 65536) :
    invCmdWrite (invWord scope tenant asid n) h = invQueue scope tenant asid (invStart h) (max 1 n) h := by
  obtain ⟨-, hsc, hten, has, hcnt⟩ := invWord_fields hscope ht ha hn
  rw [invCmdWrite, hsc, hten, has, hcnt, invStart]

theorem invalidation_answers (hmem : (scope, c) ∈ invalidations r tenant asid n) (hadm : admits r 0xA1 0x48 s = true)
    (ht : tenant < 4096) (ha : asid < 65536) (hn : n < 65536) :
    AnswersHub c s (fun h => invQueue scope tenant asid (invStart h) (max 1 n) h) := by
  obtain ⟨hscope, hc⟩ := invalidation_write (s := s) hmem
  refine answersHub_congr ?_ (invCmdWrite_word hscope ht ha hn)
  exact answersHub_write hc hadm (by norm_num) (pageInfo_stu (sub := 1) (by norm_num)) rfl rfl (by norm_num) (by norm_num) rfl
    (invWord_fields hscope ht ha hn).1 rfl rfl

/-! The head of the queue -/

/-- Taking its entries away, the head of the queue changes the STU alone. -/
theorem invHead_sets (h : Hub) : invHead h = setStu (invHead h).stu h := by
  unfold invHead
  split
  · rfl
  · split <;> rfl

theorem invHead_sameMemory (h : Hub) : SameMemory h (invHead h) := by
  rw [invHead_sets]
  exact ⟨rfl, rfl⟩

theorem invHead_regBit (page off b : Nat) (h : Hub) : regBit page off b (invHead h) = regBit page off b h := by
  rw [invHead_sets]
  rfl

/-- The queue keeps its length, and no number changes. -/
theorem invHead_queue (h : Hub) : (invHead h).stu.issuedSeq = h.stu.issuedSeq ∧ (invHead h).stu.doneSeq = h.stu.doneSeq ∧
    (invHead h).stu.invs.length = h.stu.invs.length := by
  unfold invHead
  split
  · exact ⟨rfl, rfl, rfl⟩
  · split
    · exact ⟨rfl, rfl, rfl⟩
    · exact ⟨rfl, rfl, List.length_map _⟩

/-- R149: alone in the queue, an invalidation has removed every leaf its scope takes in. -/
theorem invHead_leaves (hone : h.stu.invs = [i]) (hnew : i.removed = false) {e : LeafEntry} (he : e ∈ (invHead h).stu.leaves) :
    e ∈ h.stu.leaves ∧ invCovers i e.tenant e.asid e.base e.size = false := by
  have hhead : invHead h = invRemove i (heldAtShapers h) h := by simp [invHead, hone, hnew]
  rw [hhead] at he
  simpa [invRemove] using he

/-! Acceptance -/

/-- The STU with an invalidation accepted behind the others. -/
def invAccepted (scope tenant asid start n : Nat) (x : Stu) : Stu :=
  { x with issuedSeq := (x.issuedSeq + 1) % 65536,
           invs := x.invs ++ [⟨(x.issuedSeq + 1) % 65536, scope, tenant, asid, start / 2 ^ 21 * 2 ^ 21, n, false, []⟩] }

theorem invQueue_room (hroom : h.stu.invs.length < 16) :
    invQueue scope tenant asid start n h = invHead (setStu (invAccepted scope tenant asid start n h.stu) h) :=
  if_neg (by omega)

theorem invQueue_full (hfull : 16 ≤ h.stu.invs.length) : invQueue scope tenant asid start n h = raise 0xA1 16 h := if_pos hfull

/-- What a scope takes in depends neither on the command's number nor on aligning its start again. -/
theorem invCovers_aligned (q t a base size : Nat) :
    invCovers ⟨q, scope, tenant, asid, invStart h / 2 ^ 21 * 2 ^ 21, n, false, []⟩ t a base size =
      invCovers ⟨0, scope, tenant, asid, invStart h, n, false, []⟩ t a base size := by
  have halign : invStart h / 2 ^ 21 * 2 ^ 21 = invStart h := aligned_twice _
  rw [halign]
  rfl

theorem invalidation_accepted (hans : AnswersHub c s (fun h => invQueue scope tenant asid (invStart h) (max 1 n) h))
    (hroom : s.hub.stu.invs.length < 16) :
    HubAnswers c s (fun h => h.stu.issuedSeq = (s.hub.stu.issuedSeq + 1) % 65536 ∧
      h.stu.invs.length = s.hub.stu.invs.length + 1 ∧ SameMemory s.hub h ∧
      (s.hub.stu.invs = [] → ∀ e ∈ h.stu.leaves, e ∈ s.hub.stu.leaves ∧
        invCovers ⟨0, scope, tenant, asid, invStart s.hub, max 1 n, false, []⟩ e.tenant e.asid e.base e.size = false)) := by
  refine hubAnswers_of_sent hans (invQueue_room hroom) fun x hsent => ?_
  have hswitch := sent_moves switch_moves hsent
  obtain ⟨hissued, -, hlen⟩ := invHead_queue (setStu (invAccepted scope tenant asid (invStart s.hub) (max 1 n) s.hub.stu) s.hub)
  obtain ⟨hmem, hpoison⟩ := invHead_sameMemory (setStu (invAccepted scope tenant asid (invStart s.hub) (max 1 n) s.hub.stu) s.hub)
  rw [hswitch.stu]
  refine ⟨hissued, hlen.trans (List.length_append ..), ⟨hswitch.mem.trans hmem, hswitch.poison.trans hpoison⟩, fun hnone e he => ?_⟩
  obtain ⟨hin, hcov⟩ := invHead_leaves (congrArg (· ++ _) hnone) rfl he
  exact ⟨hin, (invCovers_aligned ..).symm.trans hcov⟩

theorem invalidation_overflows (hans : AnswersHub c s (fun h => invQueue scope tenant asid (invStart h) (max 1 n) h))
    (hfull : 16 ≤ s.hub.stu.invs.length) :
    HubAnswers c s (fun h => regBit 0xA1 0x18 16 h = true ∧ h.stu = s.hub.stu ∧ SameMemory s.hub h) := by
  refine hubAnswers_of_sent hans (invQueue_full hfull) fun x hsent => ?_
  have hswitch := (raise_switch 0xA1 16 s.hub).trans (sent_moves switch_moves hsent)
  exact ⟨(sent_moves steady_moves hsent).err 0xA1 16 (raise_sets 0xA1 16 (by norm_num) s.hub), hswitch.stu,
    sameMemory_of_switch hswitch⟩

/-! Completion -/

/-- R47: an event sets its bit of STU_EVENT, page 0x00A1. -/
theorem raiseEvent_invDone (h : Hub) : regBit 0xA1 0x58 0 (raiseEvent 0xA1 0 h) = true := by
  have hraise : raiseEvent 0xA1 0 h =
      withSignal 0xA1 (fun x => putReg 0xA1 0x58 (putBit (getReg 0xA1 0x58 x) 0 true) x) h := rfl
  have hset : regBit 0xA1 0x58 0 (putReg 0xA1 0x58 (putBit (getReg 0xA1 0x58 h) 0 true) h) = true := by
    rw [regBit, getReg_putReg, if_pos rfl]
    exact bit_put _ 0 (by norm_num)
  rw [hraise, regBit, (withSignal_steady 0xA1 _ h).reg 0xA1 0x58 (by unfold plainReg; norm_num)]
  exact hset

/-- The hub once the head of the queue has completed, before the next one acts. -/
def invCompleted (i : InvCmd) (is : List InvCmd) (h : Hub) : Hub :=
  count 0xA3 8 1 (raiseEvent 0xA1 0 (setStu { h.stu with doneSeq := i.seq, invs := is } h))

theorem invDone_eq (hq : h.stu.invs = i :: is) (hfree : ∀ k ∈ i.waitFor, k ∉ (heldAtShapers h).map (·.id)) :
    invDone h = invHead (invCompleted i is h) := by
  have hnone : i.waitFor.any (fun k => ((heldAtShapers h).map (·.id)).contains k) = false := by
    simpa [List.any_eq_false] using hfree
  simp only [invDone, hq, hnone, Bool.false_eq_true, if_false, invCompleted]

theorem invCompleted_switch (i : InvCmd) (is : List InvCmd) (h : Hub) :
    SwitchOnly (setStu { h.stu with doneSeq := i.seq, invs := is } h) (invCompleted i is h) :=
  (raiseEvent_switch ..).trans (count_switch ..)

theorem invCompleted_event (i : InvCmd) (is : List InvCmd) (h : Hub) : regBit 0xA1 0x58 0 (invCompleted i is h) = true := by
  rw [invCompleted, regBit, (count_moves steady_moves 0xA3 8 1 _ (by norm_num)).reg 0xA1 0x58 (by unfold plainReg; norm_num)]
  exact raiseEvent_invDone _

theorem invalidationDone_completes (hruns : storeRuns s.hub = true) (hq : s.hub.stu.invs = i :: is)
    (hfree : ∀ k ∈ i.waitFor, k ∉ (heldAtShapers s.hub).map (·.id)) :
    HubAnswers .invalidationDone s (fun h => h.stu.doneSeq = i.seq ∧ h.stu.invs.length = is.length ∧ regBit 0xA1 0x58 0 h = true ∧
      SameMemory s.hub h) := by
  refine ⟨onHub invDone s, congrArg Host.Outcome.next (if_pos hruns), rfl, rfl, ?_⟩
  rw [onHub_hub, invDone_eq hq hfree]
  obtain ⟨-, hdone, hlen⟩ := invHead_queue (invCompleted i is s.hub)
  obtain ⟨hmem, hpoison⟩ := invHead_sameMemory (invCompleted i is s.hub)
  have hswitch := invCompleted_switch i is s.hub
  refine ⟨hdone.trans ?_, hlen.trans ?_, (invHead_regBit ..).trans (invCompleted_event i is s.hub),
    hmem.trans hswitch.mem, hpoison.trans hswitch.poison⟩
  · rw [hswitch.stu]; rfl
  · rw [hswitch.stu]; rfl

end Invalidation

/-! ### Prewalks (R147, R161) -/

section Prewalk

variable {r : Requester} {tenant asid n va : Nat} {s : State} {h : Hub}

/-- Walks may start behind those in progress; memory and its poison stay. -/
def StartsWalks (a b : Hub) : Prop := a.stu.walks <+: b.stu.walks ∧ SameMemory a b

theorem StartsWalks.refl (h : Hub) : StartsWalks h h := ⟨List.prefix_refl _, rfl, rfl⟩

theorem StartsWalks.trans {a b c : Hub} (x : StartsWalks a b) (y : StartsWalks b c) : StartsWalks a c := by
  obtain ⟨xw, xm, xp⟩ := x
  obtain ⟨yw, ym, yp⟩ := y
  exact ⟨xw.trans yw, ym.trans xm, yp.trans xp⟩

theorem setPrewalks_starts (l : List Prewalk) (h : Hub) : StartsWalks h (setStu { h.stu with prewalks := l } h) :=
  ⟨List.prefix_refl _, rfl, rfl⟩

/-- The hub with a prefetch walk started and counted. -/
def prefetching (t asid va : Nat) (h : Hub) : Hub :=
  count 0xA3 3 1 (setStu { h.stu with walks := h.stu.walks ++ [⟨t, asid, va / 2 ^ 21, false, false⟩] } h)

theorem prefetching_starts (t asid va : Nat) (h : Hub) : StartsWalks h (prefetching t asid va h) := by
  refine ⟨?_, count_mem .., count_poison ..⟩
  rw [prefetching, count_stu]
  exact List.prefix_append _ _

theorem startPrefetch_starts (t asid va : Nat) (h : Hub) : StartsWalks h (startPrefetch t asid va h) := by
  unfold startPrefetch
  dsimp only
  split
  · exact StartsWalks.refl h
  · exact prefetching_starts t asid va h

theorem pumpPrewalks_starts (fuel : Nat) (h : Hub) : StartsWalks h (pumpPrewalks fuel h) := by
  induction fuel generalizing h with
  | zero => exact StartsWalks.refl h
  | succ fuel ih =>
    unfold pumpPrewalks
    split
    · exact StartsWalks.refl h
    · dsimp only
      split
      · exact (setPrewalks_starts _ h).trans (ih _)
      · split
        · exact (setPrewalks_starts _ h).trans (ih _)
        · split
          · exact StartsWalks.refl h
          · exact ((setPrewalks_starts _ h).trans (startPrefetch_starts _ _ _ _)).trans (ih _)

theorem walking_of_starts {a b : Hub} {vpn : Nat} (k : StartsWalks a b) (hw : walking tenant asid vpn a.stu = true) :
    walking tenant asid vpn b.stu = true := by
  obtain ⟨w, hin, hfor⟩ := List.any_eq_true.1 hw
  exact List.any_eq_true.2 ⟨w, k.1.subset hin, hfor⟩

theorem pumpPrewalks_idle {h : Hub} (hnone : h.stu.prewalks = []) (fuel : Nat) : pumpPrewalks fuel h = h := by
  cases fuel with
  | zero => rfl
  | succ fuel => simp only [pumpPrewalks, hnone]

/-- R147: the page at va is neither cached nor walked, and a walk slot is free to prefetch it. -/
structure Prefetchable (t asid va : Nat) (h : Hub) : Prop where
  slot : h.stu.walks.length < 32
  share : pfWalks h.stu < pfLimit h
  inSpace : va < 2 ^ 57
  uncached : findLeaf t asid va h = none
  unwalked : walking t asid (va / 2 ^ 21) h.stu = false

theorem Prefetchable.setPrewalks (k : Prefetchable tenant asid va h) (l : List Prewalk) :
    Prefetchable tenant asid va (setStu { h.stu with prewalks := l } h) :=
  ⟨k.slot, k.share, k.inSpace, k.uncached, k.unwalked⟩

theorem startPrefetch_walks (k : Prefetchable tenant asid va h) : startPrefetch tenant asid va h = prefetching tenant asid va h := by
  have hslot := Nat.not_le.2 k.slot
  have hshare := Nat.not_le.2 k.share
  have hspace := Nat.not_le.2 k.inSpace
  simp only [startPrefetch, prefetching, k.uncached, k.unwalked, hslot, hshare, hspace, Option.isSome_none, decide_false,
    Bool.or_self, Bool.false_eq_true, if_false]

theorem walking_prefetching (t asid va : Nat) (h : Hub) : walking t asid (va / 2 ^ 21) (prefetching t asid va h).stu = true := by
  simp [prefetching, walking]

/-- The prewalk at the head of the queue starts a walk of its first page. -/
theorem pumpPrewalks_walks {units fuel : Nat} {ps : List Prewalk} (hq : h.stu.prewalks = ⟨tenant, asid, va, units⟩ :: ps)
    (hunits : units ≠ 0) (k : Prefetchable tenant asid va h) :
    walking tenant asid (va / 2 ^ 21) (pumpPrewalks (fuel + 1) h).stu = true := by
  have hspace := Nat.not_le.2 k.inSpace
  have hslot := Nat.not_le.2 k.slot
  have hshare := Nat.not_le.2 k.share
  have hpump : pumpPrewalks (fuel + 1) h = pumpPrewalks fuel (startPrefetch tenant asid va
      (setStu { h.stu with prewalks := ⟨tenant, asid, va + 2 ^ 21, units - 1⟩ :: ps } h)) := by
    simp only [pumpPrewalks, hq, hunits, hspace, hslot, hshare, k.uncached, k.unwalked, Option.isSome_none, Bool.or_self,
      Bool.false_eq_true, or_self, if_false]
  rw [hpump, startPrefetch_walks (k.setPrewalks _)]
  exact walking_of_starts (pumpPrewalks_starts ..) (walking_prefetching ..)

/-- Where a prewalk command starts: STU_PREWALK_ADDR, 2 MiB aligned. -/
def prewalkStart (h : Hub) : Nat := (getReg 0xA2 0x40 h).toNat / 2 ^ 21 * 2 ^ 21

/-- The hub with a prewalk queued, before walks start. -/
def prewalkQueued (t asid va n : Nat) (h : Hub) : Hub :=
  setStu { h.stu with prewalks := h.stu.prewalks ++ [⟨t, asid, va / 2 ^ 21 * 2 ^ 21, max 1 n⟩] } h

theorem queuePrewalk_room (hroom : h.stu.prewalks.length < 16) :
    queuePrewalk tenant asid va n h = (true, pumpPrewalks (70000 * 17) (prewalkQueued tenant asid va n h)) := if_neg (by omega)

theorem queuePrewalk_full (hfull : 16 ≤ h.stu.prewalks.length) : queuePrewalk tenant asid va n h = (false, raise 0xA2 16 h) :=
  if_pos hfull

section Fields

variable (ht : tenant < 4096) (ha : asid < 65536) (hn : n < 65536)

include ht ha hn

theorem prewalkCmd_answers (hadm : admits r 0xA2 0x48 s = true) :
    AnswersHub (.prewalkCmd r tenant asid n) s (prewalkCmdWrite (invWord 0 tenant asid n)) :=
  answersHub_write rfl hadm (by norm_num) (pageInfo_stu (sub := 2) (by norm_num)) rfl rfl (by norm_num) (by norm_num) rfl
    (invWord_fields (by norm_num) ht ha hn).1 rfl rfl

theorem prewalkCmdWrite_word (h : Hub) :
    prewalkCmdWrite (invWord 0 tenant asid n) h =
      if (queuePrewalk tenant asid (prewalkStart h) (max 1 n) h).1 then (queuePrewalk tenant asid (prewalkStart h) (max 1 n) h).2
      else raise 0xA2 16 (queuePrewalk tenant asid (prewalkStart h) (max 1 n) h).2 := by
  obtain ⟨-, -, hten, has, hcnt⟩ := invWord_fields (scope := 0) (by norm_num) ht ha hn
  rw [prewalkCmdWrite, hten, has, hcnt, prewalkStart]

theorem prewalkCmd_walks (hadm : admits r 0xA2 0x48 s = true) (hempty : s.hub.stu.prewalks = [])
    (k : Prefetchable tenant asid (prewalkStart s.hub) s.hub) :
    HubAnswers (.prewalkCmd r tenant asid n) s (fun h => walking tenant asid (prewalkStart s.hub / 2 ^ 21) h.stu = true ∧
      SameMemory s.hub h) := by
  have hwrite := prewalkCmdWrite_word ht ha hn s.hub
  rw [queuePrewalk_room (by rw [hempty]; norm_num), if_pos rfl] at hwrite
  refine hubAnswers_of_sent (prewalkCmd_answers ht ha hn hadm) hwrite fun x hsent => ?_
  have hswitch := sent_moves switch_moves hsent
  have hqueue : (prewalkQueued tenant asid (prewalkStart s.hub) (max 1 n) s.hub).stu.prewalks =
      [⟨tenant, asid, prewalkStart s.hub, max 1 (max 1 n)⟩] := by
    have halign : prewalkStart s.hub / 2 ^ 21 * 2 ^ 21 = prewalkStart s.hub := aligned_twice _
    simp only [prewalkQueued, setStu_stu, hempty, List.nil_append, halign]
  obtain ⟨-, hmem, hpoison⟩ := (setPrewalks_starts _ s.hub).trans
    (pumpPrewalks_starts (70000 * 17) (prewalkQueued tenant asid (prewalkStart s.hub) (max 1 n) s.hub))
  rw [hswitch.stu]
  exact ⟨pumpPrewalks_walks (fuel := 1189999) hqueue (by omega) (k.setPrewalks _), hswitch.mem.trans hmem, hswitch.poison.trans hpoison⟩

theorem prewalkCmd_overflows (hadm : admits r 0xA2 0x48 s = true) (hfull : 16 ≤ s.hub.stu.prewalks.length) :
    HubAnswers (.prewalkCmd r tenant asid n) s (fun h => regBit 0xA2 0x18 16 h = true ∧ h.stu = s.hub.stu ∧ SameMemory s.hub h) := by
  have hwrite := prewalkCmdWrite_word ht ha hn s.hub
  rw [queuePrewalk_full hfull, if_neg Bool.false_ne_true] at hwrite
  refine hubAnswers_of_sent (prewalkCmd_answers ht ha hn hadm) hwrite fun x hsent => ?_
  have hswitch := ((raise_switch 0xA2 16 s.hub).trans (raise_switch 0xA2 16 _)).trans (sent_moves switch_moves hsent)
  exact ⟨(sent_moves steady_moves hsent).err 0xA2 16 (raise_sets 0xA2 16 (by norm_num) _), hswitch.stu,
    sameMemory_of_switch hswitch⟩

end Fields

end Prewalk

/-! ### Reading the store (R176, R299)

A read may fill T0, settle lines, meet an injected error and count; the STU is no part of that. -/

section Read

variable (h : Hub)

theorem ite_keeps_stu {h a b : Hub} {c : Prop} [Decidable c] (ha : a.stu = h.stu) (hb : b.stu = h.stu) :
    (if c then a else b).stu = h.stu := by
  split <;> assumption

/-- A fold of operations that keep the STU keeps it. -/
theorem foldl_stu {α : Type} (f : Hub → α → Hub) (hf : ∀ x a, (f x a).stu = x.stu) (l : List α) : (l.foldl f h).stu = h.stu :=
  List.foldlRecOn l f (motive := fun x => x.stu = h.stu) rfl fun x hx a _ => (hf x a).trans hx

/-! Reports of errors -/

@[simp] theorem raiseMark_stu (p b : Nat) (inj : Bool) : (raiseMark p b inj h).stu = h.stu :=
  ite_keeps_stu (raiseInjected_switch p b h).stu (raise_stu p b h)

@[simp] theorem rasNote_stu (ue inj : Bool) (kind loc : Nat) : (rasNote ue inj kind loc h).stu = h.stu := by
  have hinj : (if inj then count 0x300 3 1 h else h).stu = h.stu := ite_keeps_stu (count_stu ..) rfl
  refine ite_keeps_stu ?_ ?_
  · exact (raiseEvent_stu ..).trans ((count_stu ..).trans hinj)
  · exact (raiseEvent_stu ..).trans ((count_stu ..).trans hinj)

@[simp] theorem eccReport_stu (page kind loc device : Nat) (ue scrub inj : Bool) :
    (eccReport page kind loc device ue scrub inj h).stu = h.stu := by simp [eccReport]

@[simp] theorem histAdd_stu (kind loc : Nat) (ue : Bool) : (histAdd kind loc ue h).stu = h.stu := by
  simp only [histAdd]
  split_ifs
  · rfl
  · rfl
  · split
    · rfl
    · exact raise_stu ..

@[simp] theorem selvedgeNote_stu (n : Nat) : (selvedgeNote n h).stu = h.stu :=
  ite_keeps_stu rfl ((count_stu ..).trans (foldl_stu _ _ (fun x _ => histAdd_stu x 8 _ false) _))

@[simp] theorem selvedgeError_stu (n : Nat) : (selvedgeError n h).stu = h.stu :=
  ite_keeps_stu rfl ((selvedgeNote_stu ..).trans ((count_stu ..).trans (raise_stu ..)))

@[simp] theorem meterAdd_stu (tenant i n : Nat) : (meterAdd tenant i n h).stu = h.stu :=
  ite_keeps_stu rfl (ite_keeps_stu ((armoireAppend_switch ..).stu.trans (raiseQuiet_switch ..).stu) rfl)

/-! Lines, poison and free values -/

@[simp] theorem addPoison_stu (a n : Nat) : (addPoison a n h).stu = h.stu := rfl
@[simp] theorem poisonHalf_stu (a : Nat) : (poisonHalf a h).stu = h.stu := rfl
@[simp] theorem clearInjection_stu : (clearInjection h).stu = h.stu := rfl
@[simp] theorem fresh_stu : (fresh h).2.stu = h.stu := rfl
@[simp] theorem freshLoc_stu : (freshLoc h).2.stu = h.stu := rfl
@[simp] theorem setT0_stu (line : Nat) (v : T0State) : (setT0 line v h).stu = h.stu := rfl
@[simp] theorem dropT0_stu (line : Nat) : (dropT0 line h).stu = h.stu := rfl
@[simp] theorem putFilter_stu (line : Nat) (e : Option Nat) : (putFilter line e h).stu = h.stu := rfl
@[simp] theorem dropFilter_stu (line : Nat) : (dropFilter line h).stu = h.stu := rfl
@[simp] theorem countSlice_stu (line slot n : Nat) : (countSlice line slot n h).stu = h.stu := rfl

@[simp] theorem freshBytes_stu (n : Nat) : (freshBytes n h).2.stu = h.stu := by
  induction n generalizing h with
  | zero => rfl
  | succ n ih => exact ih _

@[simp] theorem fillT0_stu (line : Nat) : (fillT0 line h).stu = h.stu := by
  unfold fillT0
  split <;> rfl

@[simp] theorem poisonLine_stu (line : Nat) : (poisonLine line h).stu = h.stu := by simp [poisonLine]

@[simp] theorem settleLine_stu (line : Nat) : (settleLine line h).stu = h.stu := by
  unfold settleLine
  split
  · exact ite_keeps_stu (by simp) (by simp)
  · rfl

@[simp] theorem settleLines_stu (ls : List Nat) : (settleLines ls h).stu = h.stu := foldl_stu h _ (fun x l => settleLine_stu x l) ls

@[simp] theorem touchTile_stu (t : Nat) : (touchTile t h).stu = h.stu := ite_keeps_stu rfl rfl

/-! Injected errors -/

@[simp] theorem injectT0_stu (a : Nat) (ue : Bool) : (injectT0 a ue h).stu = h.stu :=
  ite_keeps_stu (by simp) (ite_keeps_stu (by simp) (by simp))

@[simp] theorem injectT1_stu (a : Nat) (ue : Bool) : (injectT1 a ue h).stu = h.stu := ite_keeps_stu (by simp) (by simp)

@[simp] theorem injectT2_stu (a : Nat) (ue : Bool) : (injectT2 a ue h).stu = h.stu := ite_keeps_stu (by simp) (by simp)

@[simp] theorem meetInjection_stu (off n : Nat) : (meetInjection off n h).stu = h.stu := by
  unfold meetInjection
  split
  · rfl
  · dsimp only
    split_ifs <;> simp

@[simp] theorem meetSpInjection_stu (off n : Nat) : (meetSpInjection off n h).stu = h.stu := by
  unfold meetSpInjection
  split
  · rfl
  · dsimp only
    split_ifs <;> simp

/-! Fills and reads -/

@[simp] theorem fillBlock_stu (t j : Nat) : (fillBlock t j h).stu = h.stu := by
  have hcount : (if (getTile t h).codec ∧ nth (getTile t h).lens j 0 ≠ 63 then count 0x98 5 1 h else h).stu = h.stu :=
    ite_keeps_stu (count_stu ..) rfl
  refine (foldl_stu _ _ (fun x l => fillT0_stu x l) _).trans (ite_keeps_stu ?_ hcount)
  exact (selvedgeError_stu ..).trans ((foldl_stu _ _ (fun x l => addPoison_stu x _ _) _).trans hcount)

@[simp] theorem fillLine_stu (l : Nat) : (fillLine l h).stu = h.stu := by
  unfold fillLine
  dsimp only
  split
  · simp
  · simp
  · simp
  · exact ite_keeps_stu (by simp) (by simp)
  · exact ite_keeps_stu (by simp) (by simp)
  · rfl
  · rfl
  · rfl

theorem readLine_stu (l : Nat) : (if inT0 l h then countSlice l 0 1 h else fillLine l (countSlice l 1 1 h)).stu = h.stu :=
  ite_keeps_stu rfl (fillLine_stu ..)

theorem readTilePart_stu (off n : Nat) : (readTilePart off n h).2.stu = h.stu := by
  unfold readTilePart
  dsimp only
  split
  · exact freshBytes_stu ..
  · split
    · rfl
    · rfl
    · rfl
    all_goals
      exact (touchTile_stu ..).trans ((foldl_stu _ _ readLine_stu _).trans ((meetInjection_stu ..).trans (settleLines_stu ..)))

theorem engRead_stu (fuel off n : Nat) : (engRead fuel off n h).2.stu = h.stu := by
  induction fuel generalizing off n h with
  | zero => rfl
  | succ fuel ih =>
    unfold engRead
    split
    · rfl
    · split
      · exact freshBytes_stu ..
      · split
        · exact meetSpInjection_stu ..
        · exact (ih _ _ _).trans (readTilePart_stu ..)

theorem ownRead64_stu (off : Nat) : (ownRead64 off h).2.stu = h.stu := engRead_stu ..

theorem tableRead_stu (off : Nat) : (tableRead off h).2.stu = h.stu :=
  (ownRead64_stu ..).trans ((meterAdd_stu ..).trans (count_stu ..))

end Read

/-! ### A walk of the page tables (R136 to R140) -/

section Walk

variable {tenant asid vpn : Nat} {s : State} {h : Hub} {w : Walk}

/-- Of the STU, only the caches of tenants, ASIDs and tables may change. -/
def TableCachesOnly (a b : Hub) : Prop :=
  b.stu = { a.stu with tenants := b.stu.tenants, asids := b.stu.asids, nonLeaves := b.stu.nonLeaves }

theorem tableCachesOnly_of_stu {a b : Hub} (k : b.stu = a.stu) : TableCachesOnly a b := by
  unfold TableCachesOnly
  rw [k]

theorem TableCachesOnly.trans {a b c : Hub} (x : TableCachesOnly a b) (y : TableCachesOnly b c) : TableCachesOnly a c := by
  unfold TableCachesOnly at *
  rw [x] at y
  exact y

theorem TableCachesOnly.waiting {a b : Hub} (k : TableCachesOnly a b) : b.stu.waiting = a.stu.waiting := by rw [k]
theorem TableCachesOnly.prewalks {a b : Hub} (k : TableCachesOnly a b) : b.stu.prewalks = a.stu.prewalks := by rw [k]

theorem tableRead_caches (off : Nat) (h : Hub) : TableCachesOnly h (tableRead off h).2 := tableCachesOnly_of_stu (tableRead_stu h off)

theorem tableRead_caches_of {off : Nat} {h h1 : Hub} {e : Option Nat} (heq : tableRead off h = (e, h1)) : TableCachesOnly h h1 := by
  have hread := tableRead_caches off h
  rwa [heq] at hread

theorem ownRead64_caches (off : Nat) (h : Hub) : TableCachesOnly h (ownRead64 off h).2 := tableCachesOnly_of_stu (ownRead64_stu h off)

/-- R143: what a cached tenant or ASID entry displaces is another such entry. -/
theorem capCtx_caches (t : List (Nat × Word × Word)) (a : List (Nat × Nat × Word)) (h : Hub) :
    TableCachesOnly h (setStu (capCtx { h.stu with tenants := t, asids := a }) h) := by
  unfold capCtx TableCachesOnly
  split
  · rfl
  · split <;> rfl

theorem installNonLeaf_caches (t asid level va table : Nat) (h : Hub) :
    TableCachesOnly h (installNonLeaf t asid level va table h) := by
  simp only [TableCachesOnly, installNonLeaf, setStu_stu]

theorem tenantEntry_caches (t : Nat) (h : Hub) : TableCachesOnly h (tenantEntry t h).2 := by
  have hread (base : Nat) : TableCachesOnly h (ownRead64 (base + 16 * t + 8) (tableRead (base + 16 * t) h).2).2 :=
    (tableRead_caches _ h).trans (ownRead64_caches _ _)
  unfold tenantEntry
  split
  · exact tableCachesOnly_of_stu rfl
  · dsimp only
    split
    · exact tableCachesOnly_of_stu rfl
    · split
      · split
        · exact hread _
        · exact (hread _).trans (capCtx_caches _ _ _)
      · exact hread _

theorem asidEntry_caches (t asid : Nat) (h : Hub) : TableCachesOnly h (asidEntry t asid h).2 := by
  have htenant := tenantEntry_caches t h
  unfold asidEntry
  split
  · exact tableCachesOnly_of_stu rfl
  · split
    · next heq => rwa [heq] at htenant
    · next heq =>
      rw [heq] at htenant
      dsimp only
      split
      · exact htenant
      · split
        · exact htenant
        · split
          · next hword => exact htenant.trans (tableRead_caches_of hword)
          · next hword =>
            have hread := htenant.trans (tableRead_caches_of hword)
            split
            · exact hread
            · split
              · exact hread
              · exact hread.trans (capCtx_caches _ _ _)

theorem walkDown_caches (t asid va level table : Nat) (h : Hub) : TableCachesOnly h (walkDown t asid va level table h).2 := by
  induction level generalizing table h with
  | zero =>
    unfold walkDown
    split
    · next heq => exact tableRead_caches_of heq
    · next heq => split <;> exact tableRead_caches_of heq
  | succ level ih =>
    unfold walkDown
    split
    · next heq => exact tableRead_caches_of heq
    · next heq =>
      split
      · exact tableRead_caches_of heq
      · exact tableRead_caches_of heq
      · exact ((tableRead_caches_of heq).trans (installNonLeaf_caches ..)).trans (ih _ _)

theorem walkPage_caches (t asid va : Nat) (h : Hub) : TableCachesOnly h (walkPage t asid va h).2 := by
  unfold walkPage
  split
  · exact walkDown_caches ..
  · split
    · exact walkDown_caches ..
    · split
      · exact walkDown_caches ..
      · have hroot := asidEntry_caches t asid h
        split
        · next heq => rwa [heq] at hroot
        · next heq =>
          rw [heq] at hroot
          exact hroot.trans (walkDown_caches ..)

/-! ### The end of a walk (R143 to R149) -/

/-- The hub without a walk that has ended. -/
def walkLeft (w : Walk) (h : Hub) : Hub := setStu { h.stu with walks := h.stu.walks.filter (fun v => v != w) } h

theorem not_mem_walkLeft (w : Walk) (h : Hub) : w ∉ (walkLeft w h).stu.walks := by simp [walkLeft]

@[simp] theorem installLeaf_waiting (t asid va entry size : Nat) (pf : Bool) (h : Hub) :
    (installLeaf t asid va entry size pf h).stu.waiting = h.stu.waiting := by simp [installLeaf]

@[simp] theorem installLeaf_prewalks (t asid va entry size : Nat) (pf : Bool) (h : Hub) :
    (installLeaf t asid va entry size pf h).stu.prewalks = h.stu.prewalks := by simp [installLeaf]

@[simp] theorem installLeaf_walks (t asid va entry size : Nat) (pf : Bool) (h : Hub) :
    (installLeaf t asid va entry size pf h).stu.walks = h.stu.walks := by simp [installLeaf]

/-- R143: a leaf just cached is the last to be displaced. -/
theorem mem_installLeaf (t asid va entry size : Nat) (pf : Bool) (h : Hub) :
    ⟨t, asid, va / size * size, size, entry, pf⟩ ∈ (installLeaf t asid va entry size pf h).stu.leaves := by
  simp only [installLeaf, setStu_stu, List.length_append, List.length_singleton]
  rw [List.drop_append_of_le_length (by omega)]
  exact List.mem_append_right _ (List.mem_singleton_self _)

/-- With no request waiting and no prewalk queued, nothing goes on after a walk. -/
theorem walkEnd_idle {x : Hub} (bad : Option (Nat × Nat × Nat × Nat)) (fuel : Nat) (hwait : x.stu.waiting = [])
    (hpre : x.stu.prewalks = []) : pumpPrewalks fuel (stuPass bad x.stu.waiting (setStu { x.stu with waiting := [] } x)) = x := by
  have hset : setStu { x.stu with waiting := [] } x = x := by rw [← hwait]; rfl
  rw [hset, hwait]
  exact pumpPrewalks_idle hpre fuel

section Ended

variable (hwait : s.hub.stu.waiting = []) (hpre : s.hub.stu.prewalks = [])
  (hfind : s.hub.stu.walks.find? (fun w => w.tenant == tenant && w.asid == asid && w.vpn == vpn) = some w)

include hwait hpre hfind

theorem walkDone_again (hagain : w.again = true) : walkDone tenant asid vpn s.hub = walkLeft w s.hub := by
  simp only [walkDone, hfind, hagain, if_true]
  exact walkEnd_idle (x := walkLeft w s.hub) none _ hwait hpre

theorem walkDone_installs {e k : Nat} {h1 : Hub} (hagain : w.again = false)
    (hwalk : walkPage tenant asid (vpn * 2 ^ 21) s.hub = (.ok (e, k), h1)) :
    walkDone tenant asid vpn s.hub = installLeaf tenant asid (vpn * 2 ^ 21) e k (!w.demand) (walkLeft w h1) := by
  have hcaches := walkPage_caches tenant asid (vpn * 2 ^ 21) s.hub
  rw [hwalk] at hcaches
  simp only [walkDone, hfind, hagain, Bool.false_eq_true, if_false, hwalk]
  refine walkEnd_idle (x := installLeaf tenant asid (vpn * 2 ^ 21) e k (!w.demand) (walkLeft w h1)) none _ ?_ ?_
  · exact (installLeaf_waiting ..).trans (hcaches.waiting.trans hwait)
  · exact (installLeaf_prewalks ..).trans (hcaches.prewalks.trans hpre)

variable (hruns : storeRuns s.hub = true)

include hruns

theorem translationWalkDone_again (hagain : w.again = true) :
    exec (.translationWalkDone tenant asid vpn) s = .next (onHub (walkLeft w) s) := by
  have hexec : exec (.translationWalkDone tenant asid vpn) s = .next (onHub (walkDone tenant asid vpn) s) :=
    congrArg Host.Outcome.next (if_pos hruns)
  rw [hexec, onHub, walkDone_again hwait hpre hfind hagain]
  rfl

theorem translationWalkDone_caches {e k : Nat} {h1 : Hub} (hagain : w.again = false)
    (hwalk : walkPage tenant asid (vpn * 2 ^ 21) s.hub = (.ok (e, k), h1)) :
    HubAnswers (.translationWalkDone tenant asid vpn) s (fun h =>
      ⟨tenant, asid, vpn * 2 ^ 21 / k * k, k, e, !w.demand⟩ ∈ h.stu.leaves ∧ w ∉ h.stu.walks) := by
  refine ⟨onHub (walkDone tenant asid vpn) s, congrArg Host.Outcome.next (if_pos hruns), rfl, rfl, ?_⟩
  rw [onHub_hub, walkDone_installs hwait hpre hfind hagain hwalk]
  refine ⟨mem_installLeaf .., ?_⟩
  rw [installLeaf_walks]
  exact not_mem_walkLeft w h1

end Ended

end Walk

/-- Settles O18, a lemma for each command and its outcome. -/
theorem translationCommandsAct : Obligations.TranslationCommandsAct := by
  intro r tenant asid n s
  refine ⟨fun scope c hmem hadm ht ha hn => ?_, fun i is hruns hq hfree => invalidationDone_completes hruns hq hfree,
    fun hadm ht ha hn => ⟨fun hempty hslot hshare hspace hcached hwalked => ?_, prewalkCmd_overflows ht ha hn hadm⟩,
    fun vpn w hruns hwait hpre hfind => ⟨translationWalkDone_again hwait hpre hfind hruns,
      fun e k h1 => translationWalkDone_caches hwait hpre hfind hruns⟩⟩
  · have hans := invalidation_answers (s := s) hmem hadm ht ha hn
    exact ⟨invalidation_accepted hans, invalidation_overflows hans⟩
  · exact prewalkCmd_walks ht ha hn hadm hempty ⟨hslot, hshare, hspace, hcached, hwalked⟩

end Sys2Proof.Proofs

/-!
PROOFS. Background evictions (R185, R186) against the words of O20. The model starts no eviction while those under way will free as many
slots as BG_CFG's target asks for (SPEC.md, log 153); O20 asks for one wherever fewer slots are free than the target.
-/
namespace Sys2Proof.Proofs

open Machine Safety Laws

/-- A module that serves, with both T1 slots taken and a target of one free slot: tile 0 is Clean, and a background demotion of
tile 1, under way, will free the slot. -/
def evictionUnderWay : State :=
  { hub := { boot := { phase := .ready },
             regs := [(regKey 0x90 0x10, 1), (regKey 0x90 0x40, w64 (mkFld 31 24 1)), (regKey 0x90 0x44, 1),
                      (regKey 0x90 0x80, w64 (mkFld 55 32 2))],
             tier := { tiles := [(0, { st := .clean }), (1, { st := .demoting, background := true, next := .evict })], ageQ := [0, 1],
                       slots := 2 } } }

theorem evictionUnderWay_serving : serving evictionUnderWay.hub = true := by decide
theorem evictionUnderWay_enabled : enabled 0x90 evictionUnderWay.hub = true := by decide +kernel
theorem evictionUnderWay_bgMax : regFld 0x90 0x40 31 24 evictionUnderWay.hub ≠ 0 := by decide +kernel
theorem evictionUnderWay_short : slotsFree evictionUnderWay.hub < regFld 0x90 0x44 23 0 evictionUnderWay.hub := by decide +kernel
theorem evictionUnderWay_victim : backgroundVictim evictionUnderWay.hub = some 0 := by decide +kernel
theorem evictionUnderWay_clean : (getTile 0 evictionUnderWay.hub).st = .clean := by decide

/-- The slot that tile 1 will free is counted: no further eviction starts. -/
theorem backgroundEviction_evictionUnderWay : backgroundEviction evictionUnderWay.hub = evictionUnderWay.hub := by decide +kernel

theorem exec_backgroundEviction_evictionUnderWay : exec .backgroundEviction evictionUnderWay = .next evictionUnderWay :=
  calc exec .backgroundEviction evictionUnderWay
      = .next (onHub backgroundEviction evictionUnderWay) := rfl
    _ = .next evictionUnderWay := by rw [onHub, backgroundEviction_evictionUnderWay]

/-- Refutes O20: tile 0 is the victim and a slot short of the target is free, but the eviction of tile 1, under way, is counted and
tile 0 stays Clean. -/
theorem not_tierEventsAct : ¬ Obligations.TierEventsAct := by
  intro h
  obtain ⟨-, -, -, -, hevict, -⟩ := h .sideband 0 0 evictionUnderWay
  obtain ⟨hbackground, -⟩ := hevict evictionUnderWay_serving evictionUnderWay_enabled evictionUnderWay_bgMax
  obtain ⟨s', hexec, -, -, hlower, -⟩ := hbackground evictionUnderWay_short evictionUnderWay_victim evictionUnderWay_clean
  rw [exec_backgroundEviction_evictionUnderWay, Host.Outcome.next.injEq] at hexec
  rw [← hexec, evictionUnderWay_clean] at hlower
  exact absurd hlower (by decide)

end Sys2Proof.Proofs

/-!
PROOFS. The Tier Manager (R164 to R204): what a tile reads after an update, what the operations of a tier command leave as it was, and
what each command comes to on one tile.
-/
namespace Sys2Proof.Proofs

open Machine Safety Laws

/-! ### Tiles -/

section Tiles

variable {a b h : Hub} {t u : Nat} {v : Tile}

theorem tileDefault_of_tier (ht : b.tier = a.tier) : tileDefault b = tileDefault a := by rw [tileDefault, ht, tileDefault]

theorem getTile_of_tier (ht : b.tier = a.tier) (t : Nat) : getTile t b = getTile t a := by
  rw [getTile, tileDefault_of_tier ht, ht, getTile]

theorem getReg_of_regs (hregs : b.regs = a.regs) (page off : Nat) : getReg page off b = getReg page off a := by
  rw [getReg, hregs, getReg]

theorem enabled_of_reg {page : Nat} (hreg : getReg page 0x10 b = getReg page 0x10 a) (hboot : b.boot = a.boot) :
    enabled page b = enabled page a := by
  rw [enabled, regBit, hreg, hboot, enabled, regBit]

theorem ageNow_of_reg (hreg : getReg 0x90 0x40 b = getReg 0x90 0x40 a) (hclock : b.clock = a.clock) : ageNow b = ageNow a := by
  rw [ageNow, regFld, hreg, hclock, ageNow, regFld]

/-- A tile read after an update: the update's, or what it was. -/
theorem getTile_putTile (t u : Nat) (v : Tile) (h : Hub) : getTile u (putTile t v h) = if t = u then v else getTile u h := by
  have hdefault : tileDefault (putTile t v h) = tileDefault h := rfl
  rw [getTile, hdefault]
  by_cases hv : v = tileDefault h
  · simp only [putTile, hv, if_true, Tab.getD, tab_get_erase, getTile]
    split <;> rfl
  · simp only [putTile, hv, if_false, Tab.getD, tab_get_set, getTile]
    split <;> rfl

@[simp] theorem getTile_putTile_same (t : Nat) (v : Tile) (h : Hub) : getTile t (putTile t v h) = v := by
  rw [getTile_putTile, if_pos rfl]

@[simp] theorem getTile_leaveQueue (t u : Nat) (h : Hub) : getTile u (leaveQueue t h) = getTile u h := rfl

/-- R187: a tile that takes a slot or a class has its stamp renewed. -/
@[simp] theorem getTile_renewTile (t : Nat) (h : Hub) : getTile t (renewTile t h) = { getTile t h with stamp := ageNow h } :=
  getTile_putTile_same t _ h

@[simp] theorem putTile_cmds (t : Nat) (v : Tile) (h : Hub) : (putTile t v h).tier.cmds = h.tier.cmds := rfl
@[simp] theorem renewTile_cmds (t : Nat) (h : Hub) : (renewTile t h).tier.cmds = h.tier.cmds := rfl
@[simp] theorem leaveQueue_cmds (t : Nat) (h : Hub) : (leaveQueue t h).tier.cmds = h.tier.cmds := rfl
@[simp] theorem freeFinish_cmds (t : Nat) (h : Hub) : (freeFinish t h).tier.cmds = h.tier.cmds := rfl

/-! No tile's update touches a register. -/

@[simp] theorem renewTile_regs (t : Nat) (h : Hub) : (renewTile t h).regs = h.regs := (rfl)
@[simp] theorem renewTile_boot (t : Nat) (h : Hub) : (renewTile t h).boot = h.boot := (rfl)
@[simp] theorem renewTile_mem (t : Nat) (h : Hub) : (renewTile t h).mem = h.mem := (rfl)
@[simp] theorem renewTile_poison (t : Nat) (h : Hub) : (renewTile t h).poison = h.poison := (rfl)
@[simp] theorem freeFinish_regs (t : Nat) (h : Hub) : (freeFinish t h).regs = h.regs := by simp [freeFinish, leaveQueue]
@[simp] theorem freeFinish_slots (t : Nat) (h : Hub) : (freeFinish t h).tier.slots = h.tier.slots := rfl

theorem enabled_putTile (page t : Nat) (v : Tile) (h : Hub) : enabled page (putTile t v h) = enabled page h :=
  enabled_of_reg (getReg_of_regs (putTile_regs t v h) page 0x10) (putTile_boot t v h)

theorem enabled_renewTile (page t : Nat) (h : Hub) : enabled page (renewTile t h) = enabled page h :=
  enabled_of_reg (getReg_of_regs (renewTile_regs t h) page 0x10) (renewTile_boot t h)

theorem enabled_freeFinish (page t : Nat) (h : Hub) : enabled page (freeFinish t h) = enabled page h :=
  enabled_of_reg (getReg_of_regs (freeFinish_regs t h) page 0x10) (freeFinish_boot t h)

theorem ageNow_putTile (t : Nat) (v : Tile) (h : Hub) : ageNow (putTile t v h) = ageNow h :=
  ageNow_of_reg (getReg_of_regs (putTile_regs t v h) 0x90 0x40) (putTile_clock t v h)

theorem ageNow_freeFinish (t : Nat) (h : Hub) : ageNow (freeFinish t h) = ageNow h :=
  ageNow_of_reg (getReg_of_regs (freeFinish_regs t h) 0x90 0x40) (freeFinish_clock h t)

/-! Classes: a tile that leaves its slot adds to no class. -/

/-- An entry that p does not count adds nothing to what p counts of a table. -/
theorem length_filter_set_le {p : Nat × Tile → Bool} (hp : p (t, v) = false) (l : Tab Tile) :
    ((Tab.set l t v).filter p).length ≤ (l.filter p).length := by
  induction l with
  | nil => simp [Tab.set, hp]
  | cons e l ih =>
    obtain ⟨i, w⟩ := e
    simp only [Tab.set]
    split
    · rw [List.filter_cons, hp]
      exact (List.Sublist.filter p (List.sublist_cons_self (i, w) l)).length_le
    · split
      · simp [List.filter_cons, hp]
      · simp only [List.filter_cons]
        split
        · exact Nat.succ_le_succ ih
        · exact ih

theorem length_filter_erase_le (p : Nat × Tile → Bool) (l : Tab Tile) (t : Nat) :
    ((Tab.erase l t).filter p).length ≤ (l.filter p).length := by
  induction l with
  | nil => exact Nat.le_refl 0
  | cons e l ih =>
    obtain ⟨i, w⟩ := e
    have hle : (l.filter p).length ≤ (((i, w) :: l).filter p).length := (List.Sublist.filter p (List.sublist_cons_self (i, w) l)).length_le
    simp only [Tab.erase]
    split
    · exact ih.trans hle
    · simp only [List.filter_cons]
      split
      · exact Nat.succ_le_succ ih
      · exact ih

theorem length_filter_putTile_le {p : Nat × Tile → Bool} (hp : p (t, v) = false) (h : Hub) :
    ((putTile t v h).tier.tiles.filter p).length ≤ (h.tier.tiles.filter p).length := by
  simp only [putTile]
  split
  · exact length_filter_erase_le p _ t
  · exact length_filter_set_le hp _

theorem freeFinish_tiles (t : Nat) (h : Hub) : (freeFinish t h).tier.tiles = (putTile t {} h).tier.tiles := rfl

theorem usedOf_freeFinish_le (c t : Nat) (h : Hub) : usedOf c (freeFinish t h) ≤ usedOf c h := by
  rw [usedOf, freeFinish_tiles, usedOf]
  exact length_filter_putTile_le rfl h

theorem slotsUsed_freeFinish_le (t : Nat) (h : Hub) : slotsUsed (freeFinish t h) ≤ slotsUsed h := by
  rw [slotsUsed, freeFinish_tiles, slotsUsed]
  exact length_filter_putTile_le rfl h

theorem ceilingOf_of_regs {a b : Hub} (hregs : b.regs = a.regs) (c : Nat) : ceilingOf c b = ceilingOf c a := by
  rw [ceilingOf, regFld, getReg_of_regs hregs, ceilingOf, regFld]

/-- R185: room below the class's ceiling and a free slot. -/
theorem takeSlot_of_room {c : Nat} (hroom : usedOf c h < ceilingOf c h) (hslot : slotsUsed h < h.tier.slots) : takeSlot c h = some h :=
  if_pos ⟨hroom, Nat.sub_pos_of_lt hslot⟩

/-- R182: a Free tile with its slot, as its store or ALLOC leaves it. -/
def allocated (t cls owner : Nat) (h : Hub) : Hub := renewTile t (putTile t { st := .upper, cls := cls, owner := owner } h)

theorem getTile_allocated (t cls owner : Nat) (h : Hub) :
    getTile t (allocated t cls owner h) = { st := .upper, cls := cls, owner := owner, stamp := ageNow h } := by
  rw [allocated, getTile_renewTile, getTile_putTile_same, ageNow_putTile]

@[simp] theorem allocated_cmds (t cls owner : Nat) (h : Hub) : (allocated t cls owner h).tier.cmds = h.tier.cmds := rfl
@[simp] theorem allocated_mem (t cls owner : Nat) (h : Hub) : (allocated t cls owner h).mem = h.mem :=
  (renewTile_mem ..).trans (putTile_mem ..)

theorem enabled_allocated (page t cls owner : Nat) (h : Hub) : enabled page (allocated t cls owner h) = enabled page h :=
  (enabled_renewTile ..).trans (enabled_putTile ..)

theorem allocTile_of_room {c owner : Nat} (hroom : usedOf c h < ceilingOf c h) (hslot : slotsUsed h < h.tier.slots) :
    allocTile t c owner h = some (allocated t c owner h) := by
  rw [allocTile, takeSlot_of_room hroom hslot]
  rfl

theorem allocFresh_of_room {c owner : Nat} (hroom : usedOf c h < ceilingOf c h) (hslot : slotsUsed h < h.tier.slots) :
    allocFresh t c owner h = some (allocated t c owner (freeFinish t h)) := by
  refine allocTile_of_room ?_ ?_
  · rw [ceilingOf_of_regs (freeFinish_regs t h)]
    exact (usedOf_freeFinish_le c t h).trans_lt hroom
  · rw [freeFinish_slots]
    exact (slotsUsed_freeFinish_le t h).trans_lt hslot

/-- R183: what a freed tile held reads zero. -/
theorem memGet_freeFinish (t : Nat) (h : Hub) (a : Nat) :
    memGet (freeFinish t h).mem a = if tileOf a = t then 0 else memGet h.mem a := by
  refine (memGet_clear h.mem (65536 * t) 65536 a).trans (if_congr ?_ rfl rfl)
  unfold tileOf
  omega

end Tiles

/-! ### Recalls and moves: what they leave as it was -/

section Moves

variable {a b h : Hub} {t : Nat}

theorem allocTag_tier (h : Hub) : (allocTag h).2.tier = h.tier := by
  unfold allocTag
  split <;> rfl

theorem poisonLine_tier (line : Nat) (h : Hub) : (poisonLine line h).tier = h.tier := count_tier ..

/-- Snoops sent one after another leave the tiles and the commands alone. -/
theorem foldl_snoops_tier {α : Type} (f : List Snoop × Hub → α → List Snoop × Hub) (hf : ∀ x a, (f x a).2.tier = x.2.tier)
    (l : List α) (x : List Snoop × Hub) : (l.foldl f x).2.tier = x.2.tier :=
  List.foldlRecOn l f (motive := fun y => y.2.tier = x.2.tier) rfl fun y hy a _ => (hf y a).trans hy

theorem snoopLine_tier (r : Req) (line : Nat) (acc : List Snoop × Hub) : (snoopLine r line acc).2.tier = acc.2.tier := by
  have hsnoop (s : Snoop) (x : Hub) : (sendFrame (snoopFrame s r (allocTag x).2) (allocTag x).2).tier = x.tier :=
    (sendFrame_switch _ _).tier.trans (allocTag_tier x)
  simp only [snoopLine]
  split
  · rfl
  · split
    · split_ifs
      · rfl
      · split <;> exact hsnoop _ _
      · exact hsnoop _ _
      · exact poisonLine_tier line acc.2
    · split_ifs
      · exact foldl_snoops_tier _ (fun x k => hsnoop _ _) _ (acc.1, countSlice line 5 1 acc.2)
      · exact foldl_snoops_tier _ (fun x k => hsnoop _ _) _ (acc.1, countSlice line 5 1 acc.2)
      · rfl

theorem recallTile_tier (t : Nat) (discard : Bool) (h : Hub) : (recallTile t discard h).tier = h.tier := by
  have hsnoops (r : Req) (ls : List Nat) : (ls.foldl (fun acc l => snoopLine r l acc) ([], (newReq h).2)).2.tier = h.tier :=
    foldl_snoops_tier _ (fun x l => snoopLine_tier r l x) ls ([], (newReq h).2)
  unfold recallTile
  generalize tileLines t = lines
  dsimp only
  split
  · rfl
  · split
    · exact hsnoops _ _
    · exact hsnoops _ _

/-- R183: FREE of a tile that holds data. -/
theorem freeStart_tier (t : Nat) (h : Hub) : (freeStart t h).tier = (putTile t { getTile t h with st := .freeing } h).tier :=
  recallTile_tier ..

/-- R180: a demotion starts where a run is free for its image. -/
theorem demoteStart_of_run {bg : Bool} {next : TileNext} (hmap : h.ras.freeMapBad = false)
    (hrun : findRun (imageGranules (imageUnits t h)) h ≠ none) :
    demoteStart t bg next h =
      some (recallTile t false (putTile t { getTile t h with st := .demoting, background := bg, next := next } h)) := by
  have hfound : (findRun (imageGranules (imageUnits t h)) h).isNone = false :=
    Option.isNone_eq_false_iff.2 (Option.isSome_iff_ne_none.2 hrun)
  rw [demoteStart, hmap, hfound]
  rfl

/-- R179: a promotion starts where its class has room. -/
theorem promoteStart_of_room (hroom : usedOf (getTile t h).cls h < ceilingOf (getTile t h).cls h)
    (hslot : slotsUsed h < h.tier.slots) : promoteStart t h = some (renewTile t (putTile t { getTile t h with st := .promoting } h)) := by
  rw [promoteStart, takeSlot_of_room hroom hslot]
  rfl

/-- All but the poisoned halves is as it was. -/
structure PoisonOnly (a b : Hub) : Prop where
  tier : b.tier = a.tier
  mem : b.mem = a.mem
  regs : b.regs = a.regs
  boot : b.boot = a.boot

theorem foldl_addPoison_only (ls : List Nat) (h : Hub) : PoisonOnly h (ls.foldl (fun x l => addPoison (128 * l) 128 x) h) :=
  List.foldlRecOn ls _ (motive := PoisonOnly h) ⟨rfl, rfl, rfl, rfl⟩ fun _ hx _ _ => ⟨hx.tier, hx.mem, hx.regs, hx.boot⟩

/-- R173: a Clean tile that leaves its slot may spread its poison. -/
theorem widenPoison_only (t : Nat) (h : Hub) : PoisonOnly h (widenPoison t h) := foldl_addPoison_only _ h

theorem dropToLower_mem (t : Nat) (h : Hub) : (dropToLower t h).mem = h.mem := by
  have hkeeps := (widenPoison_only t h).mem
  unfold dropToLower
  generalize widenPoison t h = x at hkeeps ⊢
  exact (count_mem 0x90 2 1 _).trans hkeeps

/-- R183: an evicted tile is Lower, in no queue. -/
theorem dropToLower_tier (t : Nat) (h : Hub) :
    (getTile t (dropToLower t h)).st = .lower ∧ t ∉ (dropToLower t h).tier.ageQ ∧ (dropToLower t h).tier.cmds = h.tier.cmds := by
  have hkeeps := (widenPoison_only t h).tier
  unfold dropToLower
  generalize widenPoison t h = x at hkeeps ⊢
  have hcount (y : Hub) : (count 0x90 2 1 y).tier = y.tier := count_tier 0x90 2 1 y
  refine ⟨?_, ?_, ?_⟩
  · rw [getTile_of_tier (hcount _), getTile_leaveQueue, getTile_putTile_same]
  · rw [hcount]
    simp [leaveQueue]
  · rw [hcount, leaveQueue_cmds, putTile_cmds, hkeeps]

theorem dropToLower_enabled (t : Nat) (h : Hub) : enabled 0x90 (dropToLower t h) = enabled 0x90 h := by
  obtain ⟨-, -, hregs, hboot⟩ := widenPoison_only t h
  unfold dropToLower
  generalize widenPoison t h = x at hregs hboot ⊢
  refine enabled_of_reg ?_ ((count_boot ..).trans hboot)
  refine ((count_moves steady_moves 0x90 2 1 _ (by norm_num)).reg 0x90 0x10 (by unfold plainReg; norm_num)).trans ?_
  simp only [getReg, leaveQueue, putTile_regs, hregs]

/-! Sealing -/

/-- What writing a tile's modified lines back to its slot leaves as it was. -/
structure WrittenBack (a b : Hub) : Prop where
  tier : b.tier = a.tier
  mem : b.mem = a.mem
  poison : b.poison = a.poison
  devTime : b.devTime = a.devTime
  boot : b.boot = a.boot
  reg : ∀ page off, off < 0x800 → getReg page off b = getReg page off a

theorem WrittenBack.trans {a b c : Hub} (x : WrittenBack a b) (y : WrittenBack b c) : WrittenBack a c :=
  ⟨y.tier.trans x.tier, y.mem.trans x.mem, y.poison.trans x.poison, y.devTime.trans x.devTime, y.boot.trans x.boot,
    fun page off hoff => (y.reg page off hoff).trans (x.reg page off hoff)⟩

/-- A slice's counter is no register below the counters. -/
theorem getReg_countSlice (line : Nat) {slot : Nat} (n : Nat) (h : Hub) {page off : Nat} (hslot : slot < 256) (hoff : off < 0x800) :
    getReg page off (countSlice line slot n h) = getReg page off h := by
  unfold countSlice
  dsimp only
  split
  · rfl
  · refine (getReg_putReg page off (slicePage line) (0x800 + 8 * slot) _ h).trans (if_neg fun hkey => ?_)
    obtain ⟨-, hsame⟩ := regKey_inj (by omega) (by omega) hkey
    omega

theorem writeBackTile_keeps (t : Nat) (h : Hub) : WrittenBack h (writeBackTile t h) := by
  unfold writeBackTile
  generalize tileLines t = lines
  refine List.foldlRecOn lines _ (motive := WrittenBack h) ⟨rfl, rfl, rfl, rfl, rfl, fun _ _ _ => rfl⟩ fun x hx l _ => hx.trans ?_
  split
  · exact ⟨rfl, rfl, rfl, rfl, rfl, fun page off hoff => getReg_countSlice l 1 _ (by norm_num) hoff⟩
  · exact ⟨rfl, rfl, rfl, rfl, rfl, fun _ _ _ => rfl⟩

/-- R180: with no request at a home and no agent holding a line, a recall is over as it starts. -/
theorem recallTile_idle (hfilter : h.coh.filter = []) (htxs : h.coh.txs = []) (hwaiting : h.coh.waiting = []) (discard : Bool) :
    recallTile t discard h = (newReq h).2 := by
  have hnone : (tileLines t).filter (fun l => (getFilter l h).isSome) = [] := by simp [getFilter, hfilter, Tab.get?]
  have hbusy : (tileLines t).any (fun l => lineBusy l h) = false := by simp [lineBusy, htxs]
  simp only [recallTile, hbusy, hwaiting, waitsBehind, List.any_nil, Bool.or_self, Bool.false_eq_true, if_false, hnone, List.foldl_nil,
    if_true]

theorem not_recalling_idle (htxs : h.coh.txs = []) (hwaiting : h.coh.waiting = []) : recalling t h = false := by
  simp [recalling, htxs, hwaiting]

end Moves

/-! ### Tier commands (R193, R203) -/

/-- What the map says of the TIER page. -/
def tierPage : PageInfo := ⟨.tier, 0, 0, 11⟩

/-- The tier commands, each with its operation. -/
def tierCommands (r : Requester) (tenant cls : Nat) : List (Nat × Instr) :=
  [(1, .alloc r tenant cls), (2, .free r tenant cls), (3, .pin r tenant cls), (4, .unpin r tenant cls), (5, .promote r tenant cls),
   (6, .demote r tenant cls), (7, .evict r tenant cls), (8, .setclass r tenant cls), (9, .sealTiles r tenant cls),
   (10, .hdrRead r tenant cls)]

/-- TIER_CMD's fields read back from the command word. -/
theorem tierWord_fields {op tenant cls : Nat} (hop : op < 16) (ht : tenant < 4096) (hc : cls < 8) :
    tierWord op tenant cls < 2 ^ 32 ∧ nbits (tierWord op tenant cls) 3 0 = op ∧ nbits (tierWord op tenant cls) 10 8 = cls ∧
      nbits (tierWord op tenant cls) 31 20 = tenant := by
  simp only [tierWord, mkFld, nbits, Nat.shiftLeft_eq, Nat.shiftRight_eq_div_pow]
  norm_num
  omega

section Commands

variable {r : Requester} {op tenant cls : Nat} {s : State} {c : Instr} {h x : Hub}

/-- Every tier command is a write of TIER_CMD with its operation. -/
theorem tierCommand_write (hmem : (op, c) ∈ tierCommands r tenant cls) :
    1 ≤ op ∧ op ≤ 10 ∧ exec c s = regRow r 0x90 0x148 4 (tierWord op tenant cls) s := by
  simp only [tierCommands, List.mem_cons, Prod.mk.injEq, List.not_mem_nil, or_false] at hmem
  rcases hmem with ⟨rfl, rfl⟩ | ⟨rfl, rfl⟩ | ⟨rfl, rfl⟩ | ⟨rfl, rfl⟩ | ⟨rfl, rfl⟩ | ⟨rfl, rfl⟩ | ⟨rfl, rfl⟩ | ⟨rfl, rfl⟩ | ⟨rfl, rfl⟩ |
      ⟨rfl, rfl⟩ <;> exact ⟨by norm_num, by norm_num, rfl⟩

/-- R193: the command that a write of TIER_CMD makes of TIER_CMD_TILE and the word. -/
def tierCmdOf (op tenant cls : Nat) (h : Hub) : TierCmd :=
  { seq := (h.tier.issuedSeq + 1) % 65536, tile := fld (getReg 0x90 0x140 h) 28 0, count := fld (getReg 0x90 0x140 h) 63 48,
    op := op, cls := cls, tenant := tenant }

/-- A command `done` tiles on, its work begun or not, ended or not. -/
def headAs (q : TierCmd) (done : Nat) (started : Bool) (result : Option Nat) : TierCmd :=
  { q with done := done, started := started, result := result }

/-- The hub with its tier commands replaced. -/
def withCmds (l : List TierCmd) (h : Hub) : Hub := { h with tier := { h.tier with cmds := l } }

/-- The hub that has accepted a command as its only one. -/
def accepted (q : TierCmd) (h : Hub) : Hub := { h with tier := { h.tier with cmds := [q], issuedSeq := q.seq } }

@[simp] theorem getTile_withCmds (t : Nat) (l : List TierCmd) (h : Hub) : getTile t (withCmds l h) = getTile t h := rfl
@[simp] theorem getTile_accepted (t : Nat) (q : TierCmd) (h : Hub) : getTile t (accepted q h) = getTile t h := rfl
@[simp] theorem ageNow_accepted (q : TierCmd) (h : Hub) : ageNow (accepted q h) = ageNow h :=
  ageNow_of_reg (getReg_of_regs rfl 0x90 0x40) rfl
@[simp] theorem accepted_mem (q : TierCmd) (h : Hub) : (accepted q h).mem = h.mem := rfl
@[simp] theorem accepted_cmds (q : TierCmd) (h : Hub) : (accepted q h).tier.cmds = [q] := rfl

theorem tierCmdWrite_full (hfull : 16 ≤ h.tier.cmds.length) (v : Nat) : tierCmdWrite v h = raise 0x90 18 h := if_pos hfull

theorem tierCmdWrite_first (hop : op < 16) (ht : tenant < 4096) (hc : cls < 8) (hempty : h.tier.cmds = []) :
    tierCmdWrite (tierWord op tenant cls) h = tierRun (accepted (tierCmdOf op tenant cls h) h) := by
  obtain ⟨-, hop', hcls, hten⟩ := tierWord_fields hop ht hc
  simp only [tierCmdWrite, hempty, List.length_nil, hop', hcls, hten, List.nil_append, if_true]
  rfl

theorem tierCommand_answers (hmem : (op, c) ∈ tierCommands r tenant cls) (hadm : admits r 0x90 0x148 s = true) (ht : tenant < 4096)
    (hc : cls < 8) : AnswersHub c s (tierCmdWrite (tierWord op tenant cls)) := by
  obtain ⟨-, hop, hexec⟩ := tierCommand_write (s := s) hmem
  exact answersHub_write (p := tierPage) hexec hadm (by norm_num) rfl rfl rfl (by norm_num) (by norm_num) rfl
    (tierWord_fields (by omega) ht hc).1 rfl rfl

/-! The head of the queue, on its one tile -/

/-- A command for one tile that has not ended. -/
structure OneTile (q : TierCmd) : Prop where
  op : 1 ≤ q.op ∧ q.op ≤ 10
  tile : q.tile < 2 ^ 29
  count : q.count ≤ 1
  result : q.result = none

theorem putHead_one {q : TierCmd} (hq : x.tier.cmds = [q]) (q1 : TierCmd) : putHead q1 x = withCmds [q1] x := by
  simp only [putHead, hq, withCmds]

section Run

variable {q : TierCmd} (k : OneTile q) (hq : h.tier.cmds = [q]) (hen : enabled 0x90 h = true)

include k hq hen

theorem tierGo_head (fuel : Nat) : tierGo (fuel + 1) h =
    if 1 ≤ q.done then putHead { q with result := some resOk } h
    else
      match tierTile q (q.tile + q.done) h with
      | .done h1 => tierGo fuel (putHead { q with done := q.done + 1, started := false } h1)
      | .fail code h1 => putHead { q with result := some code } h1
      | .wait h1 => putHead { q with started := true } h1
      | .held => h := by
  obtain ⟨⟨hpos, hle⟩, htile, hcount, hresult⟩ := k
  have hmax : max 1 q.count = 1 := max_eq_left hcount
  have hop : ¬ (q.op = 0 ∨ 0xA < q.op) := by omega
  have hrange : ¬ 2 ^ 29 < q.tile + 1 := by omega
  simp only [tierGo, hq, hresult, hen, hop, hmax, hrange, tilesToDo, ite_self, Option.isSome_none, Bool.not_true, Bool.false_and,
    Bool.false_eq_true, if_false] <;> rfl

variable (hnew : q.done = 0)

include hnew

/-- The tile is done, and so is the command. -/
theorem tierRun_done (hstep : tierTile q q.tile h = .done x) (hq' : x.tier.cmds = [q]) (hen' : enabled 0x90 x = true) :
    tierRun h = withCmds [{ q with done := 1, started := false, result := some resOk }] x := by
  have hlater : OneTile { q with done := q.done + 1, started := false } := ⟨k.op, k.tile, k.count, k.result⟩
  have hdone : 1 ≤ q.done + 1 := Nat.le_add_left 1 q.done
  rw [tierRun, tierGo_head k hq hen 65539, if_neg (by omega), hnew, Nat.add_zero, hstep, ← hnew]
  dsimp only
  have hlast := tierGo_head (h := withCmds [{ q with done := q.done + 1, started := false }] x) hlater rfl hen' 65538
  rw [if_pos hdone, putHead_one (x := withCmds [{ q with done := q.done + 1, started := false }] x) rfl] at hlast
  rw [putHead_one hq']
  exact hlast.trans (by rw [hnew]; rfl)

theorem tierRun_fail {code : Nat} (hstep : tierTile q q.tile h = .fail code x) (hq' : x.tier.cmds = [q]) :
    tierRun h = withCmds [{ q with result := some code }] x := by
  rw [tierRun, tierGo_head k hq hen 65539, if_neg (by omega), hnew, Nat.add_zero, hstep, ← putHead_one hq']

/-- The tile's work has begun; its end is an event of its own. -/
theorem tierRun_wait (hstep : tierTile q q.tile h = .wait x) (hq' : x.tier.cmds = [q]) :
    tierRun h = withCmds [{ q with started := true }] x := by
  rw [tierRun, tierGo_head k hq hen 65539, if_neg (by omega), hnew, Nat.add_zero, hstep, ← putHead_one hq']

end Run

theorem fld_lt (w : Word) (hi lo : Nat) : fld w hi lo < 2 ^ (hi + 1 - lo) := Nat.mod_lt _ (by positivity)

/-- The command as it stands in the queue. -/
abbrev cmdAt (op tenant cls : Nat) (s : State) : TierCmd := tierCmdOf op tenant cls s.hub

/-- The hub in which the command meets its tile. -/
abbrev met (op tenant cls : Nat) (s : State) : Hub := accepted (cmdAt op tenant cls s) s.hub

/-- A tier command that is written while the Tier Manager is enabled, its queue empty and its range one tile. -/
structure Aimed (r : Requester) (op tenant cls : Nat) (c : Instr) (s : State) : Prop where
  command : (op, c) ∈ tierCommands r tenant cls
  admitted : admits r 0x90 0x148 s = true
  tenant : tenant < 4096
  cls : cls < 8
  on : enabled 0x90 s.hub = true
  empty : s.hub.tier.cmds = []
  one : fld (getReg 0x90 0x140 s.hub) 63 48 ≤ 1

section One

variable (k : Aimed r op tenant cls c s)

include k

theorem Aimed.runs : AnswersHub c s (fun _ => tierRun (met op tenant cls s)) := by
  obtain ⟨-, hle, -⟩ := tierCommand_write (s := s) k.command
  exact answersHub_congr (tierCommand_answers k.command k.admitted k.tenant k.cls)
    (tierCmdWrite_first (by omega) k.tenant k.cls k.empty)

theorem Aimed.oneTile : OneTile (cmdAt op tenant cls s) := by
  obtain ⟨hpos, hle, -⟩ := tierCommand_write (s := s) k.command
  exact ⟨⟨hpos, hle⟩, fld_lt _ 28 0, k.one, rfl⟩

theorem Aimed.metOn : enabled 0x90 (met op tenant cls s) = true := k.on

theorem Aimed.done (hstep : tierTile (cmdAt op tenant cls s) (cmdAt op tenant cls s).tile (met op tenant cls s) = .done x)
    (hq : x.tier.cmds = [cmdAt op tenant cls s]) (hon : enabled 0x90 x = true) :
    AnswersHub c s (fun _ => withCmds [headAs (cmdAt op tenant cls s) 1 false (some 0)] x) := by
  have hrun := tierRun_done k.oneTile (h := met op tenant cls s) rfl k.metOn rfl hstep hq hon
  exact answersHub_congr k.runs hrun

theorem Aimed.fails {code : Nat}
    (hstep : tierTile (cmdAt op tenant cls s) (cmdAt op tenant cls s).tile (met op tenant cls s) = .fail code x)
    (hq : x.tier.cmds = [cmdAt op tenant cls s]) :
    AnswersHub c s (fun _ => withCmds [headAs (cmdAt op tenant cls s) 0 false (some code)] x) := by
  have hrun := tierRun_fail k.oneTile (h := met op tenant cls s) rfl k.metOn rfl hstep hq
  exact answersHub_congr k.runs hrun

theorem Aimed.waits (hstep : tierTile (cmdAt op tenant cls s) (cmdAt op tenant cls s).tile (met op tenant cls s) = .wait x)
    (hq : x.tier.cmds = [cmdAt op tenant cls s]) :
    AnswersHub c s (fun _ => withCmds [headAs (cmdAt op tenant cls s) 0 true none] x) := by
  have hrun := tierRun_wait k.oneTile (h := met op tenant cls s) rfl k.metOn rfl hstep hq
  exact answersHub_congr k.runs hrun

end One

/-- The hub in which the command has ended, `done` tiles on. -/
abbrev ended (q : TierCmd) (done result : Nat) (h : Hub) : Hub :=
  withCmds [headAs q done false (some result)] (accepted q h)

/-- What the other member of a pair hears says nothing of tiles, commands and memory. -/
theorem hubAnswers_of_withCmds {l : List TierCmd} {P : Hub → Prop} (hans : AnswersHub c s (fun _ => withCmds l x))
    (hP : ∀ y, y.tier = (withCmds l x).tier → SameMemory x y → P y) : HubAnswers c s P :=
  hubAnswers_of_sent hans rfl fun y hsent =>
    have hswitch := sent_moves switch_moves hsent
    hP y hswitch.tier ⟨hswitch.mem, hswitch.poison⟩

/-! What a command does on its tile -/

section Tile

variable {q : TierCmd} {t : Nat}

/-- R193: the states in which ALLOC, PROMOTE and DEMOTE have nothing to do. -/
def idleStates (op : Nat) : List TileState :=
  if op = 1 then [.upper, .clean, .lower, .promoting, .demoting]
  else if op = 5 then [.free, .upper, .clean, .demoting, .freeing, .void]
  else if op = 6 then [.free, .clean, .lower, .promoting, .freeing, .void]
  else []

theorem tierTile_idle (hst : (getTile t h).st ∈ idleStates q.op) : tierTile q t h = .done h := by
  unfold idleStates at hst
  split_ifs at hst with h1 h5 h6
  · simp only [List.mem_cons, List.not_mem_nil, or_false] at hst
    rcases hst with hst | hst | hst | hst | hst <;> simp [tierTile, h1, hst]
  · simp only [List.mem_cons, List.not_mem_nil, or_false] at hst
    rcases hst with hst | hst | hst | hst | hst | hst <;> simp [tierTile, h5, hst]
  · simp only [List.mem_cons, List.not_mem_nil, or_false] at hst
    rcases hst with hst | hst | hst | hst | hst | hst <;> simp [tierTile, h6, hst]
  · exact absurd hst List.not_mem_nil

theorem tierTile_alloc (hop : q.op = 1) (hst : (getTile t h).st = .free) (hroom : usedOf q.cls h < ceilingOf q.cls h)
    (hslot : slotsUsed h < h.tier.slots) : tierTile q t h = .done (allocated t q.cls q.tenant (freeFinish t h)) := by
  simp [tierTile, hop, hst, allocFresh_of_room hroom hslot]

theorem tierTile_free_pinned (hop : q.op = 2) (hpins : 0 < (getTile t h).pins) : tierTile q t h = .fail resPinned h := by
  simp [tierTile, hop, hpins]

theorem tierTile_free_free (hop : q.op = 2) (hpins : (getTile t h).pins = 0) (hst : (getTile t h).st = .free) :
    tierTile q t h = .done h := by
  simp [tierTile, hop, hpins, hst]

theorem tierTile_free_starts (hop : q.op = 2) (hpins : (getTile t h).pins = 0) (hst : (getTile t h).st ∈ [.upper, .clean, .lower]) :
    tierTile q t h = .wait (freeStart t h) := by
  simp only [List.mem_cons, List.not_mem_nil, or_false] at hst
  rcases hst with hst | hst | hst <;> simp [tierTile, hop, hpins, hst]

theorem tierTile_pin (hop : q.op = 3) (hst : (getTile t h).st ∈ [.upper, .clean, .demoting]) (hpins : (getTile t h).pins < 255)
    (hlock : lockRefused t h = false) : tierTile q t h = .done (pinTile t h) := by
  have hpins' : (getTile t h).pins ≠ 255 := hpins.ne
  simp only [List.mem_cons, List.not_mem_nil, or_false] at hst
  rcases hst with hst | hst | hst <;> simp [tierTile, hop, hpins', hlock, hst]

theorem tierTile_pin_unallocated (hop : q.op = 3) (hst : (getTile t h).st ∈ [.free, .void]) :
    tierTile q t h = .fail resNotAllocated h := by
  simp only [List.mem_cons, List.not_mem_nil, or_false] at hst
  rcases hst with hst | hst <;> simp [tierTile, hop, hst]

theorem tierTile_unpin_idle (hop : q.op = 4) (hpins : (getTile t h).pins = 0) : tierTile q t h = .done h := by
  simp [tierTile, hop, hpins]

theorem tierTile_unpin (hop : q.op = 4) (hpins : (getTile t h).pins ≠ 0) : tierTile q t h = .done (unpinTile t h) := by
  simp [tierTile, hop, hpins]

theorem tierTile_promote (hop : q.op = 5) (hst : (getTile t h).st = .lower)
    (hroom : usedOf (getTile t h).cls h < ceilingOf (getTile t h).cls h) (hslot : slotsUsed h < h.tier.slots) :
    tierTile q t h = .wait (renewTile t (putTile t { getTile t h with st := .promoting } h)) := by
  simp [tierTile, hop, hst, promoteStart_of_room hroom hslot]

theorem tierTile_demote (hop : q.op = 6) (hnew : q.started = false) (hst : (getTile t h).st = .upper)
    (hmap : h.ras.freeMapBad = false) (hrun : findRun (imageGranules (imageUnits t h)) h ≠ none) :
    tierTile q t h =
      .wait (recallTile t false (putTile t { getTile t h with st := .demoting, background := false, next := .stay } h)) := by
  simp [tierTile, hop, hnew, hst, demoteStart_of_run hmap hrun]

theorem tierTile_evict_pinned (hop : q.op = 7) (hpins : 0 < (getTile t h).pins) : tierTile q t h = .fail resPinned h := by
  simp [tierTile, hop, hpins]

theorem tierTile_evict (hop : q.op = 7) (hst : (getTile t h).st = .clean) (hpins : (getTile t h).pins = 0)
    (hholds : (getTile t h).holds = 0) : tierTile q t h = .done (dropToLower t h) := by
  simp [tierTile, hop, hst, hpins, hholds]

theorem tierTile_setclass_lower (hop : q.op = 8) (hst : (getTile t h).st = .lower) :
    tierTile q t h = .done (putTile t { getTile t h with cls := q.cls } h) := by
  simp [tierTile, hop, hst]

theorem tierTile_setclass_slot (hop : q.op = 8) (hst : (getTile t h).st ∈ [.upper, .clean, .promoting, .demoting]) :
    tierTile q t h = .done (renewTile t (putTile t { getTile t h with cls := q.cls } h)) := by
  simp only [List.mem_cons, List.not_mem_nil, or_false] at hst
  rcases hst with hst | hst | hst | hst <;> simp [tierTile, hop, hst]

theorem tierTile_seal_idle (hop : q.op = 9) (hst : ¬((getTile t h).st = .upper ∧ (getTile t h).sealed = 0)) :
    tierTile q t h = .done h := by
  simp [tierTile, hop, hst]

theorem tierTile_seal (hop : q.op = 9) (hnew : q.started = false) (hst : (getTile t h).st = .upper) (hopen : (getTile t h).sealed = 0)
    (hfilter : h.coh.filter = []) (htxs : h.coh.txs = []) (hwaiting : h.coh.waiting = []) :
    tierTile q t h = .done (sealTile t (writeBackTile t (newReq h).2)) := by
  have hidle : recalling t (newReq h).2 = false := not_recalling_idle htxs hwaiting
  simp [tierTile, hop, hnew, hst, hopen, recallTile_idle hfilter htxs hwaiting, hidle]

/-- R204: the header as TIER_HDR shows it. -/
def headerShown (t : Nat) (h : Hub) : Hub :=
  { h with tier := { h.tier with hdr := (List.range 16).map (fun j => w64 (leAt (headerOfTile t (getTile t h)) (8 * j) 8)) } }

theorem tierTile_hdrRead (hop : q.op = 10) (hst : (getTile t h).st ∉ [.free, .void]) : tierTile q t h = .done (headerShown t h) := by
  simp only [List.mem_cons, List.not_mem_nil, or_false, not_or] at hst
  obtain ⟨hfree, hvoid⟩ := hst
  simp only [tierTile, hop]
  cases hst : (getTile t h).st <;> simp_all [headerShown]

end Tile

/-! The commands -/

section Effects

theorem tierCommand_overflows (hcmd : ∃ op, (op, c) ∈ tierCommands r tenant cls) (hadm : admits r 0x90 0x148 s = true)
    (ht : tenant < 4096) (hc : cls < 8) (hfull : 16 ≤ s.hub.tier.cmds.length) :
    HubAnswers c s (fun h => regBit 0x90 0x18 18 h = true ∧ h.tier = s.hub.tier ∧ SameMemory s.hub h) := by
  obtain ⟨op, hmem⟩ := hcmd
  refine hubAnswers_of_sent (tierCommand_answers hmem hadm ht hc) (tierCmdWrite_full hfull _) fun y hsent => ?_
  have hswitch := (raise_switch 0x90 18 s.hub).trans (sent_moves switch_moves hsent)
  exact ⟨(sent_moves steady_moves hsent).err 0x90 18 (raise_sets 0x90 18 (by norm_num) s.hub), hswitch.tier,
    sameMemory_of_switch hswitch⟩

/-- A command with nothing to do on its tile ends OK and changes nothing else. -/
theorem Aimed.idle (k : Aimed r op tenant cls c s)
    (hstep : tierTile (cmdAt op tenant cls s) (cmdAt op tenant cls s).tile (met op tenant cls s) = .done (met op tenant cls s)) :
    AnswersHub c s (ended (cmdAt op tenant cls s) 1 0) :=
  answersHub_congr (k.done hstep rfl k.metOn) rfl

/-- A command refused on its tile ends with the code and changes nothing else. -/
theorem Aimed.refused (k : Aimed r op tenant cls c s) {code : Nat}
    (hstep : tierTile (cmdAt op tenant cls s) (cmdAt op tenant cls s).tile (met op tenant cls s) = .fail code (met op tenant cls s)) :
    AnswersHub c s (ended (cmdAt op tenant cls s) 0 code) :=
  answersHub_congr (k.fails hstep rfl) rfl

theorem withCmds_putTile (l : List TierCmd) (t : Nat) (v : Tile) (h : Hub) :
    withCmds l (putTile t v h) = putTile t v (withCmds l h) := rfl

/-- A command that only writes its tile's entry. -/
theorem Aimed.puts (k : Aimed r op tenant cls c s) {v : Tile}
    (hstep : tierTile (cmdAt op tenant cls s) (cmdAt op tenant cls s).tile (met op tenant cls s) =
      .done (putTile (cmdAt op tenant cls s).tile v (met op tenant cls s))) :
    AnswersHub c s (fun h => putTile (cmdAt op tenant cls s).tile v (ended (cmdAt op tenant cls s) 1 0 h)) :=
  answersHub_congr (k.done hstep rfl ((enabled_putTile ..).trans k.metOn)) (withCmds_putTile ..)

theorem alloc_allocates (k : Aimed r 1 tenant cls c s) {t : Nat} (ht : t = (cmdAt 1 tenant cls s).tile) (hst : (getTile t s.hub).st = .free)
    (hroom : usedOf cls s.hub < ceilingOf cls s.hub) (hslot : slotsUsed s.hub < s.hub.tier.slots) :
    HubAnswers c s (fun h => h.tier.cmds = [headAs (cmdAt 1 tenant cls s) 1 false (some 0)] ∧
      getTile t h = { st := .upper, cls := cls, owner := tenant, stamp := ageNow s.hub } ∧
      ∀ j < 65536, memGet h.mem (65536 * t + j) = 0) := by
  subst ht
  have hon : enabled 0x90 (freeFinish (cmdAt 1 tenant cls s).tile (met 1 tenant cls s)) = true :=
    (enabled_freeFinish ..).trans k.metOn
  have hans := k.done (tierTile_alloc rfl hst hroom hslot) (by simp [accepted]) ((enabled_allocated ..).trans hon)
  refine hubAnswers_of_withCmds hans fun y hy hsame => ?_
  refine ⟨congrArg Tier.cmds hy, ?_, fun j hj => ?_⟩
  · rw [getTile_of_tier hy, getTile_withCmds, getTile_allocated, ageNow_freeFinish, ageNow_accepted]
    rfl
  · rw [hsame.1, allocated_mem, memGet_freeFinish, if_pos]
    unfold tileOf
    omega

theorem free_starts (k : Aimed r 2 tenant cls c s) {t : Nat} (ht : t = (cmdAt 2 tenant cls s).tile) (hpins : (getTile t s.hub).pins = 0)
    (hst : (getTile t s.hub).st ∈ [.upper, .clean, .lower]) :
    HubAnswers c s (fun h => getTile t h = { getTile t s.hub with st := .freeing } ∧
      h.tier.cmds = [headAs (cmdAt 2 tenant cls s) 0 true none]) := by
  subst ht
  have htier := freeStart_tier (cmdAt 2 tenant cls s).tile (met 2 tenant cls s)
  have hans := k.waits (tierTile_free_starts rfl hpins hst) (by rw [htier, putTile_cmds, accepted_cmds])
  refine hubAnswers_of_withCmds hans fun y hy _ => ⟨?_, congrArg Tier.cmds hy⟩
  rw [getTile_of_tier hy, getTile_withCmds, getTile_of_tier htier, getTile_putTile_same, getTile_accepted]

theorem promote_starts (k : Aimed r 5 tenant cls c s) {t : Nat} (ht : t = (cmdAt 5 tenant cls s).tile)
    (hst : (getTile t s.hub).st = .lower) (hroom : usedOf (getTile t s.hub).cls s.hub < ceilingOf (getTile t s.hub).cls s.hub)
    (hslot : slotsUsed s.hub < s.hub.tier.slots) :
    HubAnswers c s (fun h => getTile t h = { getTile t s.hub with st := .promoting, stamp := ageNow s.hub } ∧
      h.tier.cmds = [headAs (cmdAt 5 tenant cls s) 0 true none] ∧ SameMemory s.hub h) := by
  subst ht
  have hans := k.waits (tierTile_promote rfl hst hroom hslot) (by rw [renewTile_cmds, putTile_cmds, accepted_cmds])
  refine hubAnswers_of_withCmds hans fun y hy hsame => ⟨?_, congrArg Tier.cmds hy, ?_⟩
  · rw [getTile_of_tier hy, getTile_withCmds, getTile_renewTile, getTile_putTile_same, ageNow_putTile, ageNow_accepted,
      getTile_accepted]
  · exact ⟨hsame.1.trans (renewTile_mem ..), hsame.2.trans (renewTile_poison ..)⟩

theorem demote_starts (k : Aimed r 6 tenant cls c s) {t : Nat} (ht : t = (cmdAt 6 tenant cls s).tile)
    (hst : (getTile t s.hub).st = .upper) (hmap : s.hub.ras.freeMapBad = false)
    (hrun : findRun (imageGranules (imageUnits t s.hub)) s.hub ≠ none) :
    HubAnswers c s (fun h => (getTile t h).st = .demoting ∧ h.tier.cmds = [headAs (cmdAt 6 tenant cls s) 0 true none]) := by
  subst ht
  have hstep := tierTile_demote (q := cmdAt 6 tenant cls s) (h := met 6 tenant cls s) rfl rfl hst hmap hrun
  have htier := recallTile_tier (cmdAt 6 tenant cls s).tile false (putTile (cmdAt 6 tenant cls s).tile
    { getTile (cmdAt 6 tenant cls s).tile (met 6 tenant cls s) with st := .demoting, background := false, next := .stay }
    (met 6 tenant cls s))
  have hans := k.waits hstep (by rw [htier, putTile_cmds, accepted_cmds])
  refine hubAnswers_of_withCmds hans fun y hy _ => ⟨?_, congrArg Tier.cmds hy⟩
  rw [getTile_of_tier hy, getTile_withCmds, getTile_of_tier htier, getTile_putTile_same]

theorem evict_evicts (k : Aimed r 7 tenant cls c s) {t : Nat} (ht : t = (cmdAt 7 tenant cls s).tile)
    (hst : (getTile t s.hub).st = .clean) (hpins : (getTile t s.hub).pins = 0) (hholds : (getTile t s.hub).holds = 0) :
    HubAnswers c s (fun h => (getTile t h).st = .lower ∧ t ∉ h.tier.ageQ ∧
      h.tier.cmds = [headAs (cmdAt 7 tenant cls s) 1 false (some 0)] ∧ h.mem = s.hub.mem) := by
  subst ht
  obtain ⟨hlower, hqueue, hcmds⟩ := dropToLower_tier (cmdAt 7 tenant cls s).tile (met 7 tenant cls s)
  have hans := k.done (tierTile_evict rfl hst hpins hholds) hcmds ((dropToLower_enabled ..).trans k.metOn)
  refine hubAnswers_of_withCmds hans fun y hy hsame => ⟨?_, ?_, congrArg Tier.cmds hy, hsame.1.trans (dropToLower_mem ..)⟩
  · rwa [getTile_of_tier hy, getTile_withCmds]
  · rwa [hy]

theorem setclass_renews (k : Aimed r 8 tenant cls c s) {t : Nat} (ht : t = (cmdAt 8 tenant cls s).tile)
    (hst : (getTile t s.hub).st ∈ [.upper, .clean, .promoting, .demoting]) :
    HubAnswers c s (fun h => getTile t h = { getTile t s.hub with cls := cls, stamp := ageNow s.hub } ∧
      h.tier.cmds = [headAs (cmdAt 8 tenant cls s) 1 false (some 0)] ∧ SameMemory s.hub h) := by
  subst ht
  have hans := k.done (tierTile_setclass_slot rfl hst) (by rw [renewTile_cmds, putTile_cmds, accepted_cmds])
    ((enabled_renewTile ..).trans ((enabled_putTile ..).trans k.metOn))
  refine hubAnswers_of_withCmds hans fun y hy hsame => ⟨?_, congrArg Tier.cmds hy, ?_⟩
  · rw [getTile_of_tier hy, getTile_withCmds, getTile_renewTile, getTile_putTile_same, ageNow_putTile, ageNow_accepted,
      getTile_accepted]
    rfl
  · exact ⟨hsame.1.trans (renewTile_mem ..), hsame.2.trans (renewTile_poison ..)⟩

/-- R171: what a sealed tile's entry says. -/
theorem getTile_sealTile (t : Nat) (h : Hub) :
    (getTile t (sealTile t h)).sealed = 2 ∧ (getTile t (sealTile t h)).bsel = bselOf t h ∧
      (getTile t (sealTile t h)).sealTime = h.devTime % 2 ^ 48 := by
  rw [sealTile, getTile_putTile_same]
  exact ⟨rfl, rfl, rfl⟩

theorem bselOf_of_mem {a b : Hub} (hmem : b.mem = a.mem) (t : Nat) : bselOf t b = bselOf t a := by
  simp only [bselOf, blockBytes, hmem]

theorem seal_seals (k : Aimed r 9 tenant cls c s) {t : Nat} (ht : t = (cmdAt 9 tenant cls s).tile)
    (hst : (getTile t s.hub).st = .upper) (hopen : (getTile t s.hub).sealed = 0)
    (hfilter : s.hub.coh.filter = []) (htxs : s.hub.coh.txs = []) (hwaiting : s.hub.coh.waiting = []) :
    HubAnswers c s (fun h => (getTile t h).sealed = 2 ∧ (getTile t h).bsel = bselOf t s.hub ∧
      (getTile t h).sealTime = s.hub.devTime % 2 ^ 48 ∧ h.tier.cmds = [headAs (cmdAt 9 tenant cls s) 1 false (some 0)] ∧
      SameMemory s.hub h) := by
  subst ht
  have hkeeps := writeBackTile_keeps (cmdAt 9 tenant cls s).tile (newReq (met 9 tenant cls s)).2
  have hstep := tierTile_seal (q := cmdAt 9 tenant cls s) (h := met 9 tenant cls s) rfl rfl hst hopen hfilter htxs hwaiting
  generalize writeBackTile (cmdAt 9 tenant cls s).tile (newReq (met 9 tenant cls s)).2 = x at hkeeps hstep
  have hcmds : x.tier.cmds = [cmdAt 9 tenant cls s] := congrArg Tier.cmds hkeeps.tier
  have hon : enabled 0x90 x = true := (enabled_of_reg (hkeeps.reg 0x90 0x10 (by norm_num)) hkeeps.boot).trans k.metOn
  obtain ⟨hsealed, hbsel, htime⟩ := getTile_sealTile (cmdAt 9 tenant cls s).tile x
  have hans := k.done hstep hcmds ((enabled_putTile ..).trans hon)
  refine hubAnswers_of_withCmds hans fun y hy hsame => ?_
  rw [getTile_of_tier hy, getTile_withCmds]
  exact ⟨hsealed, hbsel.trans (bselOf_of_mem hkeeps.mem _), htime.trans (congrArg (· % 2 ^ 48) hkeeps.devTime),
    congrArg Tier.cmds hy, hsame.1.trans hkeeps.mem, hsame.2.trans hkeeps.poison⟩

end Effects

end Commands

/-- Settles O19, a lemma for each command and its outcome. -/
theorem tierCommandsAct : Obligations.TierCommandsAct := by
  intro r tenant cls s hadm ht hc
  refine ⟨fun hfull c hmem => ?_, fun hen hempty hone => ?_⟩
  · simp only [List.mem_cons, List.not_mem_nil, or_false] at hmem
    refine tierCommand_overflows ?_ hadm ht hc hfull
    rcases hmem with rfl | rfl | rfl | rfl | rfl | rfl | rfl | rfl | rfl | rfl <;> simp [tierCommands]
  have aimed {op : Nat} {c : Instr} (hmem : (op, c) ∈ tierCommands r tenant cls) : Aimed r op tenant cls c s :=
    ⟨hmem, hadm, ht, hc, hen, hempty, hone⟩
  have kalloc : Aimed r 1 tenant cls (.alloc r tenant cls) s := aimed (by simp [tierCommands])
  have kfree : Aimed r 2 tenant cls (.free r tenant cls) s := aimed (by simp [tierCommands])
  have kpin : Aimed r 3 tenant cls (.pin r tenant cls) s := aimed (by simp [tierCommands])
  have kunpin : Aimed r 4 tenant cls (.unpin r tenant cls) s := aimed (by simp [tierCommands])
  have kpromote : Aimed r 5 tenant cls (.promote r tenant cls) s := aimed (by simp [tierCommands])
  have kdemote : Aimed r 6 tenant cls (.demote r tenant cls) s := aimed (by simp [tierCommands])
  have kevict : Aimed r 7 tenant cls (.evict r tenant cls) s := aimed (by simp [tierCommands])
  have ksetclass : Aimed r 8 tenant cls (.setclass r tenant cls) s := aimed (by simp [tierCommands])
  have kseal : Aimed r 9 tenant cls (.sealTiles r tenant cls) s := aimed (by simp [tierCommands])
  have khdr : Aimed r 10 tenant cls (.hdrRead r tenant cls) s := aimed (by simp [tierCommands])
  refine ⟨fun hst => kalloc.idle (tierTile_idle hst), fun hst hroom => alloc_allocates kalloc rfl hst hroom.1 hroom.2,
    fun hpins => kfree.refused (tierTile_free_pinned rfl hpins), fun hpins hst => kfree.idle (tierTile_free_free rfl hpins hst),
    fun hpins hst => free_starts kfree rfl hpins hst, fun hst hpins hlock => kpin.puts (tierTile_pin rfl hst hpins hlock),
    fun hst => kpin.refused (tierTile_pin_unallocated rfl hst), ?_, fun hst => kpromote.idle (tierTile_idle hst),
    fun hst hroom => promote_starts kpromote rfl hst hroom.1 hroom.2, fun hst => kdemote.idle (tierTile_idle hst),
    fun hst hmap hrun => demote_starts kdemote rfl hst hmap hrun, fun hpins => kevict.refused (tierTile_evict_pinned rfl hpins),
    fun hst hpins hholds => evict_evicts kevict rfl hst hpins hholds, fun hst => ksetclass.puts (tierTile_setclass_lower rfl hst),
    fun hst => setclass_renews ksetclass rfl hst, fun hst => kseal.idle (tierTile_seal_idle rfl hst),
    fun hst hopen hfilter htxs hwaiting => seal_seals kseal rfl hst hopen hfilter htxs hwaiting,
    fun hst => answersHub_congr (khdr.done (tierTile_hdrRead rfl hst) rfl khdr.metOn) rfl⟩
  by_cases hpins : (getTile (cmdAt 4 tenant cls s).tile s.hub).pins = 0
  · exact answersHub_congr (kunpin.idle (tierTile_unpin_idle rfl hpins)) (if_pos hpins).symm
  · exact answersHub_congr (kunpin.puts (tierTile_unpin rfl hpins)) (if_neg hpins).symm

end Sys2Proof.Proofs

/-!
PROOFS. What reading page tables (R136, R176), translating a request (R132 to R147) and metering leave as it was, where no injected
error is pending.
-/
namespace Sys2Proof.Proofs

open Machine Safety Laws

/-! ### What no read or translation changes -/

/-- No injected error is pending, and the pair, the shapers, the tile writes under way, the device time and the registers that hold no
errors and no counts are as they were. -/
structure Undisturbed (a b : Hub) : Prop where
  quiet : b.ras.injection = none
  twin : b.twin = a.twin
  shapers : b.shapers = a.shapers
  assemblies : b.assemblies = a.assemblies
  devTime : b.devTime = a.devTime
  reg : ∀ page off, plainReg off → getReg page off b = getReg page off a

/-- From a hub with no injected error pending. -/
def Calm (a b : Hub) : Prop := a.ras.injection = none → Undisturbed a b

theorem calm_of_parts {a b : Hub} (hinj : b.ras.injection = a.ras.injection) (htwin : b.twin = a.twin) (hshapers : b.shapers = a.shapers)
    (hasm : b.assemblies = a.assemblies) (htime : b.devTime = a.devTime)
    (hreg : ∀ page off, plainReg off → getReg page off b = getReg page off a) : Calm a b :=
  fun hquiet => ⟨hinj.trans hquiet, htwin, hshapers, hasm, htime, hreg⟩

theorem Calm.refl (h : Hub) : Calm h h := calm_of_parts rfl rfl rfl rfl rfl fun _ _ _ => rfl

theorem Calm.trans {a b c : Hub} (x : Calm a b) (y : Calm b c) : Calm a c := fun hquiet =>
  have u := x hquiet
  have w := y u.quiet
  ⟨w.quiet, w.twin.trans u.twin, w.shapers.trans u.shapers, w.assemblies.trans u.assemblies, w.devTime.trans u.devTime,
    fun page off hplain => (w.reg page off hplain).trans (u.reg page off hplain)⟩

theorem Calm.ite {a b c : Hub} {p : Prop} [Decidable p] (x : Calm a b) (y : Calm a c) : Calm a (if p then b else c) := by
  split <;> assumption

theorem calm_moves : Moves Calm where
  refl := Calm.refl
  trans := Calm.trans
  slot p s v h k := calm_of_parts rfl rfl rfl rfl rfl (steady_moves.slot p s v h k).reg
  err p b h := calm_of_parts rfl rfl rfl rfl rfl (steady_moves.err p b h).reg
  first p v h := calm_of_parts rfl rfl rfl rfl rfl (steady_moves.first p v h).reg
  port _ _ _ _ := calm_of_parts rfl rfl rfl rfl rfl fun _ _ _ => rfl
  emit _ _ := calm_of_parts rfl rfl rfl rfl rfl fun _ _ _ => rfl
  kib _ _ := calm_of_parts rfl rfl rfl rfl rfl fun _ _ _ => rfl
  mirror _ _ := calm_of_parts rfl rfl rfl rfl rfl fun _ _ _ => rfl
  egress _ _ := calm_of_parts rfl rfl rfl rfl rfl fun _ _ _ => rfl
  armoire _ _ := calm_of_parts rfl rfl rfl rfl rfl fun _ _ _ => rfl
  spent _ := fun _ => ⟨rfl, rfl, rfl, rfl, rfl, fun _ _ _ => rfl⟩

/-- Operations that are calm one by one are calm in a row. -/
theorem foldl_calm {α : Type} (f : Hub → α → Hub) (hf : ∀ x a, Calm x (f x a)) (l : List α) (h : Hub) : Calm h (l.foldl f h) :=
  List.foldlRecOn l f (motive := Calm h) (Calm.refl h) fun x hx a _ => hx.trans (hf x a)

section Calm

variable (h : Hub)

theorem count_calm (page slot n : Nat) (hslot : slot < 256) : Calm h (count page slot n h) := count_moves calm_moves page slot n h hslot
theorem raise_calm (page bit : Nat) : Calm h (raise page bit h) := raise_moves calm_moves page bit h

/-! Meters and notes -/

theorem meterAdd_calm (tenant i n : Nat) : Calm h (meterAdd tenant i n h) := by
  unfold meterAdd
  refine Calm.ite (Calm.refl h) (Calm.ite ?_ (calm_of_parts rfl rfl rfl rfl rfl fun _ _ _ => rfl))
  refine Calm.trans ?_ ((raiseQuiet_moves calm_moves _ _ _).trans (armoireAppend_moves calm_moves _ _ _))
  exact calm_of_parts rfl rfl rfl rfl rfl fun _ _ _ => rfl

theorem histAdd_calm (kind loc : Nat) (ue : Bool) : Calm h (histAdd kind loc ue h) := by
  unfold histAdd
  refine Calm.ite (Calm.refl h) (Calm.ite (calm_of_parts rfl rfl rfl rfl rfl fun _ _ _ => rfl) ?_)
  split
  · exact calm_of_parts rfl rfl rfl rfl rfl fun _ _ _ => rfl
  · exact raise_calm h _ _

theorem selvedgeNote_calm (n : Nat) : Calm h (selvedgeNote n h) := by
  unfold selvedgeNote
  refine Calm.ite (Calm.refl h) (Calm.trans ?_ (count_calm _ _ _ _ (by norm_num)))
  have hloc : Calm h (freshLoc h).2 := calm_of_parts rfl rfl rfl rfl rfl fun _ _ _ => rfl
  exact hloc.trans (foldl_calm _ (fun x _ => histAdd_calm x _ _ _) _ _)

theorem selvedgeError_calm (n : Nat) : Calm h (selvedgeError n h) :=
  Calm.ite (Calm.refl h) (((raise_calm h _ _).trans (count_calm _ _ _ _ (by norm_num))).trans (selvedgeNote_calm _ _))

/-! Lines -/

theorem freshBytes_calm (n : Nat) : Calm h (freshBytes n h).2 := by
  induction n generalizing h with
  | zero => exact Calm.refl h
  | succ n ih => exact Calm.trans (b := (fresh h).2) (calm_of_parts rfl rfl rfl rfl rfl fun _ _ _ => rfl) (ih _)

theorem countSlice_calm (line slot n : Nat) (hslot : slot < 256) : Calm h (countSlice line slot n h) :=
  calm_of_parts rfl rfl rfl rfl rfl fun _ _ hplain => getReg_countSlice line n h hslot hplain.1

theorem addPoison_calm (a n : Nat) : Calm h (addPoison a n h) := calm_of_parts rfl rfl rfl rfl rfl fun _ _ _ => rfl
theorem putTile_calm (t : Nat) (v : Tile) : Calm h (putTile t v h) := calm_of_parts rfl rfl rfl rfl rfl fun _ _ _ => rfl

theorem fillT0_calm (line : Nat) : Calm h (fillT0 line h) := by
  unfold fillT0
  split
  · exact Calm.refl h
  · exact calm_of_parts rfl rfl rfl rfl rfl fun _ _ _ => rfl

theorem poisonLine_calm (line : Nat) : Calm h (poisonLine line h) := by
  have hdropped : Calm h (dropT0 line (addPoison (128 * line) 128 h)) := calm_of_parts rfl rfl rfl rfl rfl fun _ _ _ => rfl
  unfold poisonLine
  extract_lets h1
  refine Calm.trans ?_ (count_calm _ 0x60 1 1 (by norm_num))
  exact hdropped.trans (calm_of_parts rfl rfl rfl rfl rfl fun _ _ _ => rfl)

theorem settleLine_calm (line : Nat) : Calm h (settleLine line h) := by
  have hfresh := freshBytes_calm h 128
  have hlost : Calm h (dropFilter line (poisonLine line h)) :=
    (poisonLine_calm h line).trans (calm_of_parts rfl rfl rfl rfl rfl fun _ _ _ => rfl)
  unfold settleLine
  generalize freshBytes 128 h = r at hfresh ⊢
  split
  · have hmem : Calm h { r.2 with mem := memPutN r.2.mem (128 * line) r.1 } :=
      hfresh.trans (calm_of_parts rfl rfl rfl rfl rfl fun _ _ _ => rfl)
    have hcounted := hmem.trans (countSlice_calm _ line 4 1 (by norm_num))
    exact Calm.ite (hcounted.trans (calm_of_parts rfl rfl rfl rfl rfl fun _ _ _ => rfl)) hlost
  · exact Calm.refl h

theorem touchTile_calm (t : Nat) : Calm h (touchTile t h) := by
  unfold touchTile
  exact Calm.ite (calm_of_parts rfl rfl rfl rfl rfl fun _ _ _ => rfl) (Calm.refl h)

theorem meetInjection_of_quiet {h : Hub} (hquiet : h.ras.injection = none) (off n : Nat) : meetInjection off n h = h := by
  rw [meetInjection, hquiet]

theorem meetInjection_calm (off n : Nat) : Calm h (meetInjection off n h) := fun hquiet => by
  rw [meetInjection_of_quiet hquiet]
  exact Calm.refl h hquiet

theorem meetSpInjection_calm (off n : Nat) : Calm h (meetSpInjection off n h) := fun hquiet => by
  rw [meetSpInjection, hquiet]
  exact Calm.refl h hquiet

/-! Fills and reads -/

theorem fillBlock_calm (t j : Nat) : Calm h (fillBlock t j h) := by
  unfold fillBlock
  refine Calm.trans ?_ (foldl_calm _ (fun x l => fillT0_calm x l) _ _)
  have hcount : Calm h (if (getTile t h).codec ∧ nth (getTile t h).lens j 0 ≠ 63 then count 0x98 5 1 h else h) :=
    Calm.ite (count_calm h _ _ _ (by norm_num)) (Calm.refl h)
  refine Calm.ite (hcount.trans (Calm.trans ?_ (selvedgeError_calm _ _))) hcount
  exact (foldl_calm _ (fun x l => addPoison_calm x (128 * l) 128) _ _).trans (putTile_calm _ _ _)

theorem fillLine_calm (l : Nat) : Calm h (fillLine l h) := by
  have htouch (t : Nat) : Calm h (fillT0 l (touchTile t (meetInjection (128 * l) 128 h))) :=
    ((meetInjection_calm h _ _).trans (touchTile_calm _ _)).trans (fillT0_calm _ _)
  have himage : Calm h (if (getTile (l / 512) h).codec || !regBit 0x90 0x40 17 h then
      fillBlock (l / 512) (l % 512 / 32) (meetInjection (65536 * (l / 512) + 4096 * (l % 512 / 32)) 4096 h)
    else fillT0 l (meetInjection (128 * l) 128 h)) :=
    Calm.ite ((meetInjection_calm h _ _).trans (fillBlock_calm _ _ _)) ((meetInjection_calm h _ _).trans (fillT0_calm _ _))
  unfold fillLine
  dsimp only
  split
  · exact htouch _
  · exact htouch _
  · exact htouch _
  · exact himage
  · exact himage
  · exact Calm.refl h
  · exact Calm.refl h
  · exact Calm.refl h

theorem readLine_calm (l : Nat) : Calm h (if inT0 l h then countSlice l 0 1 h else fillLine l (countSlice l 1 1 h)) :=
  Calm.ite (countSlice_calm h _ _ _ (by norm_num)) ((countSlice_calm h _ _ _ (by norm_num)).trans (fillLine_calm _ _))

theorem readTilePart_calm (off n : Nat) : Calm h (readTilePart off n h).2 := by
  unfold readTilePart
  dsimp only
  split
  · exact freshBytes_calm h n
  · split
    · exact Calm.refl h
    · exact Calm.refl h
    · exact Calm.refl h
    all_goals
      exact (((foldl_calm _ settleLine_calm _ _).trans (meetInjection_calm _ _ _)).trans (foldl_calm _ readLine_calm _ _)).trans
        (touchTile_calm _ _)

theorem engRead_calm (fuel off n : Nat) : Calm h (engRead fuel off n h).2 := by
  induction fuel generalizing off n h with
  | zero => exact Calm.refl h
  | succ fuel ih =>
    unfold engRead
    split
    · exact Calm.refl h
    · split
      · exact freshBytes_calm h n
      · split
        · exact meetSpInjection_calm h _ _
        · exact (readTilePart_calm h _ _).trans (ih _ _ _)

theorem ownRead64_calm (off : Nat) : Calm h (ownRead64 off h).2 := engRead_calm h _ _ _

theorem tableRead_calm (off : Nat) : Calm h (tableRead off h).2 :=
  ((count_calm h _ _ _ (by norm_num)).trans (meterAdd_calm _ _ _ _)).trans (ownRead64_calm _ _)

/-! Translation -/

theorem setStu_calm (u : Stu) : Calm h (setStu u h) := calm_of_parts rfl rfl rfl rfl rfl fun _ _ _ => rfl

theorem tenantEntry_calm (t : Nat) : Calm h (tenantEntry t h).2 := by
  have hread (base : Nat) : Calm h (ownRead64 (base + 16 * t + 8) (tableRead (base + 16 * t) h).2).2 :=
    (tableRead_calm h _).trans (ownRead64_calm _ _)
  unfold tenantEntry
  split
  · exact Calm.refl h
  · extract_lets base r0 r1
    split
    · exact Calm.refl h
    · split
      · split
        · exact hread base
        · exact (hread base).trans (setStu_calm _ _)
      · exact hread base

theorem useLeaf_calm (e : LeafEntry) : Calm h (useLeaf e h) :=
  Calm.ite ((setStu_calm h _).trans (count_calm _ _ _ _ (by norm_num))) (setStu_calm h _)

theorem xlateTva_calm (fuel t asid va n op : Nat) : Calm h (xlateTva fuel t asid va n op h).2 := by
  induction fuel generalizing va n h with
  | zero => exact Calm.refl h
  | succ fuel ih =>
    unfold xlateTva
    split
    · exact Calm.refl h
    · split
      · exact Calm.refl h
      · next e _ =>
        dsimp only
        split
        · exact Calm.refl h
        · split
          · exact Calm.refl h
          · split
            · exact useLeaf_calm h e
            · have hrest := (useLeaf_calm h e).trans (ih (useLeaf e h) (va + max 1 (min n (e.base + e.size - va)))
                (n - max 1 (min n (e.base + e.size - va))))
              split <;> next heq => rwa [heq] at hrest

theorem xlateGsa_calm (trusted : Bool) (t a n op : Nat) : Calm h (xlateGsa trusted t a n op h).2 := by
  have hentry := tenantEntry_calm h t
  unfold xlateGsa
  split
  · exact Calm.refl h
  · split
    · exact Calm.refl h
    · split
      · next heq => rwa [heq] at hentry
      · next heq =>
        rw [heq] at hentry
        split <;> exact hentry

theorem xlate_calm (trusted : Bool) (t asid a n op : Nat) : Calm h (xlate trusted t asid a n op h).2 := by
  unfold xlate
  split
  · exact xlateGsa_calm h _ _ _ _ _
  · split
    · exact Calm.refl h
    · exact xlateTva_calm h _ _ _ _ _ _

end Calm

end Sys2Proof.Proofs

/-!
PROOFS. The way of a request frame for STORE to its home (R128, R249, R304, R320): the link, the switch core, the STU, leases and
shapers, where nothing holds it back.
-/
namespace Sys2Proof.Proofs

open Machine Safety Laws

/-! ### What stays on the way -/

/-- Stored bytes, poison, homes and tiles are as they were. -/
structure Intact (a b : Hub) : Prop where
  mem : b.mem = a.mem
  poison : b.poison = a.poison
  coh : b.coh = a.coh
  tier : b.tier = a.tier

theorem Intact.refl (h : Hub) : Intact h h := ⟨rfl, rfl, rfl, rfl⟩

theorem Intact.trans {a b c : Hub} (x : Intact a b) (y : Intact b c) : Intact a c :=
  ⟨y.mem.trans x.mem, y.poison.trans x.poison, y.coh.trans x.coh, y.tier.trans x.tier⟩

theorem intact_of_switch {a b : Hub} (k : SwitchOnly a b) : Intact a b := ⟨k.mem, k.poison, k.coh, k.tier⟩

theorem intact_moves : Moves Intact where
  refl := Intact.refl
  trans := Intact.trans
  slot _ _ _ _ _ := ⟨rfl, rfl, rfl, rfl⟩
  err _ _ _ := ⟨rfl, rfl, rfl, rfl⟩
  first _ _ _ := ⟨rfl, rfl, rfl, rfl⟩
  port _ _ _ _ := ⟨rfl, rfl, rfl, rfl⟩
  emit _ _ := ⟨rfl, rfl, rfl, rfl⟩
  kib _ _ := ⟨rfl, rfl, rfl, rfl⟩
  mirror _ _ := ⟨rfl, rfl, rfl, rfl⟩
  egress _ _ := ⟨rfl, rfl, rfl, rfl⟩
  armoire _ _ := ⟨rfl, rfl, rfl, rfl⟩
  spent _ := ⟨rfl, rfl, rfl, rfl⟩

/-- All that a request's way to its home leaves as it was. -/
def Passed (a b : Hub) : Prop := Intact a b ∧ Calm a b

theorem Passed.refl (h : Hub) : Passed h h := ⟨Intact.refl h, Calm.refl h⟩

theorem Passed.trans {a b c : Hub} (x : Passed a b) (y : Passed b c) : Passed a c := ⟨x.1.trans y.1, x.2.trans y.2⟩

theorem Passed.ite {a b c : Hub} {p : Prop} [Decidable p] (x : Passed a b) (y : Passed a c) : Passed a (if p then b else c) := by
  split <;> assumption

theorem passed_moves : Moves Passed where
  refl := Passed.refl
  trans := Passed.trans
  slot p s v h k := ⟨intact_moves.slot p s v h k, calm_moves.slot p s v h k⟩
  err p b h := ⟨intact_moves.err p b h, calm_moves.err p b h⟩
  first p v h := ⟨intact_moves.first p v h, calm_moves.first p v h⟩
  port p v h k := ⟨intact_moves.port p v h k, calm_moves.port p v h k⟩
  emit o h := ⟨intact_moves.emit o h, calm_moves.emit o h⟩
  kib k h := ⟨intact_moves.kib k h, calm_moves.kib k h⟩
  mirror m h := ⟨intact_moves.mirror m h, calm_moves.mirror m h⟩
  egress e h := ⟨intact_moves.egress e h, calm_moves.egress e h⟩
  armoire a h := ⟨intact_moves.armoire a h, calm_moves.armoire a h⟩
  spent h := ⟨intact_moves.spent h, calm_moves.spent h⟩

/-! ### What the link and the mirror note -/

section Noted

variable {R : Hub → Hub → Prop} (m : Moves R) (hport : ∀ p v h, R h (putPort p v h))

include m hport

theorem linkCount_moves (p : Nat) (f : Frame) (h : Hub) : R h (linkCount p f h) := by
  unfold linkCount
  dsimp only
  have hcounts := m.trans (hport p { getPort p h with
      granted := listSet (getPort p h).granted f.tc (nth (getPort p h).granted f.tc 0 - frameCells f) } h)
    (m.trans (count_moves m (portPage p) 0 1 _ (by norm_num)) (countKib_moves m (portPage p) 2 (frameBytes f) _ (by norm_num)))
  exact m.ite (m.trans hcounts (m.trans (count_moves m twinPage 1 1 _ (by norm_num))
    (countKib_moves m twinPage 3 (frameBytes f) _ (by norm_num)))) hcounts

theorem seqCheck_moves (p n : Nat) (h : Hub) : R h (seqCheck p n h).2 := by
  unfold seqCheck
  dsimp only
  split
  · exact hport p _ h
  · split
    · exact m.refl h
    · exact m.trans (hport p _ h) (m.emit _ _)

theorem frameNoted_moves (p : Nat) (f : Frame) (h : Hub) : R h (frameNoted p f h) :=
  m.trans (m.trans (seqCheck_moves m hport p f.seq h) (linkCount_moves m hport p f _)) (mirrorPoint_moves m p _ _ _ f _)

end Noted

section Passed

variable (h : Hub)

theorem setStu_passed (u : Stu) : Passed h (setStu u h) := ⟨⟨rfl, rfl, rfl, rfl⟩, setStu_calm h u⟩
theorem putPort_passed (p : Nat) (v : Port) : Passed h (putPort p v h) :=
  ⟨⟨rfl, rfl, rfl, rfl⟩, calm_of_parts rfl rfl rfl rfl rfl fun _ _ _ => rfl⟩
theorem newReq_passed : Passed h (newReq h).2 := ⟨⟨rfl, rfl, rfl, rfl⟩, calm_of_parts rfl rfl rfl rfl rfl fun _ _ _ => rfl⟩

theorem count_passed (page slot n : Nat) (hslot : slot < 256) : Passed h (count page slot n h) :=
  count_moves passed_moves page slot n h hslot

theorem frameNoted_passed (p : Nat) (f : Frame) : Passed h (frameNoted p f h) :=
  frameNoted_moves passed_moves (fun p v h => putPort_passed h p v) p f h

theorem atUnit_passed (p : Nat) (f : Frame) : Passed h (atUnit p f h) := (frameNoted_passed h p f).trans (newReq_passed _)

theorem atUnit_stu (p : Nat) (f : Frame) : (atUnit p f h).stu = h.stu :=
  (frameNoted_moves switch_moves putPort_switch p f h).stu

theorem startPrefetch_passed (t asid va : Nat) : Passed h (startPrefetch t asid va h) := by
  unfold startPrefetch
  exact Passed.ite (Passed.refl h) ((setStu_passed h _).trans (count_passed _ _ _ _ (by norm_num)))

theorem track_passed (module unit t asid va : Nat) : Passed h (track module unit t asid va h) := by
  unfold track
  dsimp only
  split
  · exact setStu_passed h _
  · refine Passed.ite (setStu_passed h _) (Passed.ite ?_ (Passed.ite ?_ (setStu_passed h _)))
    · exact (setStu_passed h _).trans (startPrefetch_passed _ _ _ _)
    · exact (setStu_passed h _).trans (startPrefetch_passed _ _ _ _)

theorem hitAt_passed (r : Req) (h0 : Hub) : Passed h (hitAt r h0 h) :=
  Passed.ite (count_passed h 0xA3 0 1 (by norm_num)) (Passed.refl h)

/-- R514. -/
theorem meterAdd_passed (tenant i n : Nat) : Passed h (meterAdd tenant i n h) := by
  refine ⟨?_, meterAdd_calm h tenant i n⟩
  unfold meterAdd
  split
  · exact Intact.refl h
  · dsimp only
    split
    · refine Intact.trans ?_ ((raiseQuiet_moves intact_moves _ _ _).trans (armoireAppend_moves intact_moves _ _ _))
      exact ⟨rfl, rfl, rfl, rfl⟩
    · exact ⟨rfl, rfl, rfl, rfl⟩

theorem meterReq_passed (r : Req) : Passed h (meterReq r h) := by
  have hadd := meterAdd_passed h (reqTenant r h)
  unfold meterReq
  dsimp only
  split_ifs
  · exact hadd 0 _
  · exact hadd 1 _
  · exact hadd 2 _
  · exact hadd 1 _
  · exact hadd 0 _
  · exact hadd 1 _
  · exact Passed.refl h

end Passed

/-! ### The way to the STU -/

section Way

variable {p : Nat} {f : Frame} {off : Nat} {s : State} {g h : Hub}

/-- The request that a frame for STORE makes. -/
def reqOf (p : Nat) (f : Frame) (h : Hub) : Req := { id := (newReq (frameNoted p f h)).1, src := .frame p, frame := f }

/-- R250: a STORE frame in form is posted where its opcode says so. -/
theorem posted_of_formOk (hop : 1 ≤ f.opcode ∧ f.opcode ≤ 6) (hform : formOk f = true) : f.posted = postedOpcode f.opcode := by
  obtain ⟨hlo, hhi⟩ := hop
  unfold formOk at hform
  interval_cases hf : f.opcode <;> simp_all [postedOpcode]

/-- R249: a taken frame for STORE, of R255 to R260 and in form, enters the STU. -/
theorem frameRow_store (hunit : meetsUnit p f 0x80 s = true) (hop : 1 ≤ f.opcode ∧ f.opcode ≤ 6) (hform : formOk f = true) :
    frameRow p f s = .next { s with hub := stuEnter (reqOf p f s.hub) (atUnit p f s.hub) } := by
  have hposted := posted_of_formOk hop hform
  have hrow := frameRow_unit hunit (by omega)
  simp only [meetsUnit, Bool.and_eq_true, beq_iff_eq] at hunit
  obtain ⟨⟨-, hdst⟩, -⟩ := hunit
  have harrive (h : Hub) : storeArrive p f h = stuEnter { id := (newReq h).1, src := .frame p, frame := f } (newReq h).2 := by
    have hcoh : cohDenied f (newReq h).2 = false := by
      rw [cohDenied, decide_eq_false (by omega), Bool.false_and]
    simp only [storeArrive, hform, hcoh, Bool.not_true, Bool.false_eq_true, if_false, show f.opcode ≠ 0x55 by omega]
  have hlocal (b : Bool) (x : State) : localArrive p b f x = onHub (storeArrive p f) x := by
    have htakes : unitTakes 0x80 f.opcode = true := by simp [unitTakes, hop]
    have hunknown : noRequests 0x80 x.hub = false := by simp [noRequests]
    have hdefined : definedOpcode f.opcode = true := by
      obtain ⟨hlo, hhi⟩ := hop
      unfold definedOpcode
      interval_cases f.opcode <;> rfl
    simp only [localArrive, hdst, hunknown, hdefined, hposted, htakes, heartbeatCopy, show f.opcode ≠ 0x20 by omega,
      show f.opcode ≠ 0x55 by omega, show ¬(0xC0 ≤ 0x80) by norm_num, show (0x80 : Nat) ≠ 0x81 by norm_num, bne_self_eq_false,
      Bool.not_true, Bool.false_eq_true, false_and, if_false, if_true]
  rw [hrow, hlocal]
  exact congrArg (fun h => Host.Outcome.next { s with hub := h }) (harrive (frameNoted p f s.hub))

/-! ### The way to the home -/

/-- What `meetsStore` says. -/
structure AtStore (p : Nat) (f : Frame) (off : Nat) (s : State) (g : Hub) : Prop where
  unit : meetsUnit p f 0x80 s = true
  form : formOk f = true
  below : off < windowBase
  translates : ∃ n ps leaf, xlate (ringTrusted p f (atUnit p f s.hub)) f.tenant f.asid f.addr (max 1 (reqLen f)) (opOf f)
    (atUnit p f s.hub) = (.ok ((off, n) :: ps) leaf, g)
  passed : Passed s.hub g
  quiet : s.hub.ras.injection = none
  stuWaiting : s.hub.stu.waiting = []
  txs : s.hub.coh.txs = []
  waiting : s.hub.coh.waiting = []
  leases : s.hub.coh.leases = []
  shapers : s.hub.shapers = []

theorem atStore_of_meets (hmeets : meetsStore p f off s = true) : ∃ g, AtStore p f off s g := by
  simp only [meetsStore, Bool.and_eq_true, beq_iff_eq, decide_eq_true_eq] at hmeets
  obtain ⟨⟨⟨⟨⟨⟨⟨⟨⟨⟨hunit, hform⟩, hstu⟩, hbelow⟩, hparts⟩, hmem, hpoison, hcoh, htier⟩, htxs⟩, hwaiting⟩,
    hleases⟩, hshapers⟩, hquiet⟩ := hmeets
  generalize htrust : ringTrusted p f (atUnit p f s.hub) = trusted at *
  have hcalm := xlate_calm (atUnit p f s.hub) trusted f.tenant f.asid f.addr (max 1 (reqLen f)) (opOf f)
  generalize hx : xlate trusted f.tenant f.asid f.addr (max 1 (reqLen f)) (opOf f) (atUnit p f s.hub) = x at *
  obtain ⟨x, g⟩ := x
  refine ⟨g, hunit, hform, hbelow, ?_, ⟨⟨hmem, hpoison, hcoh, htier⟩, (atUnit_passed s.hub p f).2.trans hcalm⟩, hquiet,
    hstu, htxs, hwaiting, hleases, hshapers⟩
  split at hparts
  · next o n ps leaf hok =>
    dsimp only at hok
    obtain rfl : o = off := by simpa using hparts
    exact ⟨n, ps, leaf, by rw [htrust, hx, hok]⟩
  · cases hparts

/-- R529: with no shaper a request leaves at once. -/
theorem shapeIn_free (r : Req) (hshapers : h.shapers = []) : shapeIn r h = ([r], h) := by
  have hnone : shaperOf r h = none := by
    have hoff (k : Nat) : (getShaper k h).en = false := by rw [getShaper, hshapers]; rfl
    unfold shaperOf
    simp only [hoff, Bool.false_eq_true, if_false]
    split
    · rfl
    · split <;> rfl
  rw [shapeIn, hnone]

/-- R320, R529: with no lease and no shaper a translated request goes straight on. -/
theorem afterStu_free {r : Req} (hleases : h.coh.leases = []) (hshapers : h.shapers = []) : afterStu r h = deliverStore r h := by
  have hrefuses : leaseRefuses r h = false := by
    unfold leaseRefuses leaseDenies
    rw [hleases]
    cases issuerOf r <;> simp
  rw [afterStu, hrefuses, shapeIn_free r hshapers]
  rfl

/-- R304: with no lines busy and nothing waiting, a request's transaction starts at once. -/
theorem homeIn_free {r : Req} (hbelow : r.off < windowBase) (htxs : h.coh.txs = []) (hwaiting : h.coh.waiting = []) :
    homeIn r h = homeStart r h := by
  have hidle : (reqLines r).any (fun l => lineBusy l h) = false := by simp [lineBusy, htxs]
  rw [homeIn, if_neg (by omega), hidle, hwaiting]
  rfl

end Way

end Sys2Proof.Proofs

/-!
PROOFS. What STORE does at the home of a request of R255 to R260, and what it answers (R176, R177, R305).
-/
namespace Sys2Proof.Proofs

open Machine Safety Laws

section Home

variable {p : Nat} {f : Frame} {off : Nat} {s : State} {r : Req} {g h : Hub}

/-- R144: where no request waits, one whose translation is served goes on to its place. -/
theorem stuEnter_serves (hreq : r.src = .frame p) (hop : r.frame.opcode ≠ 5) (hwaiting : h.stu.waiting = []) {n : Nat}
    {ps : List (Nat × Nat)} {leaf : Option (Nat × Nat × Nat)}
    (hx : xlate (ringTrusted p r.frame h) r.frame.tenant r.frame.asid r.frame.addr (max 1 (reqLen r.frame)) (opOf r.frame) h =
      (.ok ((off, n) :: ps) leaf, g)) :
    stuEnter r h = hitAt r h (translated r off leaf g) := by
  have hport : sourcePort r = p := by rw [sourcePort, hreq]
  have htry : stuTry r none h = .passed (translated r off leaf g) := by
    simp only [stuTry, hop, if_false, hport, hx]
  simp [stuEnter, hwaiting, htry, hop]

/-- A request in the store range, that no lease and no shaper holds. -/
theorem translated_delivers {leaf : Option (Nat × Nat × Nat)} (hbelow : off < windowBase)
    (hleases : g.coh.leases = []) (hpassed : Passed g h) (hshapers : h.shapers = [])
    (hh : h = if r.frame.asid = 0xFFFF then g else track r.frame.srcModule r.frame.srcUnit r.frame.tenant r.frame.asid r.frame.addr g) :
    translated r off leaf g = deliverStore { r with off := off, leaf := leaf } h := by
  have hwindow : ¬ windowBase ≤ off := by omega
  simp only [translated, ← hh, hwindow, false_and, if_false]
  exact afterStu_free (by rw [hpassed.1.coh, hleases]) hshapers

/-- Frame f's request at its home, at an offset of the store range. -/
structure HomeReq (p : Nat) (f : Frame) (off : Nat) (r : Req) : Prop where
  src : r.src = .frame p
  frame : r.frame = f
  off : r.off = off
  whole : r.enables = []

/-- A translated request for STORE is delivered, in a hub as it was but for what passes. -/
theorem frameRow_delivers (k : AtStore p f off s g) (hop : 1 ≤ f.opcode ∧ f.opcode ≤ 6) (hop5 : f.opcode ≠ 5) :
    ∃ r h h0, HomeReq p f off r ∧ Passed s.hub h ∧
      frameRow p f s = .next { s with hub := hitAt (reqOf p f s.hub) h0 (deliverStore r h) } := by
  obtain ⟨hunit, hform, hbelow, ⟨n, ps, leaf, hx⟩, hpassed, hquiet, hstu, htxs, hwaiting, hleases, hshapers⟩ := k
  obtain ⟨h, hh⟩ : ∃ h, h = if f.asid = 0xFFFF then g else track f.srcModule f.srcUnit f.tenant f.asid f.addr g := ⟨_, rfl⟩
  have hway : Passed g h := hh ▸ Passed.ite (Passed.refl g) (track_passed g ..)
  have hshapers' : h.shapers = [] := ((hpassed.trans hway).2 hquiet).shapers.trans hshapers
  refine ⟨{ reqOf p f s.hub with off := off, leaf := leaf }, h, atUnit p f s.hub, ⟨rfl, rfl, rfl, rfl⟩, hpassed.trans hway, ?_⟩
  rw [frameRow_store hunit hop hform, stuEnter_serves (r := reqOf p f s.hub) rfl hop5 ((atUnit_stu ..).symm ▸ hstu) hx,
    translated_delivers (r := reqOf p f s.hub) hbelow (by rw [hpassed.1.coh, hleases]) hway hshapers' hh]

theorem alone_of_meetsUnit {u : Nat} (hunit : meetsUnit p f u s = true) : pairJoined s.hub = false := by
  simp only [meetsUnit, Bool.and_eq_true, Bool.not_eq_true'] at hunit
  obtain ⟨-, halone⟩ := hunit
  exact halone

theorem quiet_of_meetsUnit {u : Nat} (hunit : meetsUnit p f u s = true) : s.hub.ras.injection = none := by
  simp only [meetsUnit, frameTaken, Bool.and_eq_true, beq_iff_eq] at hunit
  obtain ⟨⟨⟨⟨-, hquiet⟩, -⟩, -⟩, -⟩ := hunit
  exact hquiet

/-- A module that stands alone holds all of the store. -/
theorem otherHolds_alone (halone : pairJoined h = false) (hbelow : off < windowBase) : otherHolds off h = false := by
  rw [otherHolds, if_neg (by omega), otherTile, halone, Bool.false_and]

/-- A request that is no FLUSH and no part of a tile write starts its transaction at once. -/
theorem frameRow_homeStart (hmeets : meetsStore p f off s = true) (hop : 1 ≤ f.opcode ∧ f.opcode ≤ 4) :
    ∃ r h h0, HomeReq p f off r ∧ Intact s.hub h ∧ Undisturbed s.hub h ∧ h.coh.txs = [] ∧
      frameRow p f s = .next { s with hub := hitAt (reqOf p f s.hub) h0 (homeStart r h) } := by
  obtain ⟨g, k⟩ := atStore_of_meets hmeets
  obtain ⟨r, h, h0, hreq, ⟨hintact, hcalm⟩, hrow⟩ := frameRow_delivers k (by omega) (by omega)
  have htxs : h.coh.txs = [] := by rw [hintact.coh, k.txs]
  refine ⟨r, h, h0, hreq, hintact, hcalm k.quiet, htxs, hrow.trans ?_⟩
  obtain ⟨hsrc, hframe, hoff, -⟩ := hreq
  have hbelow : r.off < windowBase := hoff ▸ k.below
  have halone : pairJoined h = false := by
    rw [pairJoined, (hcalm k.quiet).twin, ← pairJoined, alone_of_meetsUnit k.unit]
  have hdeliver : deliverStore r h = homeStart r h := by
    have hop5 : ¬ f.opcode = 5 := by omega
    have hop6 : (f.opcode == 6) = false := by simpa using (by omega : ¬ f.opcode = 6)
    simp only [deliverStore, hframe, hop5, hop6, hsrc, Bool.false_and, Bool.false_eq_true, if_false]
    rw [homeOrPair, otherHolds_alone halone hbelow]
    exact homeIn_free hbelow htxs (by rw [hintact.coh, k.waiting])
  rw [hdeliver]

/-! ### At the home -/

/-- The transaction of a request whose lines no agent holds, as it starts. -/
def started (r : Req) : HomeTx := ⟨r, reqLines r, [], .snoops, false, false, false⟩

@[simp] theorem started_req (r : Req) : (started r).req = r := rfl

/-- The hub with the transactions under way replaced. -/
def withTxs (l : List HomeTx) (h : Hub) : Hub := { h with coh := { h.coh with txs := l } }

@[simp] theorem getTile_withTxs (t : Nat) (l : List HomeTx) (h : Hub) : getTile t (withTxs l h) = getTile t h := getTile_of_tier rfl t

theorem removeTx_started (htxs : h.coh.txs = []) : removeTx r.id (withTxs [started r] h) = h := by
  have hnone : ([started r].filter fun x => x.req.id != r.id) = [] := by simp [started]
  have hcoh : { h.coh with txs := [] } = h.coh := by rw [← htxs]
  simp only [removeTx, withTxs, hnone, hcoh]

/-- R304, R305: with no line in the snoop filter, the transaction meets its tile at once. -/
theorem homeStart_unheld (hframe : isCoh r.frame = false) (hfilter : h.coh.filter = []) (htxs : h.coh.txs = []) :
    homeStart r h = homeReady (started r) (withTxs [started r] h) := by
  have hnone (l : Nat) : getFilter l h = none := by rw [getFilter, hfilter]; rfl
  have hsnoop (l : Nat) : snoopLine r l ([], h) = ([], h) := by simp only [snoopLine, hnone]
  have hsnoops : (reqLines r).foldl (fun acc l => snoopLine r l acc) ([], h) = ([], h) :=
    List.foldlRecOn (reqLines r) _ (motive := (· = ([], h))) rfl fun _ hx l _ => hx ▸ hsnoop l
  simp only [homeStart, hframe, hsnoops, hnone, htxs, Bool.false_eq_true, and_false, if_false, if_true, List.nil_append, Bool.false_and,
    Bool.or_self]
  rfl

theorem homeGrant_plain (hframe : isCoh r.frame = false) : homeGrant (started r) h = homeAct (started r) (removeTx r.id h) := by
  have hneeds : needsEntry (started r) h = false := by
    rw [needsEntry, started_req, hframe]
    rfl
  rw [homeGrant, hneeds]
  rfl

/-- R305: the stores and atomics of R256 and R259. -/
theorem isStore_of_req (hsrc : r.src = .frame p) (hop : 2 ≤ r.frame.opcode ∧ r.frame.opcode ≤ 4) : isStore r = true := by
  obtain ⟨hlo, hhi⟩ := hop
  rw [isStore, hsrc]
  interval_cases r.frame.opcode <;> rfl

theorem isCoh_of_low (hop : f.opcode ≤ 4) : isCoh f = false := by
  rw [isCoh, decide_eq_false]
  omega

section Start

variable (hreq : HomeReq p f off r) (hfilter : h.coh.filter = []) (htxs : h.coh.txs = [])

include hreq hfilter htxs

/-- R177: a store to an Upper tile is performed. -/
theorem homeStart_store (hop : 2 ≤ f.opcode ∧ f.opcode ≤ 4) (hst : (getTile (tileOf off) h).st = .upper) :
    homeStart r h = homeAct (started r) h := by
  obtain ⟨hsrc, hframe, hoff, -⟩ := hreq
  subst hframe hoff
  have hcoh := isCoh_of_low hop.2
  have hop6 : ¬ r.frame.opcode = 6 := by omega
  rw [homeStart_unheld hcoh hfilter htxs]
  simp only [homeReady, started_req, hop6, false_and, if_false, isStore_of_req hsrc hop, if_true,
    getTile_withTxs, hst]
  rw [homeGrant_plain hcoh, removeTx_started htxs]

/-- R182: a store to a Free tile is performed in a new slot of class 0, where there is room. -/
theorem homeStart_allocates (hop : 2 ≤ f.opcode ∧ f.opcode ≤ 4) (hst : (getTile (tileOf off) h).st = .free)
    (hroom : usedOf 0 h < ceilingOf 0 h) (hslot : slotsUsed h < h.tier.slots) :
    homeStart r h = homeAct (started r) (allocated (tileOf off) 0 f.tenant h) := by
  obtain ⟨hsrc, hframe, hoff, -⟩ := hreq
  subst hframe hoff
  have hcoh := isCoh_of_low hop.2
  have hop6 : ¬ r.frame.opcode = 6 := by omega
  have halloc : allocTile (tileOf r.off) 0 r.frame.tenant (withTxs [started r] h) =
      some (withTxs [started r] (allocated (tileOf r.off) 0 r.frame.tenant h)) := allocTile_of_room hroom hslot
  have hkept : (allocated (tileOf r.off) 0 r.frame.tenant h).coh.txs = [] := htxs
  rw [homeStart_unheld hcoh hfilter htxs]
  simp only [homeReady, started_req, hop6, false_and, if_false, isStore_of_req hsrc hop, if_true, hsrc,
    getTile_withTxs, hst, halloc]
  rw [homeGrant_plain hcoh, removeTx_started hkept]

/-- R176: a read whose lines T0 holds is served from there. -/
theorem homeStart_read (hop : f.opcode = 1) (hst : (getTile (tileOf off) h).st = .upper)
    (hlines : ∀ l ∈ linesOf off f.len, inT0 l h = true) :
    homeStart r h = homeAct (started r) (countSlice (lineOf off) 0 1 h) := by
  obtain ⟨hsrc, hframe, hoff, -⟩ := hreq
  subst hframe hoff
  have hcoh := isCoh_of_low (f := r.frame) (by omega)
  have hop6 : ¬ r.frame.opcode = 6 := by omega
  have hstore : isStore r = false := by
    rw [isStore, hsrc]
    simp [hop]
  have hall : (started r).lines.all (fun l => inT0 l (withTxs [started r] h)) = true := by
    rw [List.all_eq_true]
    intro l hl
    refine hlines l ?_
    simpa [started, reqLines, hsrc, reqLen, hop] using hl
  rw [homeStart_unheld hcoh hfilter htxs]
  simp only [homeReady, started_req, hop6, false_and, if_false, hstore, Bool.false_eq_true, hsrc,
    getTile_withTxs, hst, hall, if_true]
  rw [homeGrant_plain hcoh]
  exact congrArg _ (removeTx_started (h := countSlice (lineOf r.off) 0 1 h) htxs)

end Start

end Home

/-! ### What a request does at its home -/

section Act

variable {p : Nat} {f : Frame} {off : Nat} {s : State} {r : Req} {g h : Hub}

/-- Bytes, poison, tiles and T0 are as they were. -/
structure Stored (a b : Hub) : Prop where
  mem : b.mem = a.mem
  poison : b.poison = a.poison
  tier : b.tier = a.tier
  t0 : b.coh.t0 = a.coh.t0

theorem Stored.trans {a b c : Hub} (x : Stored a b) (y : Stored b c) : Stored a c :=
  ⟨y.mem.trans x.mem, y.poison.trans x.poison, y.tier.trans x.tier, y.t0.trans x.t0⟩

theorem stored_of_intact {a b : Hub} (k : Intact a b) : Stored a b := ⟨k.mem, k.poison, k.tier, by rw [k.coh]⟩

theorem sendFrame_stored (f : Frame) (h : Hub) : Stored h (sendFrame f h) := stored_of_intact (intact_of_switch (sendFrame_switch f h))

theorem flushCheck_stored (h : Hub) : Stored h (flushCheck h) := by
  unfold flushCheck
  exact List.foldlRecOn _ _ (motive := Stored h) ⟨rfl, rfl, rfl, rfl⟩ fun x hx r _ => hx.trans (sendFrame_stored _ x)

/-- R255: the answer to a frame stores nothing. -/
theorem answer_stored (hsrc : r.src = .frame p) (status detail aux : Nat) (poison : Bool) (data : List Byte) (h : Hub) :
    Stored h (answer r status detail aux poison data h) := by
  have hdenied : Stored h (if status = stDenied then meterAdd (reqTenant r h) 7 1 h else h) := by
    split
    · exact stored_of_intact (meterAdd_passed h _ _ _).1
    · exact ⟨rfl, rfl, rfl, rfl⟩
  simp only [answer, hsrc]
  split
  · exact hdenied.trans (flushCheck_stored _)
  · exact hdenied.trans (sendFrame_stored _ _)

/-! Lines and tiles of a store -/

theorem storeLines_cons (l : Nat) (ls : List Nat) (h : Hub) :
    storeLines (l :: ls) h = storeLines ls (setT0 l .dirty (dropFilter l h)) := rfl

theorem storeLines_mem (ls : List Nat) (h : Hub) : (storeLines ls h).mem = h.mem :=
  List.foldlRecOn ls _ (motive := fun x : Hub => x.mem = h.mem) rfl fun _ hx _ _ => hx

theorem storeLines_poison (ls : List Nat) (h : Hub) : (storeLines ls h).poison = h.poison :=
  List.foldlRecOn ls _ (motive := fun x : Hub => x.poison = h.poison) rfl fun _ hx _ _ => hx

/-- A line that is Dirty stays so as more lines are stored. -/
theorem storeLines_dirty_of_dirty {l : Nat} (ls : List Nat) (hl : Tab.get? h.coh.t0 l = some .dirty) :
    Tab.get? (storeLines ls h).coh.t0 l = some .dirty := by
  refine List.foldlRecOn ls _ (motive := fun x : Hub => Tab.get? x.coh.t0 l = some .dirty) hl fun x hx k _ => ?_
  refine (tab_get_set x.coh.t0 k l T0State.dirty).trans ?_
  split
  · rfl
  · exact hx

theorem storeLines_dirty {l : Nat} {ls : List Nat} (hl : l ∈ ls) (h : Hub) : Tab.get? (storeLines ls h).coh.t0 l = some .dirty := by
  induction ls generalizing h with
  | nil => cases hl
  | cons k ls ih =>
    rw [storeLines_cons]
    rcases List.mem_cons.1 hl with rfl | hrest
    · exact storeLines_dirty_of_dirty ls ((tab_get_set h.coh.t0 l l T0State.dirty).trans (if_pos rfl))
    · exact ih hrest _

theorem openSeal_mem (t : Nat) (h : Hub) : (openSeal t h).mem = h.mem := by
  unfold openSeal
  dsimp only
  split <;> rfl

theorem openSeal_poison (t : Nat) (h : Hub) : (openSeal t h).poison = h.poison := by
  unfold openSeal
  dsimp only
  split <;> rfl

theorem memWrite_mem (a : Nat) (bs : List Byte) (poisoned : Bool) (h : Hub) : (memWrite a bs poisoned h).mem = memPutN h.mem a bs := by
  unfold memWrite
  split <;> rfl

theorem memWrite_coh (a : Nat) (bs : List Byte) (poisoned : Bool) (h : Hub) : (memWrite a bs poisoned h).coh = h.coh := by
  unfold memWrite
  split <;> rfl

/-- The bytes written, and no other byte, are stored. -/
theorem storesAt_of_put {bs : List Byte} {a b : Hub} (hmem : b.mem = memPutN a.mem off bs) : storesAt off bs a b := fun k => by
  rw [hmem, memGet_put, nth, memDefault]
  rfl

/-! The effects -/

/-- R256: a write's bytes are stored, and its lines are Dirty. -/
theorem homeAct_write (hreq : HomeReq p f off r) (hop : f.opcode = 2 ∨ f.opcode = 3) (hquiet : h.ras.injection = none) :
    (homeAct (started r) h).mem = memPutN h.mem off f.payload ∧
      ∀ l ∈ linesOf off f.len, Tab.get? (homeAct (started r) h).coh.t0 l = some .dirty := by
  obtain ⟨hsrc, hframe, hoff, hwhole⟩ := hreq
  subst hframe hoff
  have hop1 : ¬ r.frame.opcode = 1 := by omega
  have hmeter := meterReq_passed h r
  have hact : homeAct (started r) h = answerStatus r stOk 0 (memWrite r.off r.frame.payload (payloadPoison r.frame)
      (storeLines (linesOf r.off r.frame.len) (openSeal (tileOf r.off) (meterReq r h)))) := by
    simp only [homeAct, started_req, hsrc, hop1, hop, if_false, if_true,
      meetInjection_of_quiet (hmeter.2 hquiet).quiet, partialWrite, hwhole, true_or]
  have hanswer := answer_stored hsrc stOk 0 0 false [] (memWrite r.off r.frame.payload (payloadPoison r.frame)
      (storeLines (linesOf r.off r.frame.len) (openSeal (tileOf r.off) (meterReq r h))))
  rw [hact, answerStatus]
  refine ⟨?_, fun l hl => ?_⟩
  · rw [hanswer.mem, memWrite_mem, storeLines_mem, openSeal_mem, hmeter.1.mem]
  · rw [hanswer.t0, memWrite_coh]
    exact storeLines_dirty hl _

/-- R259: an atomic on unpoisoned bytes stores its result. -/
theorem homeAct_atomic (hreq : HomeReq p f off r) (hop : f.opcode = 4) (hquiet : h.ras.injection = none)
    (hclean : anyPoison off (reqLen f) h = false) :
    (homeAct (started r) h).mem = memPutN h.mem off (bytesLE (reqLen f)
      (atomicResult (nbits f.aux 7 0) (reqLen f) (ofBytesLE (memGetN h.mem off (reqLen f))) f.operand0 f.operand1)) := by
  obtain ⟨hsrc, hframe, hoff, -⟩ := hreq
  subst hframe hoff
  have hmeter := meterReq_passed h r
  obtain ⟨y, hy⟩ : ∃ y, y = countSlice (lineOf r.off) 3 1 (storeLines [lineOf r.off] (openSeal (tileOf r.off) (meterReq r h))) := ⟨_, rfl⟩
  have hmem : y.mem = h.mem := hy ▸ (storeLines_mem _ _).trans ((openSeal_mem _ _).trans hmeter.1.mem)
  have hpoison : y.poison = h.poison := hy ▸ (storeLines_poison _ _).trans ((openSeal_poison _ _).trans hmeter.1.poison)
  have hclean' : anyPoison r.off (reqLen r.frame) y = false := by rw [anyPoison, hpoison, ← anyPoison, hclean]
  simp only [homeAct, started_req, hsrc, hop, show (4 : Nat) ≠ 1 by norm_num, show ¬((4 : Nat) = 2 ∨ (4 : Nat) = 3) by norm_num,
    if_false, if_true, meetInjection_of_quiet (hmeter.2 hquiet).quiet, ← hy, hclean', Bool.false_eq_true]
  rw [(answer_stored hsrc ..).mem, memWrite_mem, hmem]

/-! ### The statements -/

theorem hubAnswers_of_row {c : Instr} {y : Hub} {P : Hub → Prop} (hexec : exec c s = frameRow p f s)
    (hrow : frameRow p f s = .next { s with hub := y }) (hP : P y) : HubAnswers c s P :=
  ⟨_, hexec.trans hrow, rfl, rfl, hP⟩

/-- R256, R177: what a WRITE or WRITE_POSTED that nothing holds back stores. -/
theorem write_stores {c : Instr} (hexec : exec c s = frameRow p f s) (hop : f.opcode = 2 ∨ f.opcode = 3)
    (hst : (getTile (tileOf off) s.hub).st = .upper) (hfilter : s.hub.coh.filter = []) (hmeets : meetsStore p f off s = true) :
    HubAnswers c s (fun h => storesAt off f.payload s.hub h ∧ ∀ l ∈ linesOf off f.len, Tab.get? h.coh.t0 l = some .dirty) := by
  obtain ⟨r, h, h0, hreq, hintact, hcalm, htxs, hrow⟩ := frameRow_homeStart hmeets (by omega)
  rw [homeStart_store hreq (by rw [hintact.coh, hfilter]) htxs (by omega) (by rw [getTile_of_tier hintact.tier, hst])] at hrow
  obtain ⟨hmem, hdirty⟩ := homeAct_write hreq hop hcalm.quiet
  have hhit := (hitAt_passed (homeAct (started r) h) (reqOf p f s.hub) h0).1
  refine hubAnswers_of_row hexec hrow ⟨storesAt_of_put ?_, fun l hl => ?_⟩
  · rw [hhit.mem, hmem, hintact.mem]
  · rw [hhit.coh]
    exact hdirty l hl

/-- R259: what an atomic stores, whose transaction meets its tile in some hub of the same bytes. -/
theorem atomic_stores_of_start {c : Instr} (hexec : exec c s = frameRow p f s) (hop : f.opcode = 4) (hmeets : meetsStore p f off s = true)
    (hclean : anyPoison off (reqLen f) s.hub = false)
    (hstart : ∀ r h, HomeReq p f off r → Intact s.hub h → Undisturbed s.hub h → h.coh.txs = [] →
      ∃ y, homeStart r h = homeAct (started r) y ∧ y.mem = h.mem ∧ y.poison = h.poison ∧ y.ras = h.ras) :
    HubAnswers c s (fun h => storesAt off (bytesLE (reqLen f) (atomicResult (nbits f.aux 7 0) (reqLen f)
      (ofBytesLE (memGetN s.hub.mem off (reqLen f))) f.operand0 f.operand1)) s.hub h) := by
  obtain ⟨r, h, h0, hreq, hintact, hcalm, htxs, hrow⟩ := frameRow_homeStart hmeets (by omega)
  obtain ⟨y, hact, hymem, hypoison, hyras⟩ := hstart r h hreq hintact hcalm htxs
  have hyclean : anyPoison off (reqLen f) y = false := by rw [anyPoison, hypoison, hintact.poison, ← anyPoison, hclean]
  have hmem := homeAct_atomic hreq hop (by rw [hyras, hcalm.quiet]) hyclean
  rw [hact] at hrow
  refine hubAnswers_of_row hexec hrow (storesAt_of_put ?_)
  rw [(hitAt_passed (homeAct (started r) y) (reqOf p f s.hub) h0).1.mem, hmem, hymem, hintact.mem]

/-- R259: what an atomic that nothing holds back stores in a T1 slot. -/
theorem atomic_stores {c : Instr} (hexec : exec c s = frameRow p f s) (hop : f.opcode = 4)
    (hst : (getTile (tileOf off) s.hub).st = .upper) (hfilter : s.hub.coh.filter = []) (hmeets : meetsStore p f off s = true)
    (hclean : anyPoison off (reqLen f) s.hub = false) :
    HubAnswers c s (fun h => storesAt off (bytesLE (reqLen f) (atomicResult (nbits f.aux 7 0) (reqLen f)
      (ofBytesLE (memGetN s.hub.mem off (reqLen f))) f.operand0 f.operand1)) s.hub h) :=
  atomic_stores_of_start hexec hop hmeets hclean fun _ h hreq hintact _ htxs =>
    ⟨h, homeStart_store hreq (by rw [hintact.coh, hfilter]) htxs (by omega) (by rw [getTile_of_tier hintact.tier, hst]), rfl, rfl, rfl⟩

/-- R260: the first part of a tile write waits for the others. -/
theorem tileWrite_waits {c : Instr} (hexec : exec c s = frameRow p f s) (hop : f.opcode = 6) (hmeets : meetsStore p f off s = true)
    (hnone : s.hub.assemblies = []) :
    HubAnswers c s (fun h => SameMemory s.hub h ∧
      h.assemblies = [⟨f.srcModule, f.srcUnit, f.tag, f.addr, s.hub.devTime, [(nbits f.aux 4 0, f)], false, p⟩]) := by
  obtain ⟨g, k⟩ := atStore_of_meets hmeets
  obtain ⟨r, h, h0, ⟨hsrc, hframe, -, -⟩, ⟨hintact, hcalm⟩, hrow⟩ := frameRow_delivers k (by omega) (by omega)
  have hcalm := hcalm k.quiet
  have hasm : h.assemblies = [] := hcalm.assemblies.trans hnone
  have hdeliver : deliverStore r h =
      { h with assemblies := [⟨f.srcModule, f.srcUnit, f.tag, f.addr, h.devTime, [(nbits f.aux 4 0, f)], false, p⟩] } := by
    simp [deliverStore, hframe, hop, hsrc, tilePart, liveAssemblies, hasm, putAssembly, sourcePort]
  have hhit := hitAt_passed (deliverStore r h) (reqOf p f s.hub) h0
  have hquiet : (deliverStore r h).ras.injection = none := by rw [hdeliver]; exact hcalm.quiet
  refine hubAnswers_of_row hexec hrow ⟨⟨?_, ?_⟩, ?_⟩
  · rw [hhit.1.mem, hdeliver]
    exact hintact.mem
  · rw [hhit.1.poison, hdeliver]
    exact hintact.poison
  · rw [(hhit.2 hquiet).assemblies, hdeliver, ← hcalm.devTime]

/-- R257: a FLUSH with nothing before it completes. -/
theorem flush_completes {c : Instr} (hexec : exec c s = frameRow p f s) (hop : f.opcode = 5) (hunit : meetsUnit p f 0x80 s = true)
    (hform : f.posted = false) (hshapers : s.hub.shapers = []) (hstu : s.hub.stu.waiting = []) (htxs : s.hub.coh.txs = [])
    (hwaiting : s.hub.coh.waiting = []) :
    HubAnswers c s (fun h => SameMemory s.hub h ∧ ∃ h1, SameMemory s.hub h1 ∧ sends (completionOf f stOk 0 0 false []) h1 h) := by
  have hquiet := quiet_of_meetsUnit hunit
  have hrow := frameRow_store (s := s) hunit (by omega) (by simp [formOk, hop, hform])
  obtain ⟨hintact, hcalm⟩ := atUnit_passed s.hub p f
  have hshapers' : (atUnit p f s.hub).shapers = [] := (hcalm hquiet).shapers.trans hshapers
  have hstu' : (atUnit p f s.hub).stu.waiting = [] := by rw [atUnit_stu, hstu]
  have hblocked : flushBlocked (reqOf p f s.hub) (atUnit p f s.hub) = false := by
    simp [flushBlocked, reqsInFlight, heldAtShapers, hstu', hshapers', hintact.coh, htxs, hwaiting]
  have hanswer : answerStatus (reqOf p f s.hub) stOk 0 (atUnit p f s.hub) =
      sendFrame (completionOf f stOk 0 0 false [] (atUnit p f s.hub)) (atUnit p f s.hub) := by
    simp [answerStatus, answer, reqOf, hform, stOk, stDenied]
  have henter : stuEnter (reqOf p f s.hub) (atUnit p f s.hub) = answerStatus (reqOf p f s.hub) stOk 0 (atUnit p f s.hub) := by
    have hop' : (reqOf p f s.hub).frame.opcode = 5 := hop
    simp [stuEnter, hstu', stuTry, hop', shapeIn_free _ hshapers', deliverAll, deliverStore, hblocked]
  rw [henter, hanswer] at hrow
  have hsent := intact_of_switch (sendFrame_switch (completionOf f stOk 0 0 false [] (atUnit p f s.hub)) (atUnit p f s.hub))
  exact hubAnswers_of_row hexec hrow ⟨⟨hsent.mem.trans hintact.mem, hsent.poison.trans hintact.poison⟩,
    atUnit p f s.hub, ⟨hintact.mem, hintact.poison⟩, rfl⟩

end Act

end Sys2Proof.Proofs

/-!
PROOFS. A frame on its way out (R246 to R278) neither reads nor writes the STU's counter of translations served (R163): the counter may as
well be written before the frame leaves.
-/
namespace Sys2Proof.Proofs

open Machine Safety Laws

/-! ### The register table -/

theorem tab_set_comm_of_lt {α : Type} (t : Tab α) {i j : Nat} (a b : α) (hij : i < j) :
    Tab.set (Tab.set t i a) j b = Tab.set (Tab.set t j b) i a := by
  induction t with
  | nil => simp [Tab.set, hij.ne, hij.ne', hij, hij.not_gt]
  | cons c t ih =>
    obtain ⟨k, c⟩ := c
    rcases lt_trichotomy k i with hki | rfl | hik
    · simp [Tab.set, hki.ne, hki.not_gt, (hki.trans hij).ne, (hki.trans hij).not_gt, ih]
    · simp [Tab.set, hij.ne, hij.not_gt]
    · rcases lt_trichotomy k j with hkj | rfl | hjk
      · simp [Tab.set, hik.ne', hik, hkj.ne, hkj.not_gt, hij.ne, hij.not_gt]
      · simp [Tab.set, hik, hik.ne, hik.ne', hik.not_gt]
      · simp [Tab.set, hik, hik.ne', hjk, hjk.ne', hij, hij.ne, hij.ne', hij.not_gt]

/-- Two entries of a table may be written in either order. -/
theorem tab_set_comm {α : Type} (t : Tab α) {i j : Nat} (a b : α) (hij : i ≠ j) :
    Tab.set (Tab.set t i a) j b = Tab.set (Tab.set t j b) i a := by
  rcases Nat.lt_or_gt_of_ne hij with hlt | hgt
  · exact tab_set_comm_of_lt t a b hlt
  · exact (tab_set_comm_of_lt t b a hgt).symm

/-- The hub with another value in the STU's counter of translations that the caches served. -/
def withHits (v : Word) (h : Hub) : Hub := putReg 0xA3 0x800 v h

section Hits

variable (v : Word) (h : Hub)

theorem hitsKey_ne_of_low {page off : Nat} (hoff : off < 0x800) : regKey page off ≠ regKey 0xA3 0x800 := by
  unfold regKey
  omega

theorem hitsKey_ne_of_page {page off : Nat} (hpage : page ≠ 0xA3) (hoff : off < 0x1000) : regKey page off ≠ regKey 0xA3 0x800 := by
  unfold regKey
  omega

theorem hitsKey_ne_of_slot {page slot : Nat} (hslot : 0 < slot) (hlt : slot < 256) :
    regKey page (0x800 + 8 * slot) ≠ regKey 0xA3 0x800 := by
  unfold regKey
  omega

theorem getReg_withHits {page off : Nat} (hne : regKey page off ≠ regKey 0xA3 0x800) :
    getReg page off (withHits v h) = getReg page off h := by
  rw [withHits, getReg_putReg, if_neg hne.symm]

theorem putReg_withHits {page off : Nat} (hne : regKey page off ≠ regKey 0xA3 0x800) (w : Word) :
    putReg page off w (withHits v h) = withHits v (putReg page off w h) := by
  simp only [withHits, putReg, tab_set_comm h.regs v w hne.symm]

/-- Registers below the counters. -/
theorem getReg_withHits_low {page off : Nat} (hoff : off < 0x800) : getReg page off (withHits v h) = getReg page off h :=
  getReg_withHits v h (hitsKey_ne_of_low hoff)

theorem putReg_withHits_low {page off : Nat} (hoff : off < 0x800) (w : Word) :
    putReg page off w (withHits v h) = withHits v (putReg page off w h) :=
  putReg_withHits v h (hitsKey_ne_of_low hoff) w

theorem regBit_withHits {page off : Nat} (hoff : off < 0x800) (i : Nat) : regBit page off i (withHits v h) = regBit page off i h := by
  rw [regBit, getReg_withHits_low v h hoff, regBit]

theorem regFld_withHits {page off : Nat} (hoff : off < 0x800) (hi lo : Nat) :
    regFld page off hi lo (withHits v h) = regFld page off hi lo h := by
  rw [regFld, getReg_withHits_low v h hoff, regFld]

theorem putReg_of_withHits {a b : Hub} {page off : Nat} {w : Word} (hne : regKey page off ≠ regKey 0xA3 0x800) (hb : b = withHits v a) :
    putReg page off w b = withHits v (putReg page off w a) := hb ▸ putReg_withHits v a hne w

/-- A choice that does not look at the counter. -/
theorem withHits_ite {c : Prop} [Decidable c] {a b a' b' : Hub} (ha : a' = withHits v a) (hb : b' = withHits v b) :
    (if c then a' else b') = withHits v (if c then a else b) := by
  rw [ha, hb, apply_ite (withHits v)]

theorem withHits_armoire : (withHits v h).armoire = h.armoire := rfl
theorem withHits_clock : (withHits v h).clock = h.clock := rfl
theorem withHits_time : (withHits v h).time = h.time := rfl
theorem withHits_mirror : (withHits v h).mirror = h.mirror := rfl
theorem withHits_devTime : (withHits v h).devTime = h.devTime := rfl

theorem emit_of_withHits {a b : Hub} {o : Out} (hb : b = withHits v a) : emit o b = withHits v (emit o a) := hb ▸ rfl
theorem putPort_withHits (p : Nat) (q : Port) : putPort p q (withHits v h) = withHits v (putPort p q h) := rfl
theorem putPort_of_withHits {a b : Hub} {p : Nat} {q : Port} (hb : b = withHits v a) : putPort p q b = withHits v (putPort p q a) :=
  hb ▸ rfl
theorem getPort_withHits (p : Nat) : getPort p (withHits v h) = getPort p h := rfl

/-! ### Errors and counters -/

theorem eventRegs_low {q : PageInfo} {e m : Nat} (hregs : eventRegs q = some (e, m)) : e < 0x800 ∧ m < 0x800 := by
  unfold eventRegs at hregs
  split at hregs <;> simp at hregs <;> omega

theorem errActive_withHits (page : Nat) : errActive page (withHits v h) = errActive page h := by
  simp only [errActive, getReg_withHits_low v h (show 0x18 < 0x800 by norm_num), getReg_withHits_low v h (show 0x1C < 0x800 by norm_num)]

theorem sigCond_withHits (page : Nat) : sigCond page (withHits v h) = sigCond page h := by
  unfold sigCond
  rw [errActive_withHits]
  split
  · rfl
  · split
    · rfl
    · next hregs =>
      obtain ⟨he, hm⟩ := eventRegs_low hregs
      rw [getReg_withHits_low v h he, getReg_withHits_low v h hm]

theorem signalMsix_withHits (page : Nat) : signalMsix page (withHits v h) = withHits v (signalMsix page h) := by
  simp only [signalMsix, getReg_withHits_low v h (show 0x30 < 0x800 by norm_num)]
  split <;> rfl

theorem captureFirst_withHits (page bit : Nat) : captureFirst page bit (withHits v h) = withHits v (captureFirst page bit h) := by
  simp only [captureFirst, getReg_withHits_low v h (show 0x20 < 0x800 by norm_num)]
  split <;> exact putReg_withHits_low v h (by norm_num) _

theorem setErrBit_withHits (page bit : Nat) : setErrBit page bit (withHits v h) = withHits v (setErrBit page bit h) := by
  simp only [setErrBit, getReg_withHits_low v h (show 0x18 < 0x800 by norm_num), regBit_withHits v h (show 0x1C < 0x800 by norm_num),
    putReg_withHits_low v h (show 0x18 < 0x800 by norm_num)]
  split
  · rfl
  · exact captureFirst_withHits v _ page bit

theorem raiseQuiet_withHits (page bit : Nat) : raiseQuiet page bit (withHits v h) = withHits v (raiseQuiet page bit h) := by
  simp only [raiseQuiet, setErrBit_withHits, sigCond_withHits, signalMsix_withHits]
  split <;> rfl

theorem armoireAppend_withHits (kind : Nat) (detail : List Byte) :
    armoireAppend kind detail (withHits v h) = withHits v (armoireAppend kind detail h) := by
  have hlost : regKey 0x310 0x818 ≠ regKey 0xA3 0x800 := hitsKey_ne_of_page (by norm_num) (by norm_num)
  have hkept : regKey 0x310 0x810 ≠ regKey 0xA3 0x800 := hitsKey_ne_of_page (by norm_num) (by norm_num)
  simp only [armoireAppend, getReg_withHits v h hlost, getReg_withHits v h hkept, withHits_armoire, withHits_clock, withHits_time]
  exact withHits_ite v (putReg_of_withHits v hlost rfl) (putReg_of_withHits v hkept rfl)

theorem count_withHits {page slot : Nat} (hne : regKey page (0x800 + 8 * slot) ≠ regKey 0xA3 0x800) (n : Nat) :
    count page slot n (withHits v h) = withHits v (count page slot n h) := by
  unfold count
  split
  · rfl
  · dsimp only
    rw [getReg_withHits v h hne, regBit_withHits v h (show 0x10 < 0x800 by norm_num)]
    simp only [putReg_withHits v h hne, raiseQuiet_withHits, armoireAppend_withHits]
    split_ifs <;> rfl

theorem count_of_withHits {a b : Hub} {page slot n : Nat} (hne : regKey page (0x800 + 8 * slot) ≠ regKey 0xA3 0x800)
    (hb : b = withHits v a) : count page slot n b = withHits v (count page slot n a) := hb ▸ count_withHits v a hne n

theorem countKib_withHits {page slot : Nat} (hne : regKey page (0x800 + 8 * slot) ≠ regKey 0xA3 0x800) (n : Nat) :
    countKib page slot n (withHits v h) = withHits v (countKib page slot n h) := by
  unfold countKib
  dsimp only
  exact count_of_withHits v hne rfl

theorem countKib_of_withHits {a b : Hub} {page slot n : Nat} (hne : regKey page (0x800 + 8 * slot) ≠ regKey 0xA3 0x800)
    (hb : b = withHits v a) : countKib page slot n b = withHits v (countKib page slot n a) := hb ▸ countKib_withHits v a hne n

/-- Counters of other pages. -/
theorem count_withHits_page (slot n : Nat) {page : Nat} (hpage : page ≠ 0xA3) (hlt : slot < 256) :
    count page slot n (withHits v h) = withHits v (count page slot n h) := count_withHits v h (hitsKey_ne_of_page hpage (by omega)) n

/-! ### The mirror -/

theorem mirrorHit_withHits (k sp : Nat) (egress : Bool) (f : Frame) (hk : k < 4) :
    mirrorHit k sp egress f (withHits v h) = mirrorHit k sp egress f h := by
  have hword (j : Nat) (hj : j < 4) : getReg 0x48 (0x80 + 32 * k + 8 * j) (withHits v h) = getReg 0x48 (0x80 + 32 * k + 8 * j) h :=
    getReg_withHits_low v h (by omega)
  simp only [mirrorHit, hword 0 (by norm_num), hword 1 (by norm_num), hword 2 (by norm_num), hword 3 (by norm_num),
    regBit_withHits v h (show 0x120 + 4 * k < 0x800 by omega), regBit_withHits v h (show 0x100 + 8 * k < 0x800 by omega)]

theorem mirrorTake_withHits (sp : Nat) (egress : Bool) (f : Frame) : mirrorTake sp egress f (withHits v h) = mirrorTake sp egress f h := by
  unfold mirrorTake
  refine List.foldl_ext _ _ _ fun acc k hk => ?_
  have hlt : k < 4 := List.mem_range.1 hk
  rw [mirrorHit_withHits v h k sp egress f hlt, regFld_withHits v h (show 0x120 + 4 * k < 0x800 by omega)]

theorem mirrorRecord_withHits (f : Frame) (sp flags : Nat) (d : DropCause) :
    mirrorRecord f sp flags d (withHits v h) = mirrorRecord f sp flags d h := by
  simp only [mirrorRecord, regBit_withHits v h (show 0x40 < 0x800 by norm_num)]
  rfl

theorem enabled_withHits (page : Nat) : enabled page (withHits v h) = enabled page h := by
  rw [enabled, regBit_withHits v h (by norm_num), enabled]
  rfl

theorem mirrorPoint_withHits (sp : Nat) (egress cut : Bool) (d : DropCause) (f : Frame) :
    mirrorPoint sp egress cut d f (withHits v h) = withHits v (mirrorPoint sp egress cut d f h) := by
  have hslot (slot : Nat) (hlt : slot < 256) : regKey 0x48 (0x800 + 8 * slot) ≠ regKey 0xA3 0x800 :=
    hitsKey_ne_of_page (by norm_num) (by omega)
  simp only [mirrorPoint, enabled_withHits, mirrorTake_withHits, mirrorRecord_withHits, regFld_withHits v h (show 0x40 < 0x800 by norm_num),
    regFld_withHits v h (show 0x50 < 0x800 by norm_num), getReg_withHits_low v h (show 0x48 < 0x800 by norm_num),
    regBit_withHits v h (show 0x40 < 0x800 by norm_num), withHits_mirror, withHits_devTime]
  exact withHits_ite v rfl (withHits_ite v rfl (withHits_ite v
    (count_of_withHits v (hslot 1 (by norm_num)) rfl) (count_of_withHits v (hslot 0 (by norm_num)) rfl)))

theorem mirrorPoint_of_withHits {a b : Hub} {sp : Nat} {egress cut : Bool} {d : DropCause} {f : Frame} (hb : b = withHits v a) :
    mirrorPoint sp egress cut d f b = withHits v (mirrorPoint sp egress cut d f a) := hb ▸ mirrorPoint_withHits v a sp egress cut d f

theorem dropFrame_withHits (sp : Nat) (egress : Bool) (d : DropCause) (f : Frame) :
    dropFrame sp egress d f (withHits v h) = withHits v (dropFrame sp egress d f h) := mirrorPoint_withHits ..

end Hits

section Hits

variable (v : Word) (h : Hub)

/-! ### The switch buffer and the ports -/

theorem bindMode_withHits (p : Nat) : bindMode p (withHits v h) = bindMode p h := by
  rw [bindMode, regFld_withHits v h (show 0x58 < 0x800 by norm_num)]
  rfl

theorem portReady_withHits (p : Nat) : portReady p (withHits v h) = portReady p h := by
  rw [portReady, regBit_withHits v h (show 0x40 < 0x800 by norm_num)]
  rfl

theorem shareRoom_withHits (p n : Nat) : shareRoom p n (withHits v h) = shareRoom p n h := by
  rw [shareRoom, regFld_withHits v h (show 0x48 < 0x800 by norm_num)]
  rfl

theorem admitTo_withHits (ingress p tc n : Nat) : admitTo ingress p tc n (withHits v h) = admitTo ingress p tc n h := by
  simp only [admitTo, shareRoom_withHits]
  rfl

theorem canSend_withHits (p c : Nat) : canSend p c (withHits v h) = canSend p c h := rfl

theorem tc7Strict_withHits (p : Nat) : tc7Strict p (withHits v h) = tc7Strict p h := by
  rw [tc7Strict, regFld_withHits v h (show 0x40 < 0x800 by norm_num)]
  rfl

theorem classWeight_withHits (c : Nat) : classWeight c (withHits v h) = classWeight c h := by
  rw [classWeight, regFld_withHits v h (show 0x50 < 0x800 by norm_num), classWeight]

theorem drrPick_withHits (p fuel at_ : Nat) (deficits : List Nat) :
    drrPick p (withHits v h) fuel at_ deficits = drrPick p h fuel at_ deficits := by
  induction fuel generalizing at_ deficits with
  | zero => rfl
  | succ fuel ih =>
    simp only [drrPick, ih, classWeight_withHits, canSend_withHits]
    rfl

/-- R268: one queued frame is looked at: admitted, where it waits and there is room. -/
def admitStep (acc : List QFrame × Hub) (q : QFrame) : List QFrame × Hub :=
  if !q.waits || acc.1.any (fun b => b.waits && b.egress == q.egress && b.ingress == q.ingress && b.frame.tc == q.frame.tc) then
    (acc.1 ++ [q], acc.2)
  else
    match admitTo q.ingress q.egress q.frame.tc q.cells acc.2 with
    | some inReserve =>
      (acc.1 ++ [{ q with waits := false, reserve := inReserve }],
        { acc.2 with egress := acc.2.egress ++ [{ q with waits := false, reserve := inReserve }] })
    | none => (acc.1 ++ [q], acc.2)

theorem admitWaiting_eq : admitWaiting h = { h with egress :=
    (h.egress.foldl admitStep ([], { h with egress := h.egress.filter (fun q => !q.waits) })).1 } := rfl

theorem admitStep_withHits (qs : List QFrame) (q : QFrame) :
    admitStep (qs, withHits v h) q = ((admitStep (qs, h) q).1, withHits v (admitStep (qs, h) q).2) := by
  simp only [admitStep, admitTo_withHits]
  split
  · rfl
  · split <;> rfl

theorem foldl_admitStep_withHits (l : List QFrame) (qs : List QFrame) :
    (l.foldl admitStep (qs, withHits v h)).1 = (l.foldl admitStep (qs, h)).1 := by
  induction l generalizing qs h with
  | nil => rfl
  | cons q l ih =>
    rw [List.foldl_cons, List.foldl_cons, admitStep_withHits]
    exact ih _ _

theorem admitWaiting_withHits : admitWaiting (withHits v h) = withHits v (admitWaiting h) := by
  have hfold := foldl_admitStep_withHits v { h with egress := h.egress.filter (fun q => !q.waits) } h.egress []
  rw [admitWaiting_eq, admitWaiting_eq, ← hfold]
  rfl

/-! ### Sending -/

/-- R610: what a bridge port counts of a frame it sends. -/
theorem bridgeCounts_withHits {p bytes : Nat} {a b : Hub} (hb : b = withHits v a) :
    (if bindMode p b = 2 then countKib 0x340 2 bytes (count 0x340 0 1 b) else b) =
      withHits v (if bindMode p a = 2 then countKib 0x340 2 bytes (count 0x340 0 1 a) else a) := by
  have hne (slot : Nat) (hlt : slot < 256) : regKey 0x340 (0x800 + 8 * slot) ≠ regKey 0xA3 0x800 :=
    hitsKey_ne_of_page (by norm_num) (by omega)
  subst hb
  rw [bindMode_withHits]
  exact withHits_ite v (countKib_of_withHits v (hne 2 (by norm_num)) (count_of_withHits v (hne 0 (by norm_num)) rfl)) rfl

theorem sendHead_withHits (p c : Nat) : sendHead p c (withHits v h) = withHits v (sendHead p c h) := by
  unfold sendHead
  rw [show headOf p c (withHits v h) = headOf p c h from rfl]
  split
  · rfl
  · next q _ =>
    have hadmit := admitWaiting_withHits v { h with egress := removeFirst p c h.egress }
    have hslot (slot : Nat) (hpos : 0 < slot) (hlt : slot < 256) : regKey (0x10 + p) (0x800 + 8 * slot) ≠ regKey 0xA3 0x800 :=
      hitsKey_ne_of_slot hpos hlt
    simp only [getPort_withHits, withHits_devTime, show ∀ o, tc7Used o (withHits v h) = tc7Used o h from fun _ => rfl]
    exact mirrorPoint_of_withHits v (bridgeCounts_withHits v (countKib_of_withHits v (hslot 3 (by norm_num) (by norm_num))
      (count_of_withHits v (hslot 1 (by norm_num) (by norm_num)) (emit_of_withHits v (putPort_of_withHits v hadmit)))))

theorem drainPort_withHits (p fuel : Nat) : drainPort p fuel (withHits v h) = withHits v (drainPort p fuel h) := by
  induction fuel generalizing h with
  | zero => rfl
  | succ fuel ih =>
    simp only [drainPort, portReady_withHits, tc7Strict_withHits, canSend_withHits, getPort_withHits, drrPick_withHits, sendHead_withHits,
      putPort_withHits]
    split
    · rfl
    · split
      · exact ih _
      · split
        · rfl
        · exact ih _

theorem cutsThrough_withHits (ingress p : Nat) (f : Frame) : cutsThrough ingress p f (withHits v h) = cutsThrough ingress p f h := by
  simp only [cutsThrough, admitTo_withHits, regBit_withHits v h (show 0x40 < 0x800 by norm_num), getPort_withHits]
  rfl

/-! ### Frames on their way -/

/-- R272: a frame that passes into a full enough class is marked. -/
def marks (p : Nat) (f : Frame) (h : Hub) : Bool := decide (regFld 0x40 0x4C 19 0 h ≤ classCells p f.tc h)

/-- The frame as it is queued, one hop on. -/
def hopped (p : Nat) (f : Frame) (h : Hub) : Frame := { f with hops := f.hops + 1, cm := f.cm || marks p f h }

/-- R268: its place in the queue. -/
def queuedAs (ingress p : Nat) (f : Frame) (h : Hub) : QFrame :=
  match admitTo ingress p f.tc (frameCells (hopped p f h)) h with
  | some inReserve => { egress := p, ingress := ingress, cells := frameCells (hopped p f h), reserve := inReserve,
                        cut := cutsThrough ingress p (hopped p f h) h, frame := hopped p f h }
  | none => { egress := p, ingress := ingress, cells := frameCells (hopped p f h), reserve := false, waits := true, frame := hopped p f h }

/-- R267: a frame is queued and counted, and what may leave the port leaves. -/
def onQueue (p : Nat) (q : QFrame) (marked cut : Bool) (h : Hub) : Hub :=
  let h1 := { h with egress := h.egress ++ [q] }
  let h2 := count 0x40 0 1 (if marked then count 0x40 2 1 h1 else h1)
  let h3 := if cut then count 0x40 1 1 h2 else h2
  drainPort p h3.egress.length h3

theorem onQueue_withHits (p : Nat) (q : QFrame) (marked cut : Bool) :
    onQueue p q marked cut (withHits v h) = withHits v (onQueue p q marked cut h) := by
  have hne (slot : Nat) (hlt : slot < 256) : regKey 0x40 (0x800 + 8 * slot) ≠ regKey 0xA3 0x800 :=
    hitsKey_ne_of_page (by norm_num) (by omega)
  have hdrain {a b : Hub} (hb : b = withHits v a) : drainPort p b.egress.length b = withHits v (drainPort p a.egress.length a) := by
    subst hb
    exact drainPort_withHits v a p _
  have hqueued : count 0x40 0 1 (if marked then count 0x40 2 1 { withHits v h with egress := (withHits v h).egress ++ [q] }
        else { withHits v h with egress := (withHits v h).egress ++ [q] }) =
      withHits v (count 0x40 0 1 (if marked then count 0x40 2 1 { h with egress := h.egress ++ [q] }
        else { h with egress := h.egress ++ [q] })) :=
    count_of_withHits v (hne 0 (by norm_num)) (withHits_ite v (count_of_withHits v (hne 2 (by norm_num)) rfl) rfl)
  exact hdrain (withHits_ite v (count_of_withHits v (hne 1 (by norm_num)) hqueued) hqueued)

theorem marks_withHits (p : Nat) (f : Frame) : marks p f (withHits v h) = marks p f h := by
  rw [marks, regFld_withHits v h (show 0x4C < 0x800 by norm_num)]
  rfl

theorem hopped_withHits (p : Nat) (f : Frame) : hopped p f (withHits v h) = hopped p f h := by
  rw [hopped, marks_withHits, hopped]

theorem queuedAs_withHits (ingress p : Nat) (f : Frame) : queuedAs ingress p f (withHits v h) = queuedAs ingress p f h := by
  simp only [queuedAs, hopped_withHits, admitTo_withHits, cutsThrough_withHits]

section Report

variable {rz : Nat → Nat → Hub → Hub} (hrz : ∀ page bit h, page ≠ 0xA3 → rz page bit (withHits v h) = withHits v (rz page bit h))

include hrz

theorem injectFrame_withHits (f : Frame) :
    injectFrame rz f (withHits v h) = ((injectFrame rz f h).1, withHits v (injectFrame rz f h).2) := by
  have hne (slot : Nat) (hlt : slot < 256) : regKey 0x300 (0x800 + 8 * slot) ≠ regKey 0xA3 0x800 :=
    hitsKey_ne_of_page (by norm_num) (by omega)
  have hspent := count_of_withHits (a := clearInjection h) (b := clearInjection (withHits v h)) (n := 1) v (hne 3 (by norm_num)) rfl
  have hnoted : putReg 0x40 0x18 (putBit (getReg 0x40 0x18 (count 0x300 3 1 (clearInjection (withHits v h)))) 2 true)
        (count 0x300 3 1 (clearInjection (withHits v h))) =
      withHits v (putReg 0x40 0x18 (putBit (getReg 0x40 0x18 (count 0x300 3 1 (clearInjection h))) 2 true)
        (count 0x300 3 1 (clearInjection h))) := by
    rw [hspent, getReg_withHits_low v _ (by norm_num), putReg_withHits_low v _ (by norm_num)]
  unfold injectFrame
  rw [show (withHits v h).ras = h.ras from rfl]
  split
  · dsimp only
    split
    · exact Prod.ext rfl ((congrArg (rz 0x40 18) hnoted).trans (hrz 0x40 18 _ (by norm_num)))
    · have hcount : regKey 0x40 (0x800 + 8 * 5) ≠ regKey 0xA3 0x800 := hitsKey_ne_of_page (by norm_num) (by norm_num)
      exact Prod.ext rfl (count_of_withHits v hcount ((congrArg (rz 0x40 17) hnoted).trans (hrz 0x40 17 _ (by norm_num))))
  · rfl

omit hrz in
/-- R267: a frame that the port takes and no injected error meets is queued. -/
theorem enqueue_queues {h h0 : Hub} {ingress p : Nat} {f f0 : Frame} (hready : portReady p h = true)
    (hhops : ¬ (if regFld 0x348 0x104 5 0 h = 0 then 63 else regFld 0x348 0x104 5 0 h) < f.hops + 1)
    (hinject : injectFrame rz f h = (some f0, h0)) :
    enqueue rz ingress p f h =
      onQueue p (queuedAs ingress p f0 h0) (marks p f0 h0 && !f0.cm) (cutsThrough ingress p (hopped p f0 h0) h0) h0 := by
  unfold enqueue
  rw [hready, hinject]
  exact if_neg hhops

theorem enqueue_withHits (ingress p : Nat) (f : Frame) : enqueue rz ingress p f (withHits v h) = withHits v (enqueue rz ingress p f h) := by
  have hinject := injectFrame_withHits v h hrz f
  have hslot : regKey (0x10 + p) (0x800 + 8 * 10) ≠ regKey 0xA3 0x800 := hitsKey_ne_of_slot (by norm_num) (by norm_num)
  by_cases hready : portReady p h = true
  · by_cases hhops : (if regFld 0x348 0x104 5 0 h = 0 then 63 else regFld 0x348 0x104 5 0 h) < f.hops + 1
    · simp only [enqueue, portReady_withHits, regFld_withHits v h (show 0x104 < 0x800 by norm_num), hready, hhops, if_true, Bool.not_true,
        Bool.false_eq_true, if_false, dropFrame_withHits, count_withHits_page v _ 17 1 (show 0x348 ≠ 0xA3 by norm_num) (by norm_num),
        hrz 0x348 21 _ (by norm_num)]
    · rcases hr : injectFrame rz f h with ⟨o, h0⟩
      rw [hr] at hinject
      cases o with
      | none =>
        simp only [enqueue, portReady_withHits, regFld_withHits v h (show 0x104 < 0x800 by norm_num), hready, hhops, Bool.not_true,
          Bool.false_eq_true, if_false, hinject, hr, dropFrame_withHits]
      | some f0 =>
        rw [enqueue_queues hready hhops hr, enqueue_queues ((portReady_withHits ..).trans hready)
          (by rwa [regFld_withHits v h (by norm_num)]) hinject]
        rw [queuedAs_withHits, marks_withHits, hopped_withHits, cutsThrough_withHits, onQueue_withHits]
  · have hdown : portReady p h = false := by simpa using hready
    simp only [enqueue, portReady_withHits, hdown, Bool.not_false, if_true, dropFrame_withHits, count_withHits v _ hslot]

omit hrz in
theorem ringPort_withHits (ports : List Nat) (f : Frame) : ringPort ports f (withHits v h) = ringPort ports f h := by
  simp only [ringPort, portReady_withHits]

/-- R276: the report of a frame that finds no way. -/
theorem noWay_withHits : rz 0x348 23 (count 0x348 18 1 (withHits v h)) = withHits v (rz 0x348 23 (count 0x348 18 1 h)) := by
  rw [count_withHits_page v _ 18 1 (by norm_num) (by norm_num), hrz _ _ _ (by norm_num)]

theorem sendRing_withHits (ingress : Nat) (east : Bool) (f : Frame) :
    sendRing rz ingress east f (withHits v h) = withHits v (sendRing rz ingress east f h) := by
  have hcount (slot : Nat) (hlt : slot < 256) (x : Hub) : count 0x348 slot 1 (withHits v x) = withHits v (count 0x348 slot 1 x) :=
    count_withHits_page v x slot 1 (by norm_num) hlt
  simp only [sendRing, ringPort_withHits, regBit_withHits v h (show 0x104 < 0x800 by norm_num), dropFrame_withHits,
    noWay_withHits v _ hrz, hcount 19 (by norm_num)]
  split
  · have hturn (fb : Bool) : (if fb then withHits v (count 0x348 19 1 h) else withHits v h) =
        withHits v (if fb then count 0x348 19 1 h else h) := withHits_ite v rfl rfl
    rw [hturn, hcount 16 (by norm_num), enqueue_withHits v _ hrz]
  · split
    · split
      · rw [hcount 16 (by norm_num), enqueue_withHits v _ hrz]
      · rfl
    · rfl

theorem sendBridge_withHits (f : Frame) : sendBridge rz f (withHits v h) = withHits v (sendBridge rz f h) := by
  have hport : bridgePort f (withHits v h) = bridgePort f h := by simp only [bridgePort, portReady_withHits]
  rw [sendBridge, hport, sendBridge]
  split
  · exact enqueue_withHits v h hrz _ _ _
  · exact dropFrame_withHits ..

omit hrz in
theorem agentPort_withHits (unit : Nat) : agentPort unit (withHits v h) = agentPort unit h := by
  simp only [agentPort, bindMode_withHits, getReg_withHits_low v h (show 0x58 < 0x800 by norm_num)]

/-- R274 to R276: a frame that the module makes. -/
theorem sendOut_withHits (f : Frame) : sendOut rz f (withHits v h) = withHits v (sendOut rz f h) := by
  have hvalid : moduleValid (withHits v h) = moduleValid h := regBit_withHits v h (by norm_num) 31
  have hid : moduleId (withHits v h) = moduleId h := regFld_withHits v h (by norm_num) 9 0
  simp only [sendOut, hvalid, hid, agentPort_withHits, dropFrame_withHits, noWay_withHits v _ hrz, enqueue_withHits v h hrz,
    sendRing_withHits v h hrz, sendBridge_withHits v h hrz, show pairJoined (withHits v h) = pairJoined h from rfl,
    show (withHits v h).ras = h.ras from rfl, show routeOf f.dstModule none (withHits v h) = routeOf f.dstModule none h from rfl]
  split
  · rfl
  · split
    · split
      · rfl
      · exact withHits_ite v rfl rfl
    · split
      · rfl
      · split <;> rfl

end Report

/-! ### Signals -/

theorem csat_withHits {page : Nat} (hpage : page ≠ 0xA3) : csat page (withHits v h) = csat page h := by
  unfold csat
  split
  · rfl
  · rw [Bool.eq_iff_iff, List.any_eq_true, List.any_eq_true]
    refine exists_congr fun k => and_congr_right fun hk => ?_
    have hlt : k < 24 := List.mem_range.1 hk
    rw [getReg_withHits v h (hitsKey_ne_of_page hpage (by omega))]

theorem statusReg_withHits {page : Nat} (hpage : page ≠ 0xA3) : statusReg page (withHits v h) = statusReg page h := by
  unfold statusReg
  rw [errActive_withHits, csat_withHits v h hpage]
  rfl

theorem eventFrame_withHits {page : Nat} (hpage : page ≠ 0xA3) : eventFrame page (withHits v h) = eventFrame page h := by
  have hid : moduleId (withHits v h) = moduleId h := regFld_withHits v h (by norm_num) 9 0
  simp only [eventFrame, statusReg_withHits v h hpage, getReg_withHits_low v h (show 0x30 < 0x800 by norm_num), hid,
    getReg_withHits_low v h (show 0x18 < 0x800 by norm_num), regFld_withHits v h (show 0x40 < 0x800 by norm_num), withHits_devTime]
  cases pageInfo page with
  | none => rfl
  | some q =>
    cases hregs : eventRegs q with
    | none => simp only [hregs]
    | some r => simp only [hregs, getReg_withHits_low v h (eventRegs_low hregs).1]

theorem signalPage_withHits {page : Nat} (hpage : page ≠ 0xA3) : signalPage page (withHits v h) = withHits v (signalPage page h) := by
  simp only [signalPage, signalMsix_withHits, regBit_withHits v h (show 0x30 < 0x800 by norm_num), eventFrame_withHits v h hpage,
    sendOut_withHits v _ (fun p b x _ => raiseQuiet_withHits v x p b)]
  exact withHits_ite v rfl rfl

theorem raise_withHits (page bit : Nat) (hpage : page ≠ 0xA3) : raise page bit (withHits v h) = withHits v (raise page bit h) := by
  simp only [raise, withSignal, setErrBit_withHits, sigCond_withHits, signalPage_withHits v _ hpage]
  exact withHits_ite v rfl rfl

/-- A frame that leaves and a translation that the caches served may be noted in either order. -/
theorem sendFrame_withHits (f : Frame) : sendFrame f (withHits v h) = withHits v (sendFrame f h) :=
  sendOut_withHits v h (fun page bit x hpage => raise_withHits v x page bit hpage) f

end Hits

end Sys2Proof.Proofs

/-!
PROOFS. What a READ is answered (R176, R255), and the requests of O23 together.
-/
namespace Sys2Proof.Proofs

open Machine Safety Laws

section Read

variable {p : Nat} {f : Frame} {off : Nat} {s : State} {r : Req} {h : Hub}

/-- R163: a hit counts in the STU's counter or, where its counters are frozen, nowhere. -/
theorem hitAt_eq (r : Req) (h0 h : Hub) : hitAt r h0 h = h ∨ ∃ v, hitAt r h0 h = withHits v h := by
  have hcount : count 0xA3 0 1 h = h ∨ ∃ v, count 0xA3 0 1 h = withHits v h := by
    obtain ⟨q, hpage, hclass⟩ : ∃ q, pageInfo 0xA3 = some q ∧ counterClass q 0 = 1 := ⟨_, rfl, rfl⟩
    simp only [count, hpage, hclass, if_true]
    split
    · exact Or.inl rfl
    · exact Or.inr ⟨_, rfl⟩
  unfold hitAt countHit
  dsimp only
  split
  · exact hcount
  · exact Or.inl rfl

theorem memRead_of_intact {a b : Hub} (k : Intact a b) (off n : Nat) : memRead off n b = memRead off n a := by
  unfold memRead anyPoison
  rw [k.poison, k.mem]

theorem countSlice_intact (line slot n : Nat) (h : Hub) : Intact h (countSlice line slot n h) := ⟨rfl, rfl, rfl, rfl⟩

/-- R255: the completion of a read as it is sent, its SCARRY the payload's or the tile's own. -/
def readAnswer (f : Frame) (off sc : Nat) (data h : Hub) : Frame :=
  { completionOf f (if (memRead off f.len data).2 then stPoisoned else stOk) 0 0 (memRead off f.len data).2 (memRead off f.len data).1 h
    with scarry := sc }

/-- R255, R305: a read of a tile in a T1 slot sends its bytes. -/
theorem homeAct_read (hreq : HomeReq p f off r) (hop : f.opcode = 1) (hquiet : h.ras.injection = none)
    (hst : (getTile (tileOf off) h).st = .upper) :
    ∃ y sc, Intact h y ∧ homeAct (started r) h = sendFrame (readAnswer f off sc h y) y := by
  obtain ⟨hsrc, hframe, hoff, -⟩ := hreq
  subst hframe hoff
  have hmeter := meterReq_passed h r
  have hdata : homeData r.off r.frame.len (meterReq r h) = memRead r.off r.frame.len h := by
    rw [homeData, getTile_of_tier hmeter.1.tier, hst]
    exact memRead_of_intact hmeter.1 _ _
  refine ⟨meterReq r h, (readScarry r.off r.frame.len (meterReq r h)).getD (scarryOf (memRead r.off r.frame.len h).1), hmeter.1, ?_⟩
  simp only [homeAct, started_req, hsrc, hop, if_true, meetInjection_of_quiet (hmeter.2 hquiet).quiet, hdata, answerRead]
  rfl

/-- R176, R305: what a READ whose lines T0 holds is answered. -/
theorem read_answers {c : Instr} (hexec : exec c s = frameRow p f s) (hop : f.opcode = 1)
    (hst : (getTile (tileOf off) s.hub).st = .upper) (hfilter : s.hub.coh.filter = []) (hmeets : meetsStore p f off s = true)
    (hlines : ∀ l ∈ linesOf off f.len, inT0 l s.hub = true) :
    HubAnswers c s (fun h => ∃ h1 sc, SameMemory s.hub h1 ∧ SameMemory s.hub h ∧ sends (readAnswer f off sc s.hub) h1 h) := by
  obtain ⟨r, h, h0, hreq, hintact, hcalm, htxs, hrow⟩ := frameRow_homeStart hmeets (by omega)
  have hinT0 : ∀ l ∈ linesOf off f.len, inT0 l h = true := fun l hl => by
    rw [inT0, hintact.coh]
    exact hlines l hl
  rw [homeStart_read hreq (by rw [hintact.coh, hfilter]) htxs hop (by rw [getTile_of_tier hintact.tier, hst]) hinT0]
    at hrow
  have hslice := hintact.trans (countSlice_intact (lineOf off) 0 1 h)
  have hquiet' : (countSlice (lineOf off) 0 1 h).ras.injection = none := hcalm.quiet
  generalize countSlice (lineOf off) 0 1 h = x at hrow hslice hquiet'
  obtain ⟨y, sc, hy, hact⟩ := homeAct_read hreq hop hquiet' (by rw [getTile_of_tier hslice.tier, hst])
  have hsame := hslice.trans hy
  have hanswer (z : Hub) : readAnswer f off sc x z = readAnswer f off sc s.hub z := by
    simp only [readAnswer, memRead_of_intact hslice]
  rw [hact, hanswer] at hrow
  have hsent := hsame.trans (intact_of_switch (sendFrame_switch (readAnswer f off sc s.hub y) y))
  rcases hitAt_eq (reqOf p f s.hub) h0 (sendFrame (readAnswer f off sc s.hub y) y) with hhit | ⟨v, hhit⟩
  · rw [hhit] at hrow
    exact hubAnswers_of_row hexec hrow ⟨y, sc, ⟨hsame.mem, hsame.poison⟩, ⟨hsent.mem, hsent.poison⟩, rfl⟩
  · rw [hhit] at hrow
    refine hubAnswers_of_row hexec hrow ⟨withHits v y, sc, ⟨hsame.mem, hsame.poison⟩, ⟨hsent.mem, hsent.poison⟩, ?_⟩
    exact (sendFrame_withHits v y _).symm

end Read

section Statement

variable {f : Frame} {s : State}

/-- The atomics of R259, each with its operation and its result on an old value. -/
def atomics (p : Fin 28) (f : Frame) (n old : Nat) : List (Nat × Nat × Instr) :=
  let x := f.operand0 % 2 ^ (8 * n)
  let y := f.operand1 % 2 ^ (8 * n)
  [(1, (old + x) % 2 ^ (8 * n), .atomicAdd p f), (2, old &&& x, .atomicAnd p f), (3, old ||| x, .atomicOr p f),
   (4, old ^^^ x, .atomicXor p f), (5, x, .atomicSwap p f), (6, if old = x then y else old, .atomicCas p f),
   (7, if sextNat (8 * n) x < sextNat (8 * n) old then x else old, .atomicSmin p f),
   (8, if sextNat (8 * n) old < sextNat (8 * n) x then x else old, .atomicSmax p f), (9, min old x, .atomicUmin p f),
   (10, max old x, .atomicUmax p f), (16, fadd32 old x, .atomicFadd32 p f)]

theorem atomic_row {p : Fin 28} {op new n old : Nat} {c : Instr} (hmem : (op, new, c) ∈ atomics p f n old) :
    op < 256 ∧ new = atomicResult op n old f.operand0 f.operand1 ∧ exec c s = frameRow p (asAux op (asOp 4 f)) s := by
  simp only [atomics, List.mem_cons, Prod.mk.injEq, List.not_mem_nil, or_false] at hmem
  rcases hmem with ⟨rfl, rfl, rfl⟩ | ⟨rfl, rfl, rfl⟩ | ⟨rfl, rfl, rfl⟩ | ⟨rfl, rfl, rfl⟩ | ⟨rfl, rfl, rfl⟩ | ⟨rfl, rfl, rfl⟩ |
      ⟨rfl, rfl, rfl⟩ | ⟨rfl, rfl, rfl⟩ | ⟨rfl, rfl, rfl⟩ | ⟨rfl, rfl, rfl⟩ | ⟨rfl, rfl, rfl⟩ <;>
    exact ⟨by norm_num, rfl, rfl⟩

/-- An operation in AUX changes neither the operand's size nor what the frame names otherwise. -/
theorem asAux_fields {op : Nat} (hop : op < 256) : nbits (asAux op (asOp 4 f)).aux 7 0 = op ∧
    reqLen (asAux op (asOp 4 f)) = if f.aux.testBit 8 then 8 else 4 := by
  have hbit : (f.aux / 256 * 256 + op).testBit 8 = f.aux.testBit 8 := by
    simp only [Nat.testBit_eq_decide_div_mod_eq]
    congr 2
    omega
  refine ⟨?_, ?_⟩
  · simp only [asAux, asOp, nbits, Nat.shiftRight_zero]
    omega
  · simp only [reqLen, asAux, asOp, if_true, hbit]

end Statement

/-- Settles O23, a lemma for each kind of request. -/
theorem storeFramesAct : Obligations.StoreFramesAct := by
  intro p f off s hst hfilter
  refine ⟨fun hmeets hlines => read_answers (f := asOp 1 f) rfl rfl hst hfilter hmeets hlines,
    fun hmeets => write_stores (f := asOp 2 f) rfl (Or.inl rfl) hst hfilter hmeets,
    fun hmeets => write_stores (f := asOp 3 f) rfl (Or.inr rfl) hst hfilter hmeets, fun op new c hmem hmeets hclean => ?_,
    fun hunit hposted hshapers hstu htxs hwaiting => flush_completes (f := asOp 5 f) rfl rfl hunit hposted hshapers hstu htxs hwaiting,
    fun hmeets hnone => tileWrite_waits (f := asOp 6 f) rfl rfl hmeets hnone⟩
  obtain ⟨hop, rfl, hexec⟩ := atomic_row hmem
  obtain ⟨haux, hlen⟩ := asAux_fields (f := f) hop
  have hstores := atomic_stores hexec rfl hst hfilter hmeets (by rw [hlen, hclean])
  rwa [hlen, haux] at hstores

end Sys2Proof.Proofs

/-!
PROOFS. Atomics on a Free tile (R182, R259) against the words of O47, which take the old value to be zero: where a cached leaf's base is no
multiple of its operand's size, the operand reaches into the next tile.
-/
namespace Sys2Proof.Proofs

open Machine Safety Laws

section Allocates

variable {p : Nat} {f : Frame} {off : Nat} {s : State}

/-- R182, R259: what an atomic stores where its tile is Free and has room. -/
theorem atomic_allocates {c : Instr} (hexec : exec c s = frameRow p f s) (hop : f.opcode = 4)
    (hst : (getTile (tileOf off) s.hub).st = .free) (hfilter : s.hub.coh.filter = []) (hroom : usedOf 0 s.hub < ceilingOf 0 s.hub)
    (hslot : slotsUsed s.hub < s.hub.tier.slots) (hmeets : meetsStore p f off s = true) (hclean : anyPoison off (reqLen f) s.hub = false) :
    HubAnswers c s (fun h => storesAt off (bytesLE (reqLen f) (atomicResult (nbits f.aux 7 0) (reqLen f)
      (ofBytesLE (memGetN s.hub.mem off (reqLen f))) f.operand0 f.operand1)) s.hub h) := by
  refine atomic_stores_of_start hexec hop hmeets hclean fun r h hreq hintact hcalm htxs =>
    ⟨allocated (tileOf off) 0 f.tenant h, homeStart_allocates hreq (by rw [hintact.coh, hfilter]) htxs (by omega)
      (by rw [getTile_of_tier hintact.tier, hst]) ?_ (by rwa [slotsUsed, hintact.tier]), allocated_mem ..,
      (renewTile_poison ..).trans (putTile_poison ..), rfl⟩
  have hceiling : ceilingOf 0 h = ceilingOf 0 s.hub := by
    rw [ceilingOf, regFld, hcalm.reg 0x90 (0x80 + 16 * 0) (by unfold plainReg; norm_num), ceilingOf, regFld]
  rwa [hceiling, usedOf, hintact.tier]

end Allocates

/-- A module that stands alone and serves. Its STU has a leaf of tenant 0 and ASID 0 from TVA 1 on, so that TVA 65536 is the last byte of
tile 0x8000, which is Free; the next tile's first byte is 1. -/
def leafOffBoundary : State :=
  { hub := { boot := { phase := .ready },
             regs := [(regKey 0 0x50, 0x80000005), (regKey 0x15 0x58, w64 (mkFld 31 31 1 + mkFld 30 24 16 + mkFld 23 16 0xC0)),
                      (regKey 0x90 0x80, w64 (mkFld 55 32 4)), (regKey 0xA0 0x10, 1), (regKey 0x348 0x100, 0x201)],
             ports := [(5, { st := .ready })],
             stu := { leaves := [⟨0, 0, 1, 2 ^ 21, 0x80000000 + 2 ^ 6 + 1, false⟩] },
             tier := { slots := 4 }, mem := [(0x80010000, 1#8)] } }

/-- ATOMIC.UMAX of 1 and four bytes at TVA 65536. -/
def maxFrame : Frame := { dstModule := 5, dstUnit := 0x80, srcModule := 5, srcUnit := 0xC1, asid := 0, addr := 65536, operand0 := 1 }

theorem leafOffBoundary_room : usedOf 0 leafOffBoundary.hub < ceilingOf 0 leafOffBoundary.hub := by decide +kernel

/-- The atomic with its operation in AUX. -/
def maxRequest : Frame := asAux 10 (asOp 4 maxFrame)

/-- The old value has the next tile's 1 in its second byte, and so has the result. -/
theorem leafOffBoundary_result : bytesLE (reqLen maxRequest) (atomicResult (nbits maxRequest.aux 7 0) (reqLen maxRequest)
    (ofBytesLE (memGetN leafOffBoundary.hub.mem 0x8000FFFF (reqLen maxRequest))) maxRequest.operand0 maxRequest.operand1) =
    [0, 1, 0, 0] := by
  decide +kernel

theorem maxRequest_meets : meetsStore 5 maxRequest 0x8000FFFF leafOffBoundary = true := by decide +kernel

theorem leafOffBoundary_zero (a : Nat) (ha : tileOf a = 0x8000) : memGet leafOffBoundary.hub.mem a = 0 := by
  have hne : 0x80010000 ≠ a := by
    unfold tileOf at ha
    omega
  exact if_neg hne

/-- Refutes O47: the maximum of 1 and the old value 256 has a lowest byte of 0, where O47 asks for 1. -/
theorem not_storesAllocateFreeTiles : ¬ Obligations.StoresAllocateFreeTiles := by
  intro h
  obtain ⟨-, -, hatomics, -⟩ := h 5 maxFrame 0x8000FFFF leafOffBoundary (by decide) rfl leafOffBoundary_room (by decide)
    leafOffBoundary_zero
  obtain ⟨t, hexec, -, -, -, -, -, -, -, hasked⟩ := hatomics 10 1 (.atomicUmax 5 maxFrame) (by decide) maxRequest_meets (by decide)
  obtain ⟨u, hexec', -, -, hstored⟩ := atomic_allocates (f := maxRequest) (c := .atomicUmax 5 maxFrame) rfl rfl (by decide) rfl
    leafOffBoundary_room (by decide) maxRequest_meets (by decide)
  rw [hexec', Host.Outcome.next.injEq] at hexec
  subst hexec
  have hone : memGet u.hub.mem 0x8000FFFF = 1 := hasked 0x8000FFFF (by decide)
  have hzero : memGet u.hub.mem 0x8000FFFF = 0 := by
    rw [leafOffBoundary_result] at hstored
    exact hstored 0x8000FFFF
  rw [hone] at hzero
  exact absurd hzero (by decide)

end Sys2Proof.Proofs

/-!
PROOFS. The Cursor Engine (R212 to R242): what a command of the CURSOR page comes to, advances of an engine at rest, drawers as they are
written, read and deleted, and the end of a firing's work.
-/
namespace Sys2Proof.Proofs

open Machine Safety Laws

/-! ### The CURSOR page -/

/-- What the map says of page 0x00B0. -/
def cursorPage : PageInfo := ⟨.cursor, 0, 0, 0x0E⟩

theorem pageInfo_cursor : pageInfo 0xB0 = some cursorPage := rfl

theorem fld_w64 {v : Nat} (hv : v < 2 ^ 64) (hi lo : Nat) : fld (w64 v) hi lo = nbits v hi lo := by
  rw [fld, w64, BitVec.toNat_ofNat, Nat.mod_eq_of_lt hv]

theorem bitOf_w64 {v : Nat} (hv : v < 2 ^ 64) (i : Nat) : bitOf (w64 v) i = v.testBit i := by
  rw [bitOf, w64, BitVec.toNat_ofNat, Nat.mod_eq_of_lt hv]

section Rows

variable {c : Instr} {s : State} {f : Hub → Hub} {P : Hub → Prop}

/-- What is sent to the other member of a pair after a command is among what reports may change. -/
theorem hubAnswers_of_moves (hans : AnswersHub c s f) (hP : ∀ y, SwitchOnly (f s.hub) y → Steady (f s.hub) y → P y) :
    HubAnswers c s P :=
  hubAnswers_of_sent hans rfl fun y hsent => hP y (sent_moves switch_moves hsent) (sent_moves steady_moves hsent)

/-- A command that reports an error of its page. -/
theorem hubAnswers_reported {b : Nat} (hans : AnswersHub c s f) (hbit : regBit 0xB0 0x18 b (f s.hub) = true)
    (hsame : SameMemory s.hub (f s.hub)) :
    HubAnswers c s (fun h => regBit 0xB0 0x18 b h = true ∧ h.cur = (f s.hub).cur ∧ SameMemory s.hub h) :=
  hubAnswers_of_moves hans fun _ hswitch hsteady =>
    ⟨hsteady.err 0xB0 b hbit, hswitch.cur, hswitch.mem.trans hsame.1, hswitch.poison.trans hsame.2⟩

/-- The same, of a command that does nothing else. -/
theorem hubAnswers_raises {b : Nat} (hb : b < 64) (hans : AnswersHub c s f) (hf : f s.hub = raise 0xB0 b s.hub) :
    HubAnswers c s (fun h => regBit 0xB0 0x18 b h = true ∧ h.cur = s.hub.cur ∧ SameMemory s.hub h) := by
  have hrep := hubAnswers_reported (b := b) hans (hf ▸ raise_sets 0xB0 b hb s.hub) (hf ▸ sameMemory_of_switch (raise_switch 0xB0 b s.hub))
  rwa [hf, raise_cur] at hrep

/-- An event that a unit takes up while the module serves. -/
theorem unitRow_answers (hc : exec c s = unitRow f s) (hserves : serving s.hub = true) (hP : P (f s.hub)) : HubAnswers c s P :=
  ⟨onHub f s, hc.trans (congrArg Host.Outcome.next (if_pos hserves)), rfl, rfl, hP⟩

end Rows

/-- R47: an event sets its bit of the page's event register. -/
theorem raiseEvent_sets {page b e m : Nat} {p : PageInfo} (hp : pageInfo page = some p) (hev : eventRegs p = some (e, m))
    (hplain : plainReg e) (hb : b < 64) (h : Hub) : regBit page e b (raiseEvent page b h) = true := by
  have hraise : raiseEvent page b h = withSignal page (fun x => putReg page e (putBit (getReg page e x) b true) x) h := by
    simp only [raiseEvent, hp, hev]
  have hset : regBit page e b (putReg page e (putBit (getReg page e h) b true) h) = true := by
    rw [regBit, getReg_putReg, if_pos rfl]
    exact bit_put _ b hb
  rw [hraise, regBit, (withSignal_steady page _ h).reg page e hplain]
  exact hset

theorem cursorEvent_sets {b : Nat} (hb : b < 64) (h : Hub) : regBit 0xB0 0xE8 b (raiseEvent 0xB0 b h) = true :=
  raiseEvent_sets pageInfo_cursor rfl (by unfold plainReg; norm_num) hb h

/-! ### Cursors, firings and holds -/

section Engine

variable {h a b : Hub} {c i : Nat}

@[simp] theorem getCursor_putCursor (c : Nat) (x : Cursor) (h : Hub) : getCursor c (putCursor c x h) = x := by
  simp [getCursor, putCursor, Tab.getD, tab_get_set]

theorem getCursor_of_cur (hcur : b.cur = a.cur) (c : Nat) : getCursor c b = getCursor c a := by rw [getCursor, hcur, getCursor]

theorem setRuns_self (h : Hub) : setRuns h.cur.runs h = h := rfl

/-- A fold that puts each firing back as it is. -/
theorem foldl_setRuns {f : Hub → DrawerRun → Hub} {l : List DrawerRun}
    (hf : ∀ r ∈ l, ∀ x, f x r = setRuns (x.cur.runs ++ [r]) x) (pre : List DrawerRun) :
    l.foldl f (setRuns pre h) = setRuns (pre ++ l) h := by
  induction l generalizing pre with
  | nil => rw [List.append_nil, List.foldl_nil]
  | cons r rs ih =>
    rw [List.foldl_cons, hf r List.mem_cons_self, show pre ++ r :: rs = pre ++ [r] ++ rs by simp]
    exact ih (fun q hq => hf q (List.mem_cons_of_mem r hq)) (pre ++ [r])

/-- R222: firings whose tiles are all done take no step. -/
theorem cursorPump_settled (hset : ∀ r ∈ h.cur.runs, r.todo = [] ∧ r.wait = []) : cursorPump h = h := by
  have hpoll : ∀ r ∈ h.cur.runs, ∀ x : Hub, (let y := pollTiles r.wait { r with wait := [] } x; setRuns (y.2.cur.runs ++ [y.1]) y.2) =
      setRuns (x.cur.runs ++ [r]) x := fun r hr x => by
    have hsame : { r with wait := [] } = r := by rw [← (hset r hr).2]
    simp only [(hset r hr).2, pollTiles, hsame]
  unfold cursorPump
  rw [foldl_setRuns hpoll, List.nil_append, setRuns_self]
  dsimp only
  rw [foldl_setRuns (fun r hr x => by simp [(hset r hr).1]), List.nil_append, setRuns_self]

theorem cursorPump_idle (hruns : h.cur.runs = []) : cursorPump h = h := cursorPump_settled (by simp [hruns])

theorem setRuns_nil (hruns : h.cur.runs = []) : setRuns [] h = h := by
  rw [← hruns, setRuns_self]

/-- R225: without a firing no report is due. -/
theorem dueReports_idle (hruns : h.cur.runs = []) (c step pos : Nat) : dueReports c step pos h = h := by
  simp only [dueReports, hruns, List.foldl_nil, setRuns_nil hruns]

/-- R222: no drawer crossed, none fired. -/
theorem fireAll_nil (hruns : h.cur.runs = []) (c : Nat) (entry : Bool) (span : Int) : fireAll c entry span [] h = h := by
  simp only [fireAll, List.foldl_nil, missFirings, cursorPump_idle hruns, ite_self]

/-- R237: nothing was crossed while the engine was off. -/
theorem fireMissed_nil (hruns : h.cur.runs = []) (hmissed : h.cur.missed = []) (c : Nat) : fireMissed c h = h := by
  have hsame : { h with cur := { h.cur with missed := [] } } = h := by rw [← hmissed]
  simp only [fireMissed, hmissed, List.filter_nil, List.foldl_nil, hsame, cursorPump_idle hruns, ite_self]

/-- A fold of ended holds touches the tiles' counts alone. -/
theorem foldl_dropHold {β : Type} (g : Hub → β) (hg : ∀ t x, g (dropHold t x) = g x) (l : List HoldRec) (h : Hub) :
    g (l.foldl (fun x r => dropHold r.tile x) h) = g h := foldl_keeps g (fun x r => hg r.tile x) l h

/-- R224: the end of holds touches the list of holds and the tiles' counts. -/
@[simp] theorem endHolds_cur (p : HoldRec → Bool) (h : Hub) :
    (endHolds p h).cur = { h.cur with holds := h.cur.holds.filter (fun r => !p r) } := foldl_dropHold Hub.cur (fun _ _ => rfl) ..

theorem endHolds_sameMemory (p : HoldRec → Bool) (h : Hub) : SameMemory h (endHolds p h) :=
  ⟨foldl_dropHold Hub.mem (fun _ _ => rfl) .., foldl_dropHold Hub.poison (fun _ _ => rfl) ..⟩

theorem endHolds_nil (hholds : h.cur.holds = []) (p : HoldRec → Bool) : endHolds p h = h := by
  have hsame : { h with cur := { h.cur with holds := [] } } = h := by rw [← hholds]
  simp only [endHolds, hholds, List.filter_nil, List.foldl_nil, hsame]

end Engine

/-! ### CURSOR_CMD, CURSOR_DEF and CURSOR_BIND (R214, R238, R239) -/

section Define

variable {r : Requester} {s : State} {h : Hub} {c i v : Nat} {bind : Bool}

/-- The cursor that CURSOR_SEL selects. -/
def selected (h : Hub) : Nat := regFld 0xB0 0x44 5 0 h

theorem cursorDefine_answers (ha : admits r 0xB0 0x60 s = true) : AnswersHub (.cursorDefine r) s (cursorCmd (selected s.hub) 1) :=
  answersHub_write rfl ha (by norm_num) pageInfo_cursor rfl rfl (by norm_num) (by norm_num) rfl (by norm_num) rfl rfl

theorem cursorRelease_answers (ha : admits r 0xB0 0x60 s = true) : AnswersHub (.cursorRelease r) s (cursorCmd (selected s.hub) 2) :=
  answersHub_write rfl ha (by norm_num) pageInfo_cursor rfl rfl (by norm_num) (by norm_num) rfl (by norm_num) rfl rfl

theorem cursorDefWrite_answers (ha : admits r 0xB0 (if bind then 0x50 else 0x48) s = true) (hv : v < 2 ^ 64) :
    AnswersHub (.cursorDefWrite r bind v) s (cursorDefWrite bind (selected s.hub) (w64 v)) := by
  cases bind with
  | false => exact answersHub_write rfl ha (by norm_num) pageInfo_cursor rfl rfl (by norm_num) (by norm_num) rfl hv rfl rfl
  | true => exact answersHub_write rfl ha (by norm_num) pageInfo_cursor rfl rfl (by norm_num) (by norm_num) rfl hv rfl rfl

theorem cursorDefWrite_free (hst : (getCursor c h).st = .free) (w : Word) : cursorDefWrite bind c w h = putCursor c
    (if bind then { getCursor c h with bind := w &&& w64 (masks [(25, 4), (if h.twin.en then 3 else 2, 0)]) }
     else { getCursor c h with defn := w &&& w64 (masks [(63, 48), (43, 0)]) }) h := by
  cases bind <;> simp [cursorDefWrite, hst]

theorem mem_tab_erase {α : Type} {t : Tab α} {k : Nat} {e : Nat × α} : e ∈ Tab.erase t k ↔ e ∈ t ∧ e.1 ≠ k := by
  induction t with
  | nil => simp [Tab.erase]
  | cons q t ih =>
    obtain ⟨j, a⟩ := q
    by_cases hjk : j = k
    · simp only [Tab.erase, hjk, if_true, ih, List.mem_cons]
      constructor
      · exact fun ⟨hmem, hne⟩ => ⟨.inr hmem, hne⟩
      · rintro ⟨rfl | hmem, hne⟩
        · exact absurd rfl hne
        · exact ⟨hmem, hne⟩
    · simp only [Tab.erase, hjk, if_false, List.mem_cons, ih]
      constructor
      · rintro (rfl | ⟨hmem, hne⟩)
        · exact ⟨.inl rfl, hjk⟩
        · exact ⟨.inr hmem, hne⟩
      · exact fun ⟨hmem, hne⟩ => hmem.imp_right fun ht => ⟨ht, hne⟩

@[simp] theorem deleteDrawer_drawers (i : Nat) (h : Hub) : (deleteDrawer i h).cur.drawers = Tab.erase h.cur.drawers i := by
  simp [deleteDrawer]

@[simp] theorem deleteDrawer_cursors (i : Nat) (h : Hub) : (deleteDrawer i h).cur.cursors = h.cur.cursors := by
  simp [deleteDrawer]

@[simp] theorem deleteDrawer_holds (i : Nat) (h : Hub) :
    (deleteDrawer i h).cur.holds = h.cur.holds.filter (fun q => !(q.drawer == i)) := by
  simp [deleteDrawer]

theorem deleteDrawer_sameMemory (i : Nat) (h : Hub) : SameMemory h (deleteDrawer i h) := endHolds_sameMemory ..

/-- R214: of the drawers deleted one after another none is left. -/
theorem mem_drawers_foldl_delete {l : Tab Drawer} {e : Nat × Drawer}
    (hmem : e ∈ (l.foldl (fun y q => deleteDrawer q.1 y) h).cur.drawers) : e ∈ h.cur.drawers ∧ e ∉ l := by
  induction l generalizing h with
  | nil => exact ⟨hmem, List.not_mem_nil⟩
  | cons q l ih =>
    obtain ⟨hrest, hnot⟩ := ih hmem
    rw [deleteDrawer_drawers, mem_tab_erase] at hrest
    refine ⟨hrest.1, fun hin => ?_⟩
    rcases List.mem_cons.1 hin with rfl | hl
    · exact hrest.2 rfl
    · exact hnot hl

/-- R214: what a release leaves. -/
theorem cursorCmd_release (c : Nat) (h : Hub) : getCursor c (cursorCmd c 2 h) = { getCursor c h with st := .free, step := 0, pos := 0 } ∧
    drawersOf c (cursorCmd c 2 h) = [] ∧ (∀ k ∈ (cursorCmd c 2 h).cur.holds, k.cursor ≠ c) ∧ SameMemory h (cursorCmd c 2 h) := by
  have hcmd : cursorCmd c 2 h = putCursor c { getCursor c h with st := .free, step := 0, pos := 0 }
      (endHolds (fun q => q.cursor == c) ((drawersOf c h).foldl (fun y e => deleteDrawer e.1 y) h)) := rfl
  rw [hcmd]
  refine ⟨getCursor_putCursor .., ?_, ?_, ?_⟩
  · refine List.filter_eq_nil_iff.2 fun e he => ?_
    have hleft : e ∈ ((drawersOf c h).foldl (fun y e => deleteDrawer e.1 y) h).cur.drawers := by simpa [putCursor] using he
    obtain ⟨hmem, hnot⟩ := mem_drawers_foldl_delete hleft
    exact fun hc => hnot (List.mem_filter.2 ⟨hmem, hc⟩)
  · intro k hk
    have hk' : k ∈ (endHolds (fun q => q.cursor == c) ((drawersOf c h).foldl (fun y e => deleteDrawer e.1 y) h)).cur.holds := hk
    rw [endHolds_cur] at hk'
    simpa using (List.mem_filter.1 hk').2
  · have hfold : SameMemory h ((drawersOf c h).foldl (fun y e => deleteDrawer e.1 y) h) :=
      ⟨foldl_keeps Hub.mem (fun x e => (deleteDrawer_sameMemory e.1 x).1) (drawersOf c h) h,
        foldl_keeps Hub.poison (fun x e => (deleteDrawer_sameMemory e.1 x).2) (drawersOf c h) h⟩
    obtain ⟨hmem, hpoison⟩ := endHolds_sameMemory (fun q => q.cursor == c) ((drawersOf c h).foldl (fun y e => deleteDrawer e.1 y) h)
    exact ⟨hmem.trans hfold.1, hpoison.trans hfold.2⟩

theorem cursorRelease_frees (ha : admits r 0xB0 0x60 s = true) : HubAnswers (.cursorRelease r) s (fun h =>
    getCursor (selected s.hub) h = { getCursor (selected s.hub) s.hub with st := .free, step := 0, pos := 0 } ∧
    drawersOf (selected s.hub) h = [] ∧ (∀ k ∈ h.cur.holds, k.cursor ≠ selected s.hub) ∧ SameMemory s.hub h) := by
  refine hubAnswers_of_moves (cursorRelease_answers ha) fun y hswitch _ => ?_
  obtain ⟨hcursor, hdrawers, hholds, hmem, hpoison⟩ := cursorCmd_release (selected s.hub) s.hub
  exact ⟨(getCursor_of_cur hswitch.cur _).trans hcursor, by rwa [drawersOf, hswitch.cur], by rwa [hswitch.cur],
    hswitch.mem.trans hmem, hswitch.poison.trans hpoison⟩

theorem cursorDefine_inUse (ha : admits r 0xB0 0x60 s = true) (hst : (getCursor (selected s.hub) s.hub).st ≠ .free) :
    HubAnswers (.cursorDefine r) s (fun h => regBit 0xB0 0x18 17 h = true ∧ h.cur = s.hub.cur ∧ SameMemory s.hub h) :=
  hubAnswers_raises (by norm_num) (cursorDefine_answers ha) (if_neg hst)

theorem cursorDefWrite_inUse (ha : admits r 0xB0 (if bind then 0x50 else 0x48) s = true) (hv : v < 2 ^ 64)
    (hst : (getCursor (selected s.hub) s.hub).st ≠ .free) :
    HubAnswers (.cursorDefWrite r bind v) s (fun h => regBit 0xB0 0x18 17 h = true ∧ h.cur = s.hub.cur ∧ SameMemory s.hub h) :=
  hubAnswers_raises (by norm_num) (cursorDefWrite_answers ha hv) (if_pos hst)

end Define

/-! ### Advances (R215, R216) -/

section Advance

variable {r : Requester} {s : State} {h : Hub} {v : Nat} {w : Word} {a : Advancer}

/-- The cursor that an advance names. -/
abbrev advanced (w : Word) (h : Hub) : Cursor := getCursor (fld w 5 0) h

/-- The position that an advance names lies in the defined cursor's step. -/
structure Advances (w : Word) (h : Hub) : Prop where
  defined : (advanced w h).st ≠ .free
  inStep : fld w 31 16 ≤ fld (advanced w h).defn 15 0

theorem Advances.denied (k : Advances w h) (hno : advAllowed (advanced w h) a h = false) : advStatus w a h = advDenied := by
  simp [advStatus, k.defined, Nat.not_lt.2 k.inStep, hno]

theorem Advances.armed (k : Advances w h) (hyes : advAllowed (advanced w h) a h = true) (hst : (advanced w h).st = .armed) :
    advStatus w a h = advOk := by
  simp [advStatus, Nat.not_lt.2 k.inStep, hyes, hst]

/-- R216: the status of an advance of a cursor that has run, by its distance. -/
theorem Advances.ran (k : Advances w h) (hyes : advAllowed (advanced w h) a h = true) (hst : (advanced w h).st ≠ .armed) {d : Int}
    (hd : posDist (advanced w h).step (advanced w h).pos (fld w 63 32) (fld w 31 16) (advanced w h).m = some d) :
    advStatus w a h = if d = 0 then advOk else if d < 0 ∧ !bitOf w 15 then advStale
      else if (regFld curPage 0x40 15 0 h : Int) < d ∧ regFld curPage 0x40 15 0 h ≠ 0 ∧ !bitOf w 15 then advTooFar else advOk := by
  simp only [advStatus, k.defined, Nat.not_lt.2 k.inStep, hyes, hst, hd, if_false, Bool.not_true, Bool.false_eq_true]

/-- The engine at rest: no drawer written, no firing under way, nothing crossed while it was off, no hold. -/
structure AtRest (h : Hub) : Prop where
  drawers : h.cur.drawers = []
  runs : h.cur.runs = []
  missed : h.cur.missed = []
  holds : h.cur.holds = []

/-- R216: the cursor as an accepted advance leaves it. -/
def placed (w : Word) (h : Hub) : Cursor :=
  { advanced w h with st := .running, step := fld w 63 32, pos := fld w 31 16, lastAdv := h.devTime }

theorem advTake_armed (k : AtRest h) (hst : (advanced w h).st = .armed) : advTake w h = putCursor (fld w 5 0) (placed w h) h := by
  have hnone : drawersOf (fld w 5 0) (putCursor (fld w 5 0) (placed w h) h) = [] := by simp [drawersOf, putCursor, k.drawers]
  have hruns : (putCursor (fld w 5 0) (placed w h) h).cur.runs = [] := k.runs
  rw [advTake, if_pos hst, ← placed]
  dsimp only
  rw [hnone, List.filterMap_nil, sortFirings, List.foldl_nil, fireAll_nil hruns, dueReports_idle hruns]

/-- A cursor moves forward by d positions, noted for the embedding unit (R455). -/
def movedOn (w : Word) (d : Int) (h : Hub) : Hub :=
  let x := putCursor (fld w 5 0) (placed w h) h
  { x with cur := { x.cur with moved := x.cur.moved ++ [(fld w 5 0, (advanced w h).step, (advanced w h).pos, d)] } }

theorem getCursor_movedOn (w : Word) (d : Int) (h : Hub) : getCursor (fld w 5 0) (movedOn w d h) = placed w h :=
  getCursor_putCursor (fld w 5 0) (placed w h) h

/-- R224: a hold of the cursor that ends before the position an advance names. -/
def heldBefore (w : Word) (h : Hub) (q : HoldRec) : Bool :=
  q.cursor == fld w 5 0 &&
  (match posDist q.relStep q.relPos (fld w 63 32) (fld w 31 16) (advanced w h).m with | some k => decide (0 < k) | none => false)

/-- R216, R222 to R229: what follows a move forward. -/
theorem advTake_ran (hst : (advanced w h).st ≠ .armed) {d : Int} (hpos : 0 < d)
    (hd : posDist (advanced w h).step (advanced w h).pos (fld w 63 32) (fld w 31 16) (advanced w h).m = some d) :
    advTake w h = dueReports (fld w 5 0) (fld w 63 32) (fld w 31 16) (fireAll (fld w 5 0) false d (sortFirings
      ((drawersOf (fld w 5 0) (endHolds (heldBefore w h) (fireMissed (fld w 5 0) (movedOn w d h)))).filterMap
        (fun e => crossing e.1 e.2 (advanced w h).step (advanced w h).pos (advanced w h).m d)))
      (endHolds (heldBefore w h) (fireMissed (fld w 5 0) (movedOn w d h)))) := by
  rw [advTake, if_neg hst]
  split
  next hnone => exact absurd (hnone.symm.trans hd) (Option.some_ne_none d).symm
  next e he =>
    obtain rfl : e = d := Option.some.inj (he.symm.trans hd)
    exact if_pos hpos

theorem advTake_forward (k : AtRest h) (hst : (advanced w h).st ≠ .armed) {d : Int} (hpos : 0 < d)
    (hd : posDist (advanced w h).step (advanced w h).pos (fld w 63 32) (fld w 31 16) (advanced w h).m = some d) :
    advTake w h = movedOn w d h := by
  have hruns : (movedOn w d h).cur.runs = [] := k.runs
  have hmissed : (movedOn w d h).cur.missed = [] := k.missed
  have hholds : (movedOn w d h).cur.holds = [] := k.holds
  have hdrawers : (movedOn w d h).cur.drawers = [] := k.drawers
  rw [advTake_ran hst hpos hd, fireMissed_nil hruns hmissed, endHolds_nil hholds, drawersOf, hdrawers, List.filter_nil,
    List.filterMap_nil, sortFirings, List.foldl_nil, fireAll_nil hruns, dueReports_idle hruns]

/-! What the embedding unit sees of advances (R455) -/

/-- No advance is left to be seen. -/
def movesSeen (h : Hub) : Hub := { h with cur := { h.cur with moved := [] } }

theorem emuDrain_unmoved (hmoved : h.cur.moved = []) : emuDrain h = h := by
  have hsame : { h with cur := { h.cur with moved := [] } } = h := by rw [← hmoved]
  rw [emuDrain, hmoved, List.foldl_nil, hsame]

theorem emuSee_tableless (htables : h.emb.tables = []) (c step pos : Nat) (d : Int) : emuSee c step pos d h = h := by
  rw [emuSee, htables, List.foldl_nil]

theorem emuDrain_tableless (htables : h.emb.tables = []) : emuDrain h = movesSeen h := by
  unfold emuDrain
  refine List.foldlRecOn h.cur.moved _ (motive := fun x => x = movesSeen h) rfl fun x hx m _ => ?_
  rw [hx]
  exact emuSee_tableless (h := movesSeen h) htables ..

/-! The register -/

theorem cursorAdvance_answers (ha : admits r 0xB0 0x80 s = true) (hv : v < 2 ^ 64) :
    AnswersHub (.cursorAdvance (.reg r 0 8 v)) s (fun h => emuDrain (advanceReg (w64 v) r h)) :=
  answersHub_write rfl ha (by norm_num) pageInfo_cursor rfl rfl (by norm_num) (by norm_num) rfl hv rfl rfl

/-- R216: the hub of an advance of status OK, which the engine takes. -/
theorem advanceReg_ok (hok : advStatus w (.reg r) h = advOk) : advanceReg w r h = advTake w (count 0xB0 0 1 h) := by
  simp [advanceReg, advance, hok, advOk, advDenied, curPage]

theorem advanceReg_stale (hstale : advStatus w (.reg r) h = advStale) : advanceReg w r h = count 0xB0 1 1 h := by
  simp [advanceReg, advance, hstale, advOk, advStale, advDenied, curPage]

theorem advanceReg_denied (hno : advStatus w (.reg r) h = advDenied) : advanceReg w r h = raise 0xB0 18 (count 0xB0 2 1 h) := by
  simp [advanceReg, advance, hno, advOk, advStale, advDenied, curPage]

theorem AtRest.counted (k : AtRest h) (slot : Nat) : AtRest (count 0xB0 slot 1 h) := by
  constructor <;> rw [count_cur]
  exacts [k.drawers, k.runs, k.missed, k.holds]

theorem advanced_counted (w : Word) (slot : Nat) (h : Hub) : advanced w (count 0xB0 slot 1 h) = advanced w h :=
  getCursor_of_cur (count_cur ..) _

theorem placed_counted (w : Word) (slot : Nat) (h : Hub) : placed w (count 0xB0 slot 1 h) = placed w h := by
  rw [placed, advanced_counted, count_devTime, placed]

/-- A write of CURSOR_ADVANCE after which the cursor it names reads x. -/
theorem cursorAdvance_leaves {x : Cursor} {y : Hub} (ha : admits r 0xB0 0x80 s = true) (hv : v < 2 ^ 64)
    (hy : emuDrain (advanceReg (w64 v) r s.hub) = y) (hx : getCursor (nbits v 5 0) y = x) (hsame : SameMemory s.hub y) :
    HubAnswers (.cursorAdvance (.reg r 0 8 v)) s (fun h => SameMemory s.hub h ∧ getCursor (nbits v 5 0) h = x) :=
  hubAnswers_of_moves (cursorAdvance_answers ha hv) fun z hswitch _ => by
    rw [hy] at hswitch
    exact ⟨⟨hswitch.mem.trans hsame.1, hswitch.poison.trans hsame.2⟩, (getCursor_of_cur hswitch.cur _).trans hx⟩

theorem sameMemory_count (page slot n : Nat) (h : Hub) : SameMemory h (count page slot n h) := sameMemory_of_switch (count_switch ..)

/-- R216: the cursor that an accepted advance of register value v names, afterwards. -/
def placedAt (v : Nat) (s : State) : Cursor :=
  { getCursor (nbits v 5 0) s.hub with st := .running, step := nbits v 63 32, pos := nbits v 31 16, lastAdv := s.hub.devTime }

theorem placed_w64 (hv : v < 2 ^ 64) : placed (w64 v) s.hub = placedAt v s := by
  simp only [placed, advanced, fld_w64 hv, placedAt]

theorem advanced_w64 (hv : v < 2 ^ 64) (h : Hub) : advanced (w64 v) h = getCursor (nbits v 5 0) h := by rw [advanced, fld_w64 hv]

/-- R216: an advance of status OK that the engine takes by placing the cursor. -/
theorem cursorAdvance_accepted (ha : admits r 0xB0 0x80 s = true) (hv : v < 2 ^ 64) (hok : advStatus (w64 v) (.reg r) s.hub = advOk)
    {y : Hub} (htake : advTake (w64 v) (count 0xB0 0 1 s.hub) = y) (htables : y.emb.tables = [])
    (hplaced : getCursor (nbits v 5 0) y = placedAt v s) (hsame : SameMemory s.hub y) :
    HubAnswers (.cursorAdvance (.reg r 0 8 v)) s (fun h => SameMemory s.hub h ∧ getCursor (nbits v 5 0) h = placedAt v s) := by
  refine cursorAdvance_leaves (y := movesSeen y) ha hv ?_ hplaced hsame
  rw [advanceReg_ok hok, htake, emuDrain_tableless htables]

section Register

variable (ha : admits r 0xB0 0x80 s = true) (hv : v < 2 ^ 64) (hst : (getCursor (nbits v 5 0) s.hub).st ≠ .free)
  (hin : nbits v 31 16 ≤ fld (getCursor (nbits v 5 0) s.hub).defn 15 0)

include hv hst hin

theorem advances_w64 : Advances (w64 v) s.hub := by
  constructor <;> simpa only [advanced, fld_w64 hv]

include ha

theorem cursorAdvance_denied (hno : advAllowed (getCursor (nbits v 5 0) s.hub) (.reg r) s.hub = false) (hmoved : s.hub.cur.moved = []) :
    HubAnswers (.cursorAdvance (.reg r 0 8 v)) s (fun h => regBit 0xB0 0x18 18 h = true ∧ h.cur = s.hub.cur ∧ SameMemory s.hub h) := by
  have hreg := advanceReg_denied ((advances_w64 hv hst hin).denied (a := .reg r) (by rwa [advanced_w64 hv]))
  have hcur : (raise 0xB0 18 (count 0xB0 2 1 s.hub)).cur = s.hub.cur := by simp
  have hdrain : emuDrain (advanceReg (w64 v) r s.hub) = raise 0xB0 18 (count 0xB0 2 1 s.hub) := by
    rw [hreg, emuDrain_unmoved (by rw [hcur, hmoved])]
  have hswitch := (count_switch 0xB0 2 1 s.hub).trans (raise_switch 0xB0 18 _)
  have hrep := hubAnswers_reported (b := 18) (cursorAdvance_answers ha hv) (by rw [hdrain]; exact raise_sets 0xB0 18 (by norm_num) _)
    (by rw [hdrain]; exact sameMemory_of_switch hswitch)
  rwa [hdrain, hcur] at hrep

variable (hyes : advAllowed (getCursor (nbits v 5 0) s.hub) (.reg r) s.hub = true)

include hyes

/-- R216: a cursor that has run stays where it is under an advance to an earlier position. -/
theorem cursorAdvance_behind (htables : s.hub.emb.tables = []) (hst' : (getCursor (nbits v 5 0) s.hub).st ≠ .armed) {d : Int}
    (hd : posDist (getCursor (nbits v 5 0) s.hub).step (getCursor (nbits v 5 0) s.hub).pos (nbits v 63 32) (nbits v 31 16)
      (getCursor (nbits v 5 0) s.hub).m = some d) (hneg : d < 0) (hforce : v.testBit 15 = false) :
    HubAnswers (.cursorAdvance (.reg r 0 8 v)) s (fun h =>
      getCursor (nbits v 5 0) h = getCursor (nbits v 5 0) s.hub ∧ SameMemory s.hub h) := by
  have hstale : advStatus (w64 v) (.reg r) s.hub = advStale := by
    rw [(advances_w64 hv hst hin).ran (by rwa [advanced_w64 hv]) (by rwa [advanced_w64 hv])
      (by rwa [advanced_w64 hv, fld_w64 hv, fld_w64 hv]), if_neg hneg.ne, if_pos ⟨hneg, by simp [bitOf_w64 hv, hforce]⟩]
  have hcount := count_switch 0xB0 1 1 s.hub
  refine hubAnswers_of_moves (cursorAdvance_answers ha hv) fun y hswitch _ => ?_
  rw [advanceReg_stale hstale, emuDrain_tableless (by rw [count_emb, htables])] at hswitch
  refine ⟨(getCursor_of_cur hswitch.cur _).trans ?_, hswitch.mem.trans hcount.mem, hswitch.poison.trans hcount.poison⟩
  exact getCursor_of_cur (a := s.hub) (b := count 0xB0 1 1 s.hub) hcount.cur _

variable (hrest : AtRest s.hub) (htables : s.hub.emb.tables = [])

include hrest htables

theorem cursorAdvance_starts (harmed : (getCursor (nbits v 5 0) s.hub).st = .armed) :
    HubAnswers (.cursorAdvance (.reg r 0 8 v)) s (fun h => SameMemory s.hub h ∧ getCursor (nbits v 5 0) h = placedAt v s) := by
  refine cursorAdvance_accepted ha hv
    ((advances_w64 hv hst hin).armed (by rwa [advanced_w64 hv]) (by rwa [advanced_w64 hv]))
    (advTake_armed (hrest.counted 0) (by rwa [advanced_counted, advanced_w64 hv])) ?_ ?_ (sameMemory_count ..)
  · exact (congrArg Emb.tables (count_emb ..)).trans htables
  · rw [fld_w64 hv, getCursor_putCursor, placed_counted, placed_w64 hv]

theorem cursorAdvance_moves (hst' : (getCursor (nbits v 5 0) s.hub).st ≠ .armed) {d : Int}
    (hd : posDist (getCursor (nbits v 5 0) s.hub).step (getCursor (nbits v 5 0) s.hub).pos (nbits v 63 32) (nbits v 31 16)
      (getCursor (nbits v 5 0) s.hub).m = some d) (hpos : 0 < d)
    (hskip : regFld 0xB0 0x40 15 0 s.hub = 0 ∨ d ≤ (regFld 0xB0 0x40 15 0 s.hub : Int)) :
    HubAnswers (.cursorAdvance (.reg r 0 8 v)) s (fun h => SameMemory s.hub h ∧ getCursor (nbits v 5 0) h = placedAt v s) := by
  have hd' : posDist (advanced (w64 v) s.hub).step (advanced (w64 v) s.hub).pos (fld (w64 v) 63 32) (fld (w64 v) 31 16)
      (advanced (w64 v) s.hub).m = some d := by rwa [advanced_w64 hv, fld_w64 hv, fld_w64 hv]
  have hok : advStatus (w64 v) (.reg r) s.hub = advOk := by
    rw [(advances_w64 hv hst hin).ran (by rwa [advanced_w64 hv]) (by rwa [advanced_w64 hv]) hd', if_neg hpos.ne',
      if_neg fun k => absurd k.1 hpos.le.not_gt, if_neg]
    rintro ⟨hfar, hset, -⟩
    exact hskip.elim hset hfar.not_ge
  refine cursorAdvance_accepted ha hv hok (advTake_forward (hrest.counted 0) (by rwa [advanced_counted, advanced_w64 hv]) hpos
    (by rwa [advanced_counted])) ?_ ?_ (sameMemory_count ..)
  · exact (congrArg Emb.tables (count_emb ..)).trans htables
  · rw [← fld_w64 hv 5 0, getCursor_movedOn, placed_counted, placed_w64 hv]

end Register

end Advance

/-! ### The idle limit (R214) -/

section Idle

variable {s : State} {h : Hub} {c : Nat}

/-- R214: the cursor stalled and its holds gone, before the engine counts and signals it. -/
def stalledAt (c : Nat) (h : Hub) : Hub :=
  endHolds (fun q => q.cursor == c) (putCursor c { getCursor c h with st := .stalled } h)

theorem cursorIdle_stalls (hst : (getCursor c h).st = .running) (hlim : 0 < fld (getCursor c h).defn 63 48)
    (hlate : (getCursor c h).lastAdv + 1000000 * fld (getCursor c h).defn 63 48 ≤ h.devTime) :
    cursorIdle c h = raiseEvent 0xB0 2 (count 0xB0 8 1 (stalledAt c h)) := by
  refine if_pos ⟨hst, hlim.ne', ?_⟩
  rw [msToNs]
  omega

theorem cursorIdleExpiry_stalls (k : Fin 64) (hserves : serving s.hub = true) (hst : (getCursor k s.hub).st = .running)
    (hlim : 0 < fld (getCursor k s.hub).defn 63 48)
    (hlate : (getCursor k s.hub).lastAdv + 1000000 * fld (getCursor k s.hub).defn 63 48 ≤ s.hub.devTime) :
    HubAnswers (.cursorIdleExpiry k) s (fun h => getCursor k h = { getCursor k s.hub with st := .stalled } ∧
      (∀ q ∈ h.cur.holds, q.cursor ≠ k) ∧ regBit 0xB0 0xE8 2 h = true ∧ SameMemory s.hub h) := by
  refine unitRow_answers rfl hserves ?_
  have hswitch := (count_switch 0xB0 8 1 (stalledAt k s.hub)).trans (raiseEvent_switch 0xB0 2 _)
  obtain ⟨hmem, hpoison⟩ := endHolds_sameMemory (fun q => q.cursor == k.val)
    (putCursor k { getCursor k s.hub with st := .stalled } s.hub)
  rw [cursorIdle_stalls hst hlim hlate]
  refine ⟨?_, fun q hq => ?_, cursorEvent_sets (by norm_num) _, hswitch.mem.trans hmem, hswitch.poison.trans hpoison⟩
  · have hcursors : (stalledAt k s.hub).cur.cursors = (putCursor k { getCursor k s.hub with st := .stalled } s.hub).cur.cursors := by
      rw [stalledAt, endHolds_cur]
    rw [getCursor_of_cur hswitch.cur, getCursor, hcursors]
    exact getCursor_putCursor ..
  · rw [hswitch.cur, stalledAt, endHolds_cur] at hq
    simpa using (List.mem_filter.1 hq).2

end Idle

/-! ### Drawers as written (R218, R221, R231, R241) -/

section Drawers

variable {r : Requester} {s : State} {h : Hub} {i : Nat}

/-- A bit above a field that a change clears is as before. -/
theorem getLsbD_putFld_above (w : Word) {hi lo k : Nat} (habove : hi < k) : (putFld w hi lo 0).getLsbD k = w.getLsbD k := by
  have hmask : (maskOf hi lo).testBit k = false := by
    rw [maskOf, Nat.testBit_shiftLeft, Nat.testBit_two_pow_sub_one, Bool.and_eq_false_iff]
    exact .inr (decide_eq_false (by omega))
  rw [putFld, BitVec.getLsbD_or, BitVec.getLsbD_and, BitVec.getLsbD_not, w64, BitVec.getLsbD_ofNat, hmask]
  by_cases hlt : k < 64
  · simp [hlt, mkFld, w64]
  · simp [hlt, mkFld, w64, BitVec.getLsbD_of_ge w k (Nat.not_lt.1 hlt)]

/-- A field above one that a change clears reads as before. -/
theorem fld_putFld_above (w : Word) {hi lo hi' lo' : Nat} (habove : hi < lo') : fld (putFld w hi lo 0) hi' lo' = fld w hi' lo' := by
  refine Nat.eq_of_testBit_eq fun i => ?_
  simp only [fld, nbits, Nat.testBit_mod_two_pow, Nat.testBit_shiftRight, BitVec.testBit_toNat,
    getLsbD_putFld_above w (show hi < lo' + i by omega)]

/-- R218, R241: the staged entry as the engine takes it. -/
def stagedDrawer (h : Hub) : Drawer := ⟨stagingWord 0 h, putFld (stagingWord 1 h) 15 14 0, stagingWord 2 h,
  if fld (putFld (stagingWord 1 h) 15 14 0) 57 54 = 4 then putFld (stagingWord 3 h) 63 32 0 else stagingWord 3 h, false, none⟩

theorem stagedDrawer_eq (h : Hub) : stagedDrawer h = ⟨stagingWord 0 h, putFld (stagingWord 1 h) 15 14 0, stagingWord 2 h,
    if fld (stagingWord 1 h) 57 54 = 4 then putFld (stagingWord 3 h) 63 32 0 else stagingWord 3 h, false, none⟩ := by
  rw [stagedDrawer, fld_putFld_above _ (by norm_num)]

/-- R231: drawer i's old entry is gone and d is written. -/
def drawerStored (i : Nat) (d : Drawer) (h : Hub) : Hub :=
  let x := deleteDrawer i h
  setDrawerResult 0 { x with cur := { x.cur with drawers := Tab.set x.cur.drawers i d } }

theorem drawerWrite_bad (hfree : drawerBusy i h = false) (hbad : drawerBad (stagedDrawer h) h = true) :
    drawerWrite i h = setDrawerResult 2 (raise 0xB0 16 h) := by
  rw [drawerWrite, if_neg (by simp [hfree])]
  exact if_pos (Bool.or_eq_true_iff.2 (.inl hbad))

/-- R218, R230: an entry in form for a cursor that has not run is stored, and nothing fires. -/
theorem drawerWrite_stores (hfree : drawerBusy i h = false) (hgood : drawerBad (stagedDrawer h) h = false)
    (hlast : (stagedDrawer h).kind = 4 → fld (stagedDrawer h).w3 31 0 = 0)
    (hst : (getCursor (stagedDrawer h).cursor h).st = .armed) : drawerWrite i h = drawerStored i (stagedDrawer h) h := by
  have hcursor : getCursor (stagedDrawer h).cursor (drawerStored i (stagedDrawer h) h) = getCursor (stagedDrawer h).cursor h := by
    rw [getCursor, show (drawerStored i (stagedDrawer h) h).cur.cursors = h.cur.cursors from deleteDrawer_cursors i h, getCursor]
  rw [drawerWrite, if_neg (by simp [hfree])]
  refine (if_neg fun hbad => ?_).trans (if_neg fun hran => ?_)
  · rcases Bool.or_eq_true_iff.1 hbad with hbad | hbad
    · exact Bool.false_ne_true (hgood.symm.trans hbad)
    · obtain ⟨hkind, hne⟩ := Bool.and_eq_true_iff.1 hbad
      exact bne_iff_ne.1 hne (hlast (beq_iff_eq.1 hkind))
  · have hran' : (getCursor (stagedDrawer h).cursor h).st = .running ∨ (getCursor (stagedDrawer h).cursor h).st = .stalled := by
      rw [← hcursor]
      exact hran
    simp [hst] at hran'

/-- CURSOR_DRAWER_CMD's fields. -/
theorem drawerWord_fields {op : Nat} (hop : op < 4) (i : Fin 4096) :
    mkFld 31 30 op + i < 2 ^ 32 ∧ nbits (mkFld 31 30 op + i) 11 0 = i ∧ nbits (mkFld 31 30 op + i) 31 30 = op := by
  have hi := i.isLt
  simp only [mkFld, nbits, Nat.shiftLeft_eq, Nat.shiftRight_eq_div_pow]
  norm_num
  omega

/-- A write of CURSOR_DRAWER_CMD. -/
theorem drawerCmd_answers {c : Instr} {op : Nat} (hop : op < 4) (i : Fin 4096)
    (hc : exec c s = regRow r 0xB0 0xC0 4 (mkFld 31 30 op + i) s) (ha : admits r 0xB0 0xC0 s = true) :
    AnswersHub c s (fun h => if op = 1 then drawerWrite i h else if op = 2 then drawerRead i h else if op = 3 then drawerDelete i h else h) := by
  obtain ⟨hlt, hindex, hcode⟩ := drawerWord_fields hop i
  refine answersHub_congr (answersHub_write (f := drawerCmd (mkFld 31 30 op + i)) hc ha (by norm_num) pageInfo_cursor rfl rfl (by norm_num)
    (by norm_num) rfl hlt rfl rfl) ?_
  rw [drawerCmd, hindex, hcode]

theorem drawerWrite_answers (i : Fin 4096) (ha : admits r 0xB0 0xC0 s = true) : AnswersHub (.drawerWrite r i) s (drawerWrite i) :=
  drawerCmd_answers (op := 1) (by norm_num) i rfl ha

theorem drawerRead_answers (i : Fin 4096) (ha : admits r 0xB0 0xC0 s = true) : AnswersHub (.drawerRead r i) s (drawerRead i) :=
  drawerCmd_answers (op := 2) (by norm_num) i rfl ha

theorem drawerDelete_answers (i : Fin 4096) (ha : admits r 0xB0 0xC0 s = true) : AnswersHub (.drawerDelete r i) s (drawerDelete i) :=
  drawerCmd_answers (op := 3) (by norm_num) i rfl ha

theorem drawerWrite_refused (i : Fin 4096) (ha : admits r 0xB0 0xC0 s = true) (hfree : drawerBusy i s.hub = false)
    (hbad : drawerBad (stagedDrawer s.hub) s.hub = true) : HubAnswers (.drawerWrite r i) s (fun h => regBit 0xB0 0x18 16 h = true ∧
      h.cur = { s.hub.cur with result := 2 } ∧ SameMemory s.hub h) := by
  have hwrite := drawerWrite_bad hfree hbad
  have hswitch := raise_switch 0xB0 16 s.hub
  have hrep := hubAnswers_reported (b := 16) (drawerWrite_answers i ha) (hwrite ▸ raise_sets 0xB0 16 (by norm_num) s.hub)
    (hwrite ▸ (⟨hswitch.mem, hswitch.poison⟩ : SameMemory s.hub (setDrawerResult 2 (raise 0xB0 16 s.hub))))
  rwa [hwrite, setDrawerResult, raise_cur] at hrep

theorem drawerWrite_written (i : Fin 4096) (ha : admits r 0xB0 0xC0 s = true) (hfree : drawerBusy i s.hub = false)
    (hgood : drawerBad (stagedDrawer s.hub) s.hub = false)
    (hlast : (stagedDrawer s.hub).kind = 4 → fld (stagedDrawer s.hub).w3 31 0 = 0)
    (hst : (getCursor (stagedDrawer s.hub).cursor s.hub).st = .armed) : HubAnswers (.drawerWrite r i) s (fun h =>
      Tab.get? h.cur.drawers i = some (stagedDrawer s.hub) ∧ h.cur.result = 0 ∧ SameMemory s.hub h) := by
  refine hubAnswers_of_moves (drawerWrite_answers i ha) fun y hswitch _ => ?_
  rw [drawerWrite_stores hfree hgood hlast hst] at hswitch
  obtain ⟨hmem, hpoison⟩ := deleteDrawer_sameMemory i s.hub
  rw [hswitch.cur]
  refine ⟨?_, rfl, hswitch.mem.trans hmem, hswitch.poison.trans hpoison⟩
  exact (tab_get_set ..).trans (if_pos rfl)

/-- R241: the entry goes to the staging registers. -/
theorem drawerRead_present {d : Drawer} (hd : Tab.get? h.cur.drawers i = some d) (hfree : drawerBusy i h = false) :
    drawerRead i h = setDrawerResult 0 ((List.range 4).foldl (fun x j => putReg 0xB0 (0xA0 + 8 * j) (nth (drawerWords i d h) j 0) x) h) := by
  simp only [drawerRead, hd, hfree, Bool.false_eq_true, if_false, curPage]

/-- R241: a staging register reads the word last written to it. -/
theorem getReg_staged (ws : List Word) {n j : Nat} (hj : j < n) (h : Hub) :
    getReg 0xB0 (0xA0 + 8 * j) ((List.range n).foldl (fun x j => putReg 0xB0 (0xA0 + 8 * j) (nth ws j 0) x) h) = nth ws j 0 := by
  induction n with
  | zero => exact absurd hj (Nat.not_lt_zero j)
  | succ n ih =>
    rw [List.range_succ, List.foldl_append, List.foldl_cons, List.foldl_nil, getReg_putReg]
    by_cases heq : j = n
    · rw [if_pos (by rw [heq]), heq]
    · rw [if_neg (by unfold regKey; omega), ih (by omega)]

theorem drawerRead_shows (i : Fin 4096) (ha : admits r 0xB0 0xC0 s = true) {d : Drawer} (hd : Tab.get? s.hub.cur.drawers i = some d)
    (hfree : drawerBusy i s.hub = false) : HubAnswers (.drawerRead r i) s (fun h => h.cur = { s.hub.cur with result := 0 } ∧
      SameMemory s.hub h ∧ getReg 0xB0 0xA0 h = d.w0 ∧ getReg 0xB0 0xB0 h = d.w2) := by
  refine hubAnswers_of_moves (drawerRead_answers i ha) fun y hswitch hsteady => ?_
  rw [drawerRead_present hd hfree] at hswitch hsteady
  refine ⟨hswitch.cur, ⟨hswitch.mem, hswitch.poison⟩, ?_, ?_⟩
  · exact (hsteady.reg 0xB0 0xA0 (by unfold plainReg; norm_num)).trans (getReg_staged _ (n := 4) (j := 0) (by norm_num) _)
  · exact (hsteady.reg 0xB0 0xB0 (by unfold plainReg; norm_num)).trans (getReg_staged _ (n := 4) (j := 2) (by norm_num) _)

theorem drawerDelete_removes (i : Fin 4096) (ha : admits r 0xB0 0xC0 s = true) {d : Drawer}
    (hd : Tab.get? s.hub.cur.drawers i = some d) : HubAnswers (.drawerDelete r i) s (fun h => Tab.get? h.cur.drawers i = none ∧
      h.cur.result = 0 ∧ (∀ q ∈ h.cur.holds, q.drawer ≠ i) ∧ SameMemory s.hub h) := by
  have hdelete : drawerDelete i s.hub = setDrawerResult 0 (deleteDrawer i s.hub) := by rw [drawerDelete, hd]
  refine hubAnswers_of_moves (drawerDelete_answers i ha) fun y hswitch _ => ?_
  rw [hdelete] at hswitch
  obtain ⟨hmem, hpoison⟩ := deleteDrawer_sameMemory i s.hub
  rw [hswitch.cur]
  refine ⟨?_, rfl, fun q hq => ?_, hswitch.mem.trans hmem, hswitch.poison.trans hpoison⟩
  · exact (tab_get_erase ..).trans (if_pos rfl)
  · have hq' : q ∈ (deleteDrawer i s.hub).cur.holds := hq
    rw [deleteDrawer_holds] at hq'
    simpa using (List.mem_filter.1 hq').2

end Drawers

/-! ### The end of a firing's work (R219, R225, R242) -/

section Work

variable {r : Requester} {s : State} {h : Hub} {i : Nat} {q : DrawerRun}

/-- R242: a report other than LATE that the FIFO has room for. -/
theorem report_room {status : Nat} (hlate : status ≠ repLate) (hroom : h.cur.reports.length < 64) (drawer cursor step reason : Nat)
    (slack : Int) (notReady refused : Nat) : ∃ e : DrawerReport,
      report status drawer cursor step reason slack notReady refused h =
        raiseEvent 0xB0 0 { h with cur := { h.cur with reports := h.cur.reports ++ [e] } } := by
  apply Exists.intro
  rw [report, if_neg hlate]
  exact (if_neg (Nat.not_le.2 hroom)).trans (if_neg hlate)

/-- A firing with nothing left to do, its end not yet seen. -/
structure WorkEnded (i : Nat) (q : DrawerRun) : Prop where
  drawer : q.drawer = i
  todo : q.todo = []
  wait : q.wait = []
  apply : q.apply = none
  doneAt : q.doneAt = none
  deleted : q.deleted = false

theorem drawerWorkDone_one (k : WorkEnded i q) (hruns : h.cur.runs = [q]) : drawerWorkDone i h =
    cursorPump (match (runComplete q (setRuns [] h)).1 with
      | some p => setRuns ((runComplete q (setRuns [] h)).2.cur.runs ++ [p]) (runComplete q (setRuns [] h)).2
      | none => (runComplete q (setRuns [] h)).2) := by
  have hset : cursorPump h = h := cursorPump_settled (by simp [hruns, k.todo, k.wait])
  have htake : takeFirst (fun r => r.drawer == i && r.todo.isEmpty && r.wait.isEmpty && r.apply.isNone && r.doneAt.isNone) [q] =
      some (q, []) := if_pos (by simp [k.drawer, k.todo, k.wait, k.apply, k.doneAt])
  rw [drawerWorkDone, hset, hruns]
  dsimp only
  rw [htake] <;> rfl

theorem drawerWorkDone_notes (k : WorkEnded i q) (hruns : h.cur.runs = [q]) (hlate : q.lateAt = none) :
    drawerWorkDone i h = setRuns [{ q with doneAt := some h.devTime }] h := by
  have hdone : runComplete q (setRuns [] h) = (some { q with doneAt := some h.devTime }, setRuns [] h) := by
    rw [runComplete, if_neg (by simp [k.deleted]), hlate]
    rfl
  rw [drawerWorkDone_one k hruns, hdone]
  exact cursorPump_settled (by simp [setRuns, k.todo, k.wait])

theorem drawerWorkDone_reports (k : WorkEnded i q) (hruns : h.cur.runs = [q]) {t : Nat} (hlate : q.lateAt = some t)
    (hroom : h.cur.reports.length < 64) : ∃ e : DrawerReport, drawerWorkDone i h =
      raiseEvent 0xB0 0 { h with cur := { h.cur with runs := [], reports := h.cur.reports ++ [e] } } := by
  have hdone : runComplete q (setRuns [] h) = (none, report repDoneLate q.drawer q.cursor q.dueStep q.reason
      (min (-1) (slackUs h.devTime t)) 0 q.refused (setRuns [] h)) := by
    rw [runComplete, if_neg (by simp [k.deleted]), hlate]
    rfl
  obtain ⟨e, he⟩ := report_room (h := setRuns [] h) (status := repDoneLate) (by decide) hroom q.drawer q.cursor q.dueStep q.reason
    (min (-1) (slackUs h.devTime t)) 0 q.refused
  refine ⟨e, ?_⟩
  rw [drawerWorkDone_one k hruns, hdone, he]
  exact cursorPump_idle (by rw [raiseEvent_cur]; rfl)

theorem drawerWorkDone_late (i : Fin 4096) (k : WorkEnded i q) (hserves : serving s.hub = true) (hruns : s.hub.cur.runs = [q]) {t : Nat}
    (hlate : q.lateAt = some t) (hroom : s.hub.cur.reports.length < 64) : HubAnswers (.drawerWorkDone i) s (fun h => h.cur.runs = [] ∧
      h.cur.reports.length = s.hub.cur.reports.length + 1 ∧ regBit 0xB0 0xE8 0 h = true ∧ SameMemory s.hub h) := by
  obtain ⟨e, he⟩ := drawerWorkDone_reports k hruns hlate hroom
  refine unitRow_answers rfl hserves ?_
  rw [he]
  refine ⟨?_, ?_, cursorEvent_sets (by norm_num) _, raiseEvent_mem .., raiseEvent_poison ..⟩
  · rw [raiseEvent_cur]
  · rw [raiseEvent_cur]
    exact List.length_append

theorem reportPop_answers (ha : admits r 0xB0 0xE0 s = true) : AnswersHub (.reportPop r) s
    (fun h => { h with cur := { h.cur with reports := h.cur.reports.tail } }) := by
  refine answersHub_congr (answersHub_write (f := reportPop) rfl ha (by norm_num) pageInfo_cursor rfl rfl (by norm_num) (by norm_num) rfl
    (by norm_num) rfl rfl) ?_
  rw [reportPop, List.drop_one]

end Work

/-- Settles O21, a lemma for each command and its outcome. -/
theorem cursorCommandsAct : Obligations.CursorCommandsAct := by
  intro r s c x
  refine ⟨fun ha => ⟨fun hst => ?_, cursorDefine_inUse ha, cursorRelease_frees ha⟩, fun bind v ha hv => ⟨fun hst => ?_, cursorDefWrite_inUse ha hv⟩,
    fun v ha hv hst hin => ⟨fun hyes hdrawers hruns hmissed hholds _ htables => ?_, cursorAdvance_denied ha hv hst hin⟩,
    cursorIdleExpiry_stalls, fun i ha => ?_, fun q i hserves hruns hdrawer htodo hwait happly hdone hdeleted => ?_, reportPop_answers⟩
  · exact answersHub_congr (cursorDefine_answers ha) (if_pos hst)
  · exact answersHub_congr (cursorDefWrite_answers ha hv) (cursorDefWrite_free hst _)
  · have hrest : AtRest s.hub := ⟨hdrawers, hruns, hmissed, hholds⟩
    exact ⟨cursorAdvance_starts ha hv hst hin hyes hrest htables, fun m hran hm =>
      ⟨cursorAdvance_moves ha hv hst hin hyes hrest htables hran hm, cursorAdvance_behind ha hv hst hin hyes htables hran hm⟩⟩
  · intro d
    have hd : stagedDrawer s.hub = d := stagedDrawer_eq s.hub
    clear_value d
    subst hd
    refine ⟨fun hbusy => answersHub_congr (drawerWrite_answers i ha) (if_pos hbusy), drawerWrite_refused i ha, drawerWrite_written i ha,
      fun hnone => ⟨?_, ?_⟩, fun e he => ⟨drawerRead_shows i ha he, drawerDelete_removes i ha he⟩⟩
    · exact answersHub_congr (drawerRead_answers i ha) (by rw [drawerRead, hnone]; rfl)
    · exact answersHub_congr (drawerDelete_answers i ha) (by rw [drawerDelete, hnone]; rfl)
  · have hended : WorkEnded i q := ⟨hdrawer, htodo, hwait, happly, hdone, hdeleted⟩
    refine ⟨fun hlate => ?_, fun t hlate hroom => drawerWorkDone_late i hended hserves hruns hlate hroom⟩
    have hrow : exec (.drawerWorkDone i) s = unitRow (drawerWorkDone i) s := rfl
    rw [hrow, unitRow, if_pos hserves, onHub, drawerWorkDone_notes hended hruns hlate]
    rfl

end Sys2Proof.Proofs

/-!
PROOFS. Time sync (R234, R235, R263) and the Yumer links (R251, R252, R264, R265, R271): what a sync frame, a timer or a frame that
fails its checks comes to, and the bounds of requests and of tile writes (R260, R264).
-/
namespace Sys2Proof.Proofs

open Machine Safety Laws

/-! ### Time sync (R234, R235, R263) -/

section Sync

variable {s : State} {h : Hub} {p tx eTx eRx hops : Nat} {off : Int}

/-- Frames sent one after the other. -/
theorem foldl_emit {α : Type} (g : α → Out) (l : List α) (h : Hub) :
    l.foldl (fun x a => emit (g a) x) h = { h with outs := h.outs ++ l.map g } := by
  induction l generalizing h with
  | nil => simp
  | cons a l ih => rw [List.foldl_cons, ih, List.map_cons, ← List.singleton_append, ← List.append_assoc]; rfl

/-- R234: a module that is behind and not locked steps forward and is locked. -/
theorem correct_ahead (hlocked : h.time.locked = false) (hoff : 0 < off) : correct off h =
    { h with devTime := h.devTime + off.toNat, time := { h.time with locked := true, slewForward := 0, slewBack := 0 } } := by
  rw [correct]
  exact (if_pos (by rw [hlocked]; rfl)).trans (if_pos hoff)

/-- R235: a module that takes time is one hop further than its source. -/
theorem syncState_follows (hmaster : masterEn h = false) (hops : Nat) :
    syncState hops h = { h with time := { h.time with sync := 1, hops := min 0xFE (hops + 1) } } := by
  rw [syncState, if_neg (by rw [hmaster]; exact Bool.false_ne_true)]

/-- What a sync frame records, of its port and of the time base. -/
def syncNoted (p tx hops : Nat) (h : Hub) : Hub :=
  putPort p { getPort p h with syncTx := tx, syncRx := h.devTime, syncHops := hops } { h with time := { h.time with lastSync := h.devTime } }

/-- What the module knows of an offset and of its source. -/
def syncMeasured (off : Int) (p : Nat) (h : Hub) : Hub := { h with time := { h.time with offset := wrapInt 32 off, source := p } }

theorem timeSync_taken (hen : syncEn h = true) (hport : syncPort p h = true) : timeSync p tx eTx eRx hops h =
    if h.time.sync = 3 ∨ eTx = 0 ∨ bestSync (syncNoted p tx hops h) ≠ some p then syncNoted p tx hops h
    else syncState hops (correct (syncOffset eTx eRx tx h.devTime)
      (syncMeasured (syncOffset eTx eRx tx h.devTime) p (syncNoted p tx hops h))) := by
  rw [timeSync]
  exact if_neg (by simp [hen, hport])

theorem timeSync_records (hen : syncEn h = true) (hport : syncPort p h = true) (hno : h.time.sync = 3 ∨ eTx = 0) :
    timeSync p tx eTx eRx hops h = syncNoted p tx hops h := by
  rw [timeSync_taken hen hport]
  exact if_pos (hno.imp_right Or.inl)

theorem timeSync_locks (hen : syncEn h = true) (hport : syncPort p h = true) (hsync : h.time.sync ≠ 3) (hecho : eTx ≠ 0)
    (hbest : bestSync (syncNoted p tx hops h) = some p) (hlocked : h.time.locked = false) (hmaster : masterEn h = false)
    (hoff : 0 < syncOffset eTx eRx tx h.devTime) : timeSync p tx eTx eRx hops h = { syncNoted p tx hops h with
      devTime := h.devTime + (syncOffset eTx eRx tx h.devTime).toNat
      time := { (syncNoted p tx hops h).time with offset := wrapInt 32 (syncOffset eTx eRx tx h.devTime), source := p, locked := true,
                                                  slewForward := 0, slewBack := 0, sync := 1, hops := min 0xFE (hops + 1) } } := by
  have hno : ¬(h.time.sync = 3 ∨ eTx = 0 ∨ bestSync (syncNoted p tx hops h) ≠ some p) := by
    rintro (hthree | hzero | hother)
    · exact hsync hthree
    · exact hecho hzero
    · exact hother hbest
  rw [timeSync_taken hen hport, if_neg hno,
    correct_ahead (h := syncMeasured (syncOffset eTx eRx tx h.devTime) p (syncNoted p tx hops h)) hlocked hoff]
  refine syncState_follows ?_ hops
  exact hmaster

theorem syncSend_sends (hen : syncEn h = true) : syncSend h = { h with
    outs := h.outs ++ ((List.range 28).filter (fun p => syncPort p h)).map (fun p => .frame p
      { opcode := 0x41, posted := true, len := 32, payload := syncPayload p h, scarry := scarryOf (syncPayload p h) }) } := by
  rw [syncSend, if_neg (by rw [hen]; exact Bool.false_ne_true)]
  exact foldl_emit _ _ h

theorem syncLossTimeout_holds (hen : syncEn s.hub = true) (hsync : s.hub.time.sync = 1)
    (hlate : s.hub.time.lastSync + 1000000 ≤ s.hub.devTime) : HubAnswers .syncLossTimeout s (fun h =>
      h.time = { s.hub.time with sync := 2 } ∧ regBit 1 0x18 16 h = true ∧ h.devTime = s.hub.devTime ∧ SameMemory s.hub h) := by
  have hloss : syncLoss s.hub = raise 1 16 { s.hub with time := { s.hub.time with sync := 2 } } := if_pos ⟨hen, hsync, hlate⟩
  refine hubRow_answers rfl ?_
  rw [hloss]
  exact ⟨raise_time .., raise_sets 1 16 (by norm_num) _, raise_devTime .., raise_mem .., raise_poison ..⟩

theorem masterTimeout_acts (hmaster : masterEn h = true) (hlocked : h.time.locked = false) (hsync : h.time.sync ≠ 3)
    (hlate : h.time.lastSync + 100000000 ≤ h.devTime) :
    masterTimeout h = { h with time := { h.time with sync := 3, hops := 0 } } := if_pos ⟨hmaster, hlocked, hsync, hlate⟩

end Sync

/-! ### Acknowledgements and replays (R251, R252) -/

section Link

variable {s : State} {h : Hub} {f : Frame} {p : Fin 28}

/-- R48: the counters of a PORT page but for PORT_LINK_DOWNS hold at their limit and tell nobody. -/
theorem portCount_regs {slot : Nat} (hslot : slot ≤ 10) (p : Fin 28) (n : Nat) (h : Hub) :
    ∃ r, count (portPage p) slot n h = { h with regs := r } := by
  have hpage : pageInfo (portPage p) = some ⟨.port, p, 0, 3⟩ := pageInfo_port p
  have hclass : counterClass ⟨.port, p, 0, 3⟩ slot = 1 := if_pos hslot
  simp only [count, hpage, hclass, if_true]
  split
  · exact ⟨h.regs, rfl⟩
  · exact ⟨_, rfl⟩

/-- R251: a kept frame that is sent once more. -/
def resent (due : SentFrame → Bool) (now : Nat) (x : SentFrame) : SentFrame :=
  if due x then { x with sentAt := now, replays := x.replays + 1 } else x

theorem replayFrames_regs (p : Fin 28) (due : SentFrame → Bool) (h : Hub) : ∃ r, replayFrames p due h =
    { putPort p { getPort p h with replay := (getPort p h).replay.map (resent due h.devTime) } h with
      regs := r, outs := h.outs ++ ((getPort p h).replay.filter due).map (fun x => .frame p x.frame) } := by
  obtain ⟨r, hr⟩ := portCount_regs (slot := 6) (by norm_num) p ((getPort p h).replay.filter due).length
    (putPort p { getPort p h with replay := (getPort p h).replay.map (resent due h.devTime) } h)
  refine ⟨r, (foldl_emit _ _ _).trans ?_⟩
  exact congrArg (fun x : Hub => { x with outs := x.outs ++ ((getPort p h).replay.filter due).map (fun y : SentFrame => Out.frame p y.frame) }) hr

theorem getPort_replayFrames (p : Fin 28) (due : SentFrame → Bool) (h : Hub) : getPort p (replayFrames p due h) =
    { getPort p h with replay := (getPort p h).replay.map (resent due h.devTime) } := by
  obtain ⟨r, hr⟩ := replayFrames_regs p due h
  rw [hr]
  exact getPort_putPort_same p _ h

/-- R251: unacknowledged 20 us after sending. -/
def overdue (h : Hub) (x : SentFrame) : Bool := decide (x.sentAt + 20000 ≤ h.devTime)

theorem replayTimeout_ready (hst : (getPort p h).st = .ready) :
    replayTimeout p h = replayLimit p (replayFrames p (overdue h) h) := if_neg (not_not_intro hst)

/-- R251: no frame of the port has been sent a fifth time. -/
theorem replayTimeout_sends (hst : (getPort p h).st = .ready) (hfew : ∀ x ∈ (getPort p h).replay, x.replays < 3) :
    replayTimeout p h = replayFrames p (overdue h) h := by
  rw [replayTimeout_ready hst, replayLimit, if_neg]
  rw [getPort_replayFrames, List.any_map, List.any_eq_true]
  rintro ⟨x, hx, hfour⟩
  have hmany : 4 ≤ (resent (overdue h) h.devTime x).replays := of_decide_eq_true hfour
  have hless := hfew x hx
  unfold resent at hmany
  split at hmany
  · exact absurd hmany (by simpa using hless)
  · omega

theorem replayTimeout_drops (hst : (getPort p h).st = .ready)
    (hlast : ∃ x ∈ (getPort p h).replay, x.replays = 3 ∧ x.sentAt + 20000 ≤ h.devTime) :
    replayTimeout p h = portTo p .detect (raise (portPage p) 19 (replayFrames p (overdue h) h)) := by
  obtain ⟨x, hx, hthree, hdue⟩ := hlast
  rw [replayTimeout_ready hst, replayLimit, if_pos]
  rw [getPort_replayFrames, List.any_map, List.any_eq_true]
  refine ⟨x, hx, decide_eq_true ?_⟩
  rw [resent, if_pos (show overdue h x = true from decide_eq_true hdue), hthree]

theorem replayExpiry_stays (hst : (getPort p (replayTimeout p h)).st = .ready) : replayExpiry p h = replayTimeout p h :=
  if_neg fun hleft => hleft.2.1 hst

theorem replayExpiry_alone (hbridge : bindMode p h ≠ 2 ∨ h.twin.en = false) : replayExpiry p h = replayTimeout p h := by
  refine if_neg fun ⟨_, _, hmode, hen⟩ => ?_
  rcases hbridge with hother | hoff
  · exact hother hmode
  · rw [hoff] at hen
    exact Bool.false_ne_true hen

theorem replayTimeout_answers (hst : (getPort p s.hub).st = .ready) (hfew : ∀ x ∈ (getPort p s.hub).replay, x.replays < 3) :
    HubAnswers (.replayTimeout p) s (fun h => (getPort p h).st = .ready ∧ SameMemory s.hub h ∧
      ∀ x ∈ (getPort p s.hub).replay, x.sentAt + 20000 ≤ s.hub.devTime → Out.frame p x.frame ∈ h.outs) := by
  have hsends := replayTimeout_sends hst hfew
  have hready : (getPort p (replayFrames p (overdue s.hub) s.hub)).st = .ready := by rw [getPort_replayFrames]; exact hst
  have hexpiry : replayExpiry p s.hub = replayFrames p (overdue s.hub) s.hub := by
    rw [replayExpiry_stays (by rw [hsends]; exact hready), hsends]
  obtain ⟨r, hr⟩ := replayFrames_regs p (overdue s.hub) s.hub
  have hcoh : (replayFrames p (overdue s.hub) s.hub).coh = s.hub.coh := by rw [hr]; rfl
  refine syncRow_answers rfl ?_
  rw [hexpiry, pairTell_of_coh hcoh]
  refine ⟨hready, ?_, fun x hx hdue => ?_⟩
  · rw [hr]
    exact ⟨rfl, rfl⟩
  · rw [hr]
    exact List.mem_append_right _ (List.mem_map.2 ⟨x, List.mem_filter.2 ⟨hx, decide_eq_true hdue⟩, rfl⟩)

theorem replayTimeout_detects (hst : (getPort p s.hub).st = .ready)
    (hlast : ∃ x ∈ (getPort p s.hub).replay, x.replays = 3 ∧ x.sentAt + 20000 ≤ s.hub.devTime)
    (hbridge : bindMode p s.hub ≠ 2 ∨ s.hub.twin.en = false) :
    HubAnswers (.replayTimeout p) s (fun h => (getPort p h).st = .detect) := by
  refine syncRow_answers rfl ?_
  rw [linkOnly_st ((pairTell_steady _ _).port p), replayExpiry_alone hbridge, replayTimeout_drops hst hlast, portTo_st]

/-- R251, R252: an acknowledgement that asks for no replay, with nothing that waits to be sent. -/
theorem linkCtrl_acks (hst : (getPort p h).st = .ready) (hidle : h.egress = []) (ack : Nat) (credits : List Nat) :
    linkCtrl p ack none credits h = putPort p { getPort p h with
      replay := (getPort p h).replay.filter (fun x => !ackedBy ack x.frame.seq)
      credits := (List.range 8).map (fun c => (getPort p h).credits.getD c 0 + credits.getD c 0) } h := by
  have hnone : ∀ v : Port, drainPort p (putPort p v h).egress.length (putPort p v h) = putPort p v h := fun v => by
    rw [show (putPort p v h).egress = [] from hidle]
    rfl
  rw [linkCtrl, if_neg (not_not_intro hst)]
  exact hnone _

theorem linkCtrlSend_grants (hst : (getPort p h).st = .ready) : let g := (List.range 8).map (fun c => grantable p c h)
    linkCtrlSend p h = { putPort p { getPort p h with
        granted := (List.range 8).map (fun c => (getPort p h).granted.getD c 0 + g.getD c 0) } h with
      outs := h.outs ++ [.linkCtrl p (((getPort p h).rxSeq + 65535) % 65536)
        (if (getPort p h).discarding then some (getPort p h).rxSeq else none) g] } := if_neg (not_not_intro hst)

/-! ### Frames that fail their checks (R251, R271) -/

theorem askReplay_asks (hdisc : (getPort p h).discarding = false) : askReplay p h =
    emit (.linkCtrl p (((getPort p h).rxSeq + 65535) % 65536) (some (getPort p h).rxSeq) (List.replicate 8 0))
      (putPort p { getPort p h with discarding := true } h) := if_neg (by rw [hdisc]; exact Bool.false_ne_true)

/-- R251: a frame with an uncorrectable codeword or a failing HCRC. -/
theorem badFrame_asks {k : Nat} (hk : k < 2) (hready : portReady p h = true) (hdisc : (getPort p h).discarding = false) :
    ∃ r, badFrame p f k h = emit (.linkCtrl p (((getPort p h).rxSeq + 65535) % 65536) (some (getPort p h).rxSeq) (List.replicate 8 0))
      (putPort p { getPort p h with discarding := true } { h with regs := r }) := by
  have hup : ¬((!portReady p h) = true) := by rw [hready]; exact Bool.false_ne_true
  obtain rfl | rfl : k = 0 ∨ k = 1 := by omega
  · obtain ⟨r, hr⟩ := portCount_regs (slot := 5) (by norm_num) p 1 h
    refine ⟨r, ?_⟩
    rw [badFrame, if_neg hup, if_pos rfl, hr]
    exact askReplay_asks hdisc
  · refine ⟨h.regs, ?_⟩
    rw [badFrame, if_neg hup, if_neg (by norm_num), if_pos rfl]
    exact askReplay_asks hdisc

theorem frameCrcFail_asks {k : Fin 4} (hk : k.val < 2) (hready : portReady p s.hub = true) (hdisc : (getPort p s.hub).discarding = false) :
    HubAnswers (.frameCrcFail p f k) s (fun h => getPort p h = { getPort p s.hub with discarding := true } ∧ SameMemory s.hub h ∧
      Out.linkCtrl p (((getPort p s.hub).rxSeq + 65535) % 65536) (some (getPort p s.hub).rxSeq) (List.replicate 8 0) ∈ h.outs) := by
  obtain ⟨r, hr⟩ := badFrame_asks (f := f) hk hready hdisc
  refine hubRow_answers (f := badFrame p f k) (if_neg (by omega)) ?_
  rw [hr]
  exact ⟨getPort_putPort_same p _ _, ⟨rfl, rfl⟩, List.mem_append_right _ (List.mem_singleton.2 rfl)⟩

theorem seqCheck_takes {n : Nat} (hseq : n = (getPort p h).rxSeq) : seqCheck p n h = (.take, (seqCheck p n h).2) := by
  rw [seqCheck, if_pos hseq]

/-- R271: what becomes of a stomped frame past the link's own count. -/
def stompDropped (p : Nat) (f : Frame) (h : Hub) : Hub := dropFrame p false .stomped f (raise (portPage p) 21 (count (portPage p) 7 1 h))

theorem rxFrame_stomped (hready : portReady p s.hub = true) (hcrc : f.crcOk = true) (hseq : f.seq = (getPort p s.hub).rxSeq)
    (hstomped : f.stomped = true) :
    (rxFrame p f s) = onHub (fun h => stompDropped p f (linkCount p f (seqCheck p f.seq h).2)) s := by
  rw [rxFrame, if_neg (by simp [hready]), if_neg (by simp [hcrc]), seqCheck_takes hseq]
  exact if_pos hstomped

theorem frameCrcFail_stomped {k : Fin 4} (hk : k.val = 3) (hready : portReady p s.hub = true) (hcrc : f.crcOk = true)
    (hseq : f.seq = (getPort p s.hub).rxSeq) :
    HubAnswers (.frameCrcFail p f k) s (fun h => regBit (0x10 + p.val) 0x18 21 h = true ∧ SameMemory s.hub h) := by
  have hrx := rxFrame_stomped (s := s) (p := p) (f := { f with stomped := true }) hready hcrc hseq rfl
  have hdrop := fun h => dropFrame_moves switch_moves p false .stomped { f with stomped := true } h
  have hswitch : SwitchOnly s.hub (rxFrame p { f with stomped := true } s).hub := by
    rw [hrx]
    exact (seqCheck_moves switch_moves (fun _ _ _ => rfl) p f.seq s.hub).trans ((linkCount_moves switch_moves (fun _ _ _ => rfl) p _ _).trans
      ((count_switch _ _ _ _).trans ((raise_switch _ _ _).trans (hdrop _))))
  have hrow : exec (.frameCrcFail p f k) s = .next (rxFrame p { f with stomped := true } s) := by
    rw [← pairSyncS_of_coh (f := rxFrame p { f with stomped := true }) hswitch.coh]
    exact if_pos hk
  refine ⟨_, hrow, ?_, ?_, ?_, sameMemory_of_switch hswitch⟩
  · rw [hrx]; rfl
  · rw [hrx]; rfl
  · rw [hrx]
    exact (dropFrame_moves steady_moves p false .stomped { f with stomped := true } _).err _ 21 (raise_sets _ 21 (by norm_num) _)

end Link

/-! ### Bounds of requests and of tile writes (R260, R264, R265) -/

section Bounds

variable {s : State} {h : Hub} {tag : Nat} {o : Outstanding} {a : Assembly}

/-- R395, R406: with no attention request and no firing, the end of a context means nothing more. -/
theorem svcSettle_idle (hidle : Settled h) : svcSettle h = h := by
  obtain ⟨hruns, hattends⟩ := hidle
  have hattend : attendSettle h = h := by rw [attendSettle, hattends, List.foldl_nil]
  rw [svcSettle, hattend, applySettle, hruns, List.foldl_nil, setRuns_nil hruns]

/-- R265: the tags under quarantine once a request has found its target dead. -/
def quarantined (f : Frame) (h : Hub) : List DeadTag :=
  h.deadTags.filter (fun d => decide (h.devTime < d.until_)) ++ [⟨f.srcUnit, f.tag, h.devTime + 2 * deadBound h⟩]

theorem noteDead_switch (f : Frame) (h : Hub) : SwitchOnly { h with deadTags := quarantined f h } (noteDead f h) :=
  (((putReg_switch 0x40 0x60 _ _).trans (putReg_switch 0x40 0x68 _ _)).trans (count_switch 0x40 3 1 _)).trans (raise_switch 0x40 16 _)

theorem noteDead_sets (f : Frame) (h : Hub) : regBit 0x40 0x18 16 (noteDead f h) = true := raise_sets 0x40 16 (by norm_num) _

/-- R264: the one request outstanding, its issuer told by an error of the switch. -/
theorem deadExpiry_notify (hone : h.outstanding = [o]) (htag : o.frame.tag = tag) (hpurpose : o.purpose = .notify)
    (hdue : o.issued + deadBound h ≤ h.devTime) :
    deadExpiry tag h = svcSettle (raise clPage 17 (noteDead o.frame { h with outstanding := [] })) := by
  have htake : takeFirst (fun x : Outstanding => x.frame.tag == tag && decide (x.issued + deadBound h ≤ h.devTime)) [o] = some (o, []) :=
    if_pos (by simp [htag, hdue])
  rw [deadExpiry, hone, htake]
  dsimp only
  rw [completeFor, hpurpose]
  rfl

theorem deadTargetExpiry_answers (hruns : storeRuns s.hub = true) (hone : s.hub.outstanding = [o]) (htag : o.frame.tag = tag)
    (hpurpose : o.purpose = .notify) (hdue : o.issued + deadBound s.hub ≤ s.hub.devTime) (hidle : s.hub.cur.runs = [])
    (hcloak : s.hub.cloak = {}) : HubAnswers (.deadTargetExpiry tag) s (fun h => h.outstanding = [] ∧ regBit 0x40 0x18 16 h = true ∧
      (⟨o.frame.srcUnit, tag, s.hub.devTime + 2 * deadBound s.hub⟩ : DeadTag) ∈ h.deadTags ∧ SameMemory s.hub h) := by
  have hswitch := (noteDead_switch o.frame { s.hub with outstanding := [] }).trans (raise_switch clPage 17 _)
  have hexpiry : deadExpiry tag s.hub = raise clPage 17 (noteDead o.frame { s.hub with outstanding := [] }) := by
    rw [deadExpiry_notify hone htag hpurpose hdue]
    exact svcSettle_idle ⟨by rw [hswitch.cur]; exact hidle, by rw [hswitch.cloak]; exact congrArg Cloak.attends hcloak⟩
  have htold : pairSync (deadExpiry tag) s.hub = deadExpiry tag s.hub := pairTell_of_coh (by rw [hexpiry]; exact hswitch.coh)
  refine ⟨onHub (pairSync (deadExpiry tag)) s, congrArg Host.Outcome.next (if_pos hruns), rfl, rfl, ?_⟩
  rw [onHub, htold, hexpiry]
  refine ⟨hswitch.outstanding, (raise_steady clPage 17 _).err 0x40 16 (noteDead_sets ..), ?_, hswitch.mem, hswitch.poison⟩
  rw [hswitch.deadTags, ← htag]
  exact List.mem_append_right _ List.mem_cons_self

/-- R260: an answer to a frame other than DENIED, posted or not, leaves the assemblies as they are. -/
theorem answer_assemblies {r : Req} {p status : Nat} (hsrc : r.src = .frame p) (hstatus : status ≠ stDenied) (detail aux : Nat)
    (poison : Bool) (data : List Byte) (h : Hub) : (answer r status detail aux poison data h).assemblies = h.assemblies := by
  simp only [answer, hsrc, if_neg hstatus]
  split
  · exact foldl_keeps Hub.assemblies (fun x r => (sendFrame_switch _ x).assemblies) ..
  · exact (sendFrame_switch _ h).assemblies

theorem tileWriteExpire_one (hone : h.assemblies = [a]) (hdead : a.dead = false) (hdue : a.started + deadBound h ≤ h.devTime) :
    tileWriteExpire h = { h with assemblies := [] } ∨ ∃ f, tileWriteExpire h =
      answerStatus { id := 0, src := .frame a.port, frame := f } stIncomplete 0 { h with assemblies := [] } := by
  have hgone : [a].filter (fun b => decide (h.devTime < b.started + deadBound h)) = [] := by simp [hdue]
  have hall : [a].filter (fun b => !b.dead && decide (b.started + deadBound h ≤ h.devTime)) = [a] := by simp [hdead, hdue]
  rw [tileWriteExpire, hone, hgone, hall, List.foldl_cons, List.foldl_nil]
  split
  · exact .inl rfl
  · exact .inr ⟨_, rfl⟩

theorem tileWriteIncomplete_answers (hruns : storeRuns s.hub = true) (hone : s.hub.assemblies = [a]) (hdead : a.dead = false)
    (hdue : a.started + deadBound s.hub ≤ s.hub.devTime) :
    HubAnswers .tileWriteIncomplete s (fun h => h.assemblies = [] ∧ SameMemory s.hub h) := by
  refine ⟨onHub tileWriteExpire s, congrArg Host.Outcome.next (if_pos hruns), rfl, rfl, ?_⟩
  rw [onHub]
  obtain hnone | ⟨f, hanswer⟩ := tileWriteExpire_one hone hdead hdue
  · rw [hnone]
    exact ⟨rfl, rfl, rfl⟩
  · have hstored := answer_stored (r := { id := 0, src := .frame a.port, frame := f }) rfl stIncomplete 0 0 false []
      { s.hub with assemblies := [] }
    rw [hanswer]
    exact ⟨answer_assemblies rfl (by decide) .., hstored.mem, hstored.poison⟩

end Bounds

/-- Settles O22, a lemma for each command and its outcome. -/
theorem linksKeepTheirFrames : Obligations.LinksKeepTheirFrames := by
  intro s
  refine ⟨fun p tx eTx eRx hops hen hport => ⟨fun hno => ?_, fun hsync hecho hbest hlocked hmaster hoff => ?_⟩, fun hen => ?_,
    syncLossTimeout_holds, fun hmaster hlocked hsync hlate => ?_, fun p hst => ⟨fun ack credits hidle => ?_, ?_,
      replayTimeout_answers hst, replayTimeout_detects hst⟩,
    fun p f k hready => ⟨fun hk hdisc => frameCrcFail_asks hk hready hdisc, fun hk hcrc hseq => frameCrcFail_stomped hk hready hcrc hseq⟩,
    fun tag o => deadTargetExpiry_answers, fun a => tileWriteIncomplete_answers⟩
  · exact hubRow_next rfl (timeSync_records hen hport hno)
  · exact hubRow_next rfl (timeSync_locks hen hport hsync hecho hbest hlocked hmaster hoff)
  · exact hubRow_next rfl (syncSend_sends hen)
  · exact hubRow_next rfl (masterTimeout_acts hmaster hlocked hsync hlate)
  · exact hubRow_next rfl (linkCtrl_acks hst hidle ack credits)
  · exact hubRow_next rfl (linkCtrlSend_grants hst)

end Sys2Proof.Proofs

/-!
PROOFS. Frames that no store, ticket or engine takes: register frames (R614), completions (R255, R264, R265, R427), frames on
their way to another module (R264, R275), and reserved opcodes (R249, R250).
-/
namespace Sys2Proof.Proofs

open Machine Safety Laws

variable {p : Nat} {f : Frame} {s : State} {h : Hub} {bridge : Bool}

theorem frameNoted_switch (p : Nat) (f : Frame) (h : Hub) : SwitchOnly h (frameNoted p f h) :=
  frameNoted_moves switch_moves putPort_switch p f h

theorem frameNoted_alone (halone : pairJoined h = false) (p : Nat) (f : Frame) : pairJoined (frameNoted p f h) = false :=
  (frameNoted_gate p f h).pairJoined.trans halone

/-! ### Register frames (R614) -/

section Registers

/-- R249: unit 0x81 takes the register frames. -/
theorem localArrive_register (hunit : f.dstUnit = 0x81) (hop : f.opcode = 8 ∨ f.opcode = 9) (hform : regFormOk f = true) :
    localArrive p bridge f s = regFrame bridge f s := by
  have hposted : f.posted = false := by
    simp only [regFormOk, Bool.and_eq_true, Bool.not_eq_true'] at hform
    obtain ⟨⟨hposted, -⟩, -⟩ := hform
    exact hposted
  obtain hop | hop := hop <;>
    simp [localArrive, hunit, hop, hposted, noRequests, definedOpcode, postedOpcode, unitTakes]

theorem regFrame_read (halone : pairJoined s.hub = false) (hform : regFormOk f = true) (hop : f.opcode = 8) :
    regFrame bridge f s =
      let v := regRead (.agent f.srcModule f.srcUnit f.tenant) (f.addr / 4096) (f.addr % 4096) f.len s
      onHub (fun h => sendFrame (completionOf f stOk 0 0 false (bytesLE f.len v.1) h) h) v.2 := by
  simp [regFrame, hform, halone, hop]

/-- R614: the status that a register write's outcome completes with. -/
def writeStatus : WriteResult → Nat
  | .ok => stOk
  | .denied => stDenied
  | .badAccess => stBadRequest

/-- A module that stands alone has no other member to tell of what the write changed. -/
theorem regFrame_write (halone : pairJoined s.hub = false) (hform : regFormOk f = true) (hop : f.opcode = 9)
    (hclean : poisonedControl f = false) : regFrame bridge f s =
      let w := regWrite (.agent f.srcModule f.srcUnit f.tenant) (f.addr / 4096) (f.addr % 4096) f.len (ofBytesLE f.payload) s
      onHub (fun h => sendFrame (completionOf f (writeStatus w.1) 0 0 false [] h) h) w.2 := by
  have htell (g : Hub) : pairTell s.hub g = g := by simp [pairTell, halone]
  simp only [regFrame, hform, halone, hop, hclean, htell, Bool.not_true, Bool.false_and, Bool.false_eq_true, if_false,
    show ¬(9 = 8) by decide]
  rfl

/-- A register frame in form, taken, is served in a module that stands alone. -/
theorem frameRow_register (hunit : meetsUnit p f 0x81 s = true) (hop : f.opcode = 8 ∨ f.opcode = 9) (hform : regFormOk f = true) :
    frameRow p f s = .next (regFrame (bindMode p s.hub == 2) f (onHub (frameNoted p f) s)) := by
  have hdst : f.dstUnit = 0x81 := by
    simp only [meetsUnit, Bool.and_eq_true, beq_iff_eq] at hunit
    obtain ⟨⟨-, hdst⟩, -⟩ := hunit
    exact hdst
  rw [frameRow_unit hunit (by omega), localArrive_register hdst hop hform]

end Registers

/-! ### Completions (R255, R264, R265, R427) -/

section Completions

theorem takeFirst_of_first {α : Type} {q : α → Bool} {l m : List α} {o : α} (hbefore : ∀ x ∈ l, q x = false) (ho : q o = true) :
    takeFirst q (l ++ o :: m) = some (o, l ++ m) := by
  induction l with
  | nil => simp [takeFirst, ho]
  | cons x t ih =>
    obtain ⟨hx, ht⟩ := List.forall_mem_cons.mp hbefore
    simp [takeFirst, hx, ih ht]

theorem takeFirst_of_none {α : Type} {q : α → Bool} {l : List α} (hnone : ∀ x ∈ l, q x = false) : takeFirst q l = none := by
  induction l with
  | nil => rfl
  | cons x t ih =>
    obtain ⟨hx, ht⟩ := List.forall_mem_cons.mp hnone
    simp [takeFirst, hx, ih ht]

theorem localArrive_completion (hunit : f.dstUnit < 0xC0) (hop : f.opcode = 0x20) (halone : pairJoined s.hub = false) :
    localArrive p bridge f s = onHub (completionArrive f) s := by
  simp [localArrive, show ¬ 0xC0 ≤ f.dstUnit by omega, hop, halone]

/-- R255: completion f answers request o: it comes to the unit that issued it, with its tag. -/
abbrev Answered (f : Frame) (o : Outstanding) : Prop := o.frame.srcUnit = f.dstUnit ∧ o.frame.tag = f.tag

theorem completionArrive_awaited {o : Outstanding} {l m : List Outstanding} (hunit : f.dstUnit ≠ 0x89)
    (hsplit : h.outstanding = l ++ o :: m) (ho : Answered f o) (hbefore : ∀ x ∈ l, ¬ Answered f x) :
    completionArrive f h = svcSettle (completeFor o f { h with outstanding := l ++ m }) := by
  have htake : takeFirst (fun x : Outstanding => x.frame.srcUnit == f.dstUnit && x.frame.tag == f.tag) h.outstanding =
      some (o, l ++ m) := by
    rw [hsplit]
    exact takeFirst_of_first (by simpa [Answered] using hbefore) (by simpa [Answered] using ho)
  rw [completionArrive, if_neg hunit, htake]

theorem completionArrive_unawaited (hunit : f.dstUnit ≠ 0x89) (hnone : ∀ x ∈ h.outstanding, ¬ Answered f x) :
    completionArrive f h = lateCompletion f h := by
  have htake : takeFirst (fun x : Outstanding => x.frame.srcUnit == f.dstUnit && x.frame.tag == f.tag) h.outstanding = none :=
    takeFirst_of_none (by simpa [Answered] using hnone)
  rw [completionArrive, if_neg hunit, htake]

/-- R427: a handover record that does not complete OK is told of by NOTIFY_FAIL. -/
theorem completeFor_notify {o : Outstanding} (hpurpose : o.purpose = .notify) :
    completeFor o f h = (if f.status = stOk then id else raise 0xB8 17) h := by
  rw [completeFor, hpurpose]
  dsimp only
  split <;> rfl

theorem completeFor_notify_switch {o : Outstanding} (hpurpose : o.purpose = .notify) : SwitchOnly h (completeFor o f h) := by
  rw [completeFor_notify hpurpose]
  split
  · exact SwitchOnly.refl h
  · exact raise_switch 0xB8 17 h

theorem settle_notify {o : Outstanding} (hpurpose : o.purpose = .notify) (hidle : Settled h) :
    svcSettle (completeFor o f h) = (if f.status = stOk then id else raise 0xB8 17) h := by
  obtain ⟨hruns, hattends⟩ := hidle
  have hswitch := completeFor_notify_switch (f := f) (h := h) hpurpose
  rw [svcSettle_idle ⟨hswitch.cur ▸ hruns, hswitch.cloak ▸ hattends⟩, completeFor_notify hpurpose]

theorem lateCompletion_quarantined (hdead : ∃ d ∈ h.deadTags, d.unit = f.dstUnit ∧ d.tag = f.tag ∧ h.devTime < d.until_) :
    lateCompletion f h = raise 0x40 19 (count 0x40 4 1 h) := by
  rw [lateCompletion, if_pos]
  simpa [and_assoc] using hdead

theorem frameRow_completion (hunit : meetsUnit p f f.dstUnit s = true) (hlow : f.dstUnit < 0xC0) (hop : f.opcode = 0x20) :
    frameRow p f s = .next (onHub (fun h => completionArrive f (frameNoted p f h)) s) := by
  rw [frameRow_unit hunit (by omega),
    localArrive_completion hlow hop (frameNoted_alone (alone_of_meetsUnit hunit) p f)]
  rfl

/-- A completion takes the first request it answers out of those outstanding, and its issuer goes on. -/
theorem frameRow_awaited {o : Outstanding} {l m : List Outstanding} (hunit : meetsUnit p f f.dstUnit s = true)
    (hlow : f.dstUnit < 0xC0) (hop : f.opcode = 0x20) (hsnoop : f.dstUnit ≠ 0x89) (hsplit : s.hub.outstanding = l ++ o :: m)
    (ho : Answered f o) (hbefore : ∀ x ∈ l, ¬ Answered f x) :
    frameRow p f s = .next (onHub (fun h => svcSettle (completeFor o f { frameNoted p f h with outstanding := l ++ m })) s) := by
  rw [frameRow_completion hunit hlow hop, onHub,
    completionArrive_awaited hsnoop ((frameNoted_switch p f s.hub).outstanding.trans hsplit) ho hbefore]
  rfl

theorem frameRow_notify {o : Outstanding} {l m : List Outstanding} (hunit : meetsUnit p f f.dstUnit s = true)
    (hlow : f.dstUnit < 0xC0) (hop : f.opcode = 0x20) (hsnoop : f.dstUnit ≠ 0x89) (hsplit : s.hub.outstanding = l ++ o :: m)
    (ho : Answered f o) (hbefore : ∀ x ∈ l, ¬ Answered f x) (hpurpose : o.purpose = .notify) (hidle : Settled s.hub) :
    frameRow p f s = .next (onHub (fun h =>
      (if f.status = stOk then id else raise 0xB8 17) { frameNoted p f h with outstanding := l ++ m }) s) := by
  obtain ⟨hruns, hattends⟩ := hidle
  have hswitch := frameNoted_switch p f s.hub
  rw [frameRow_awaited hunit hlow hop hsnoop hsplit ho hbefore, onHub,
    settle_notify hpurpose ⟨hswitch.cur ▸ hruns, hswitch.cloak ▸ hattends⟩, onHub]

/-- R265: a completion that nothing awaits, with a tag under quarantine, is counted late. -/
theorem frameRow_late (hunit : meetsUnit p f f.dstUnit s = true) (hlow : f.dstUnit < 0xC0) (hop : f.opcode = 0x20)
    (hsnoop : f.dstUnit ≠ 0x89) (hnone : ∀ x ∈ s.hub.outstanding, ¬ Answered f x)
    (hdead : ∃ d ∈ s.hub.deadTags, d.unit = f.dstUnit ∧ d.tag = f.tag ∧ s.hub.devTime < d.until_) :
    frameRow p f s = .next (onHub (fun h => raise 0x40 19 (count 0x40 4 1 (frameNoted p f h))) s) := by
  have hswitch := frameNoted_switch p f s.hub
  rw [← hswitch.outstanding] at hnone
  rw [← hswitch.deadTags, ← hswitch.devTime] at hdead
  rw [frameRow_completion hunit hlow hop, onHub, completionArrive_unawaited hsnoop hnone, lateCompletion_quarantined hdead]
  rfl

theorem late_reports (p : Nat) (f : Frame) (h : Hub) :
    ReportsOnly h (raise 0x40 19 (count 0x40 4 1 (frameNoted p f h))) ∧
      regBit 0x40 0x18 19 (raise 0x40 19 (count 0x40 4 1 (frameNoted p f h))) = true :=
  ⟨(frameNoted_switch p f h).trans ((count_switch ..).trans (raise_switch ..)), raise_sets 0x40 19 (by norm_num) _⟩

end Completions

/-! ### Frames for another module (R264, R275) -/

section Forwarding

/-- R275: the way of a frame that arrived on port p. -/
abbrev wayOf (p : Nat) (f : Frame) (h : Hub) : Routed := routeOf f.dstModule (if isRingPort p then some p else none) h

theorem frameRow_forward (htaken : frameTaken p f s.hub = true) (haway : f.dstModule ≠ moduleId s.hub)
    (hlink : f.opcode ∉ [0x40, 0x41]) (hbridge : ¬(0x60 ≤ f.opcode ∧ f.opcode ≤ 0x6F)) (halone : pairJoined s.hub = false) :
    frameRow p f s = .next (onHub (fun h => forwardFrame p f (frameNoted p f h)) s) := by
  obtain ⟨hlink0, hlink1⟩ : f.opcode ≠ 0x40 ∧ f.opcode ≠ 0x41 := by simpa using hlink
  rw [frameRow_taken htaken ⟨hlink0, hlink1, hbridge⟩ halone, if_neg haway]
  rfl

theorem forwardFrame_ring {east : Bool} (hway : wayOf p f h = .ring east) : forwardFrame p f h = sendRing raise p east f h := by
  rw [wayOf] at hway
  rw [forwardFrame, hway]

theorem forwardFrame_client {q : Nat} (hway : wayOf p f h = .client q) : forwardFrame p f h = enqueue raise p q f h := by
  rw [wayOf] at hway
  rw [forwardFrame, hway]

theorem forwardFrame_dead (hway : wayOf p f h = .dead) :
    forwardFrame p f h = if isRequest f then deadAnswer f h else dropFrame p false .noRoute f h := by
  rw [wayOf] at hway
  rw [forwardFrame, hway]

theorem forwardFrame_deadPosted (hway : wayOf p f h = .dead) (hposted : f.posted = true) :
    forwardFrame p f h = dropFrame p false .noRoute f h := by
  rw [forwardFrame_dead hway, if_neg (by simp [isRequest, hposted])]

theorem forwardFrame_deadRequest (hway : wayOf p f h = .dead) (hposted : f.posted = false) (hop : f.opcode ≠ 0x20) :
    forwardFrame p f h = deadAnswer f h := by
  rw [forwardFrame_dead hway, if_pos (by simp [isRequest, hposted, hop])]

theorem deadAnswer_switch (f : Frame) (h : Hub) : SwitchOnly h (deadAnswer f h) := (sendFrame_switch ..).trans (count_switch ..)

/-- R264: a request with a dead route is answered at once, and nothing but the switch core is touched. -/
theorem forwardFrame_targetDead (hway : wayOf p f (frameNoted p f h) = .dead) (hposted : f.posted = false) (hop : f.opcode ≠ 0x20) :
    ReportsOnly h (forwardFrame p f (frameNoted p f h)) ∧ ∃ h1, forwardFrame p f (frameNoted p f h) = count 0x40 3 1 (sendFrame
      { completionOf f stTargetDead 0 0 (decide (0 < deadBytes f)) (poisonPattern (deadBytes f)) h1 with
        srcModule := moduleId h1, srcUnit := 0x8A } h1) := by
  rw [forwardFrame_deadRequest hway hposted hop]
  exact ⟨(frameNoted_switch p f h).trans (deadAnswer_switch f _), frameNoted p f h, rfl⟩

end Forwarding

/-! ### Reserved opcodes (R249, R250) -/

section Reserved

/-- A reserved opcode is no completion and none of the link's. -/
theorem opcode_of_reserved (hreserved : definedOpcode f.opcode = false) : f.opcode ≠ 0x20 ∧ f.opcode ≠ 0x40 ∧ f.opcode ≠ 0x41 := by
  refine ⟨?_, ?_, ?_⟩ <;> (intro hop; rw [hop] at hreserved; exact absurd hreserved (by decide))

theorem refuseForm_request (hposted : f.posted = false) (status detail : Nat) :
    refuseForm f status detail h = sendFrame (completionOf f status detail 0 false [] h) h := if_neg (by simp [hposted])

theorem refuseForm_posted (hposted : f.posted = true) (status detail : Nat) : refuseForm f status detail h = h := if_pos hposted

theorem localArrive_reserved (hlow : f.dstUnit < 0x88) (hcore : ¬(0x40 ≤ f.dstUnit ∧ f.dstUnit < 0x80))
    (hreserved : definedOpcode f.opcode = false) : localArrive p bridge f s = onHub (refuseForm f stUnsupported 0) s := by
  have htakes : noRequests f.dstUnit s.hub = false := by
    simp only [noRequests, Bool.or_eq_false_iff, Bool.and_eq_false_iff, decide_eq_false_iff_not]
    omega
  simp [localArrive, show ¬ 0xC0 ≤ f.dstUnit by omega, (opcode_of_reserved hreserved).1, htakes, hreserved]

theorem frameRow_reserved (hunit : meetsUnit p f f.dstUnit s = true) (hlow : f.dstUnit < 0x88)
    (hcore : ¬(0x40 ≤ f.dstUnit ∧ f.dstUnit < 0x80)) (hreserved : definedOpcode f.opcode = false)
    (hbridge : ¬(0x60 ≤ f.opcode ∧ f.opcode ≤ 0x6F)) :
    frameRow p f s = .next (onHub (fun h => refuseForm f stUnsupported 0 (frameNoted p f h)) s) := by
  obtain ⟨-, hlink0, hlink1⟩ := opcode_of_reserved hreserved
  rw [frameRow_unit hunit ⟨hlink0, hlink1, hbridge⟩, localArrive_reserved hlow hcore hreserved]
  rfl

end Reserved

/-- Settles O26, a lemma for each row and what its frame comes to. -/
theorem registerAndSwitchFramesAct : Obligations.RegisterAndSwitchFramesAct := by
  intro p f s halone
  refine ⟨fun hunit hform => ?_, fun hunit hform hclean => ?_, fun hunit hlow hsnoop => ⟨fun o l m hsplit hsrc htag hbefore => ?_,
    fun hnone hdead => ?_⟩, fun htaken haway hlink hbridge => ?_, fun hunit hlow hcore hreserved hbridge => ?_⟩
  · exact (frameRow_register hunit (.inl rfl) hform).trans
      (congrArg _ (regFrame_read (frameNoted_alone halone p (asOp 8 f)) hform rfl))
  · exact (frameRow_register hunit (.inr rfl) hform).trans
      (congrArg _ (regFrame_write (frameNoted_alone halone p (asOp 9 f)) hform rfl hclean))
  · have hfirst : ∀ x ∈ l, ¬ Answered (asOp 0x20 f) x := fun x hx ⟨hxs, hxt⟩ => (hbefore x hx).elim (· hxs) (· hxt)
    exact ⟨frameRow_awaited hunit hlow rfl hsnoop hsplit ⟨hsrc, htag⟩ hfirst, fun hpurpose hruns hattends =>
      frameRow_notify hunit hlow rfl hsnoop hsplit ⟨hsrc, htag⟩ hfirst hpurpose ⟨hruns, hattends⟩⟩
  · exact ⟨_, frameRow_late hunit hlow rfl hsnoop (fun x hx ⟨hxs, hxt⟩ => (hnone x hx).elim (· hxs) (· hxt)) hdead, rfl, rfl,
      late_reports p (asOp 0x20 f) s.hub⟩
  · have hrow := frameRow_forward htaken haway hlink hbridge halone
    refine ⟨fun east hway => hrow.trans ?_, fun q hway => hrow.trans ?_, fun hway hposted hop => ?_, fun hway hposted => hrow.trans ?_⟩
    · rw [onHub, forwardFrame_ring hway, onHub]
    · rw [onHub, forwardFrame_client hway, onHub]
    · exact ⟨_, hrow, rfl, rfl, forwardFrame_targetDead hway hposted hop⟩
    · rw [onHub, forwardFrame_deadPosted hway hposted, onHub]
  · have hrow := frameRow_reserved hunit hlow hcore hreserved hbridge
    refine ⟨fun hposted => hrow.trans ?_, fun hposted => hrow.trans ?_⟩
    · rw [onHub, refuseForm_request hposted, onHub]
    · rw [onHub, refuseForm_posted hposted, onHub]

end Sys2Proof.Proofs

/-!
PROOFS. Requests and answers of the agents of the coherence domain (R298 to R309): the way of a coherence frame to the home of its line,
what the home makes of it, and the answer that ends a recall.
-/
namespace Sys2Proof.Proofs

open Machine Safety Laws

/-! ### The snoop filter and the agents -/

section Lines

variable {a b h : Hub}

@[simp] theorem getFilter_putFilter (line : Nat) (e : Option Nat) (h : Hub) :
    getFilter line (putFilter line e h) = some ⟨e, h.coh.grants⟩ := (tab_get_set ..).trans (if_pos rfl)

@[simp] theorem getFilter_dropFilter (line : Nat) (h : Hub) : getFilter line (dropFilter line h) = none :=
  (tab_get_erase ..).trans (if_pos rfl)

theorem getFilter_of_coh (hcoh : b.coh = a.coh) (line : Nat) : getFilter line b = getFilter line a := by
  rw [getFilter, hcoh, getFilter]

@[simp] theorem getAgent_putAgent (k : Nat) (e : CohAgent) (h : Hub) : getAgent k (putAgent k e h) = e := by
  simp [getAgent, putAgent, Tab.getD, tab_get_set]

theorem getAgent_of_coh (hcoh : b.coh = a.coh) (k : Nat) : getAgent k b = getAgent k a := by rw [getAgent, hcoh, getAgent]

theorem agentIndex_of_coh (hcoh : b.coh = a.coh) (module unit : Nat) : agentIndex module unit b = agentIndex module unit a := by
  rw [agentIndex, hcoh, agentIndex]

end Lines

/-! ### The way to the home -/

section Way

variable {p k off : Nat} {f : Frame} {s : State} {c : Instr} {P : Hub → Prop} {g : Hub}

/-- R302, R307: a coherence frame in form is posted where its opcode says so. -/
theorem posted_of_cohForm (hop : 0x50 ≤ f.opcode ∧ f.opcode ≤ 0x55) (hform : formOk f = true) : f.posted = postedOpcode f.opcode := by
  obtain ⟨hlo, hhi⟩ := hop
  unfold formOk at hform
  interval_cases hf : f.opcode <;> simp_all [postedOpcode]

/-- R249: a taken coherence frame in form arrives at STORE. -/
theorem frameRow_coh (hunit : meetsUnit p f 0x80 s = true) (hop : 0x50 ≤ f.opcode ∧ f.opcode ≤ 0x55) (hform : formOk f = true) :
    frameRow p f s = .next { s with hub := storeArrive p f (frameNoted p f s.hub) } := by
  have hposted := posted_of_cohForm hop hform
  have halone := frameNoted_alone (alone_of_meetsUnit hunit) p f
  rw [frameRow_unit hunit (by omega)]
  simp only [meetsUnit, Bool.and_eq_true, beq_iff_eq] at hunit
  obtain ⟨⟨-, hdst⟩, -⟩ := hunit
  have hdefined : definedOpcode f.opcode = true := by
    obtain ⟨hlo, hhi⟩ := hop
    unfold definedOpcode
    interval_cases f.opcode <;> rfl
  simp [localArrive, hdst, noRequests, hdefined, hposted, unitTakes, hop, heartbeatCopy, halone, onHub, show f.opcode ≠ 0x20 by omega]

/-- R298: a frame of an Active agent is not denied. -/
theorem cohDenied_of_agent {h : Hub} (hagent : agentIndex f.srcModule f.srcUnit h = some k) : cohDenied f h = false := by
  simp [cohDenied, hagent]

/-- R302: a request of an Active agent for a line enters the STU. -/
theorem storeArrive_coh (hagent : agentIndex f.srcModule f.srcUnit s.hub = some k) (hop : f.opcode ≠ 0x55) (hform : formOk f = true) :
    storeArrive p f (frameNoted p f s.hub) = stuEnter (reqOf p f s.hub) (atUnit p f s.hub) := by
  have hdenied : cohDenied f (atUnit p f s.hub) = false :=
    cohDenied_of_agent ((agentIndex_of_coh (atUnit_passed s.hub p f).1.coh ..).trans hagent)
  rw [atUnit] at hdenied ⊢
  simp only [storeArrive, hform, hdenied, hop, Bool.not_true, Bool.false_eq_true, if_false]
  rfl

/-- R144, R320: its translation served, it is delivered in a hub as it was but for what passes. -/
theorem frameRow_cohDelivers (hat : AtStore p f off s g) (hagent : agentIndex f.srcModule f.srcUnit s.hub = some k)
    (hop : 0x50 ≤ f.opcode ∧ f.opcode ≤ 0x54) : ∃ r h h0, HomeReq p f off r ∧ Passed s.hub h ∧
      frameRow p f s = .next { s with hub := hitAt (reqOf p f s.hub) h0 (deliverStore r h) } := by
  obtain ⟨hunit, hform, hbelow, ⟨n, ps, leaf, hx⟩, hpassed, hquiet, hstu, htxs, hwaiting, hleases, hshapers⟩ := hat
  obtain ⟨h, hh⟩ : ∃ h, h = if f.asid = 0xFFFF then g else track f.srcModule f.srcUnit f.tenant f.asid f.addr g := ⟨_, rfl⟩
  have hway : Passed g h := hh ▸ Passed.ite (Passed.refl g) (track_passed g ..)
  have hshapers' : h.shapers = [] := ((hpassed.trans hway).2 hquiet).shapers.trans hshapers
  refine ⟨{ reqOf p f s.hub with off := off, leaf := leaf }, h, atUnit p f s.hub, ⟨rfl, rfl, rfl, rfl⟩, hpassed.trans hway, ?_⟩
  rw [frameRow_coh hunit (by omega) hform, storeArrive_coh hagent (by omega) hform,
    stuEnter_serves (r := reqOf p f s.hub) rfl (by show f.opcode ≠ 5; omega) ((atUnit_stu ..).symm ▸ hstu) hx,
    translated_delivers (r := reqOf p f s.hub) hbelow (by rw [hpassed.1.coh, hleases]) hway hshapers' hh]

/-- R304: a request of an Active agent that nothing holds back starts its transaction at once, and what the transaction leaves is
answered. -/
theorem cohRequest_answers (hexec : exec c s = frameRow p f s) (hop : 0x50 ≤ f.opcode ∧ f.opcode ≤ 0x54)
    (hagent : agentIndex f.srcModule f.srcUnit s.hub = some k) (hmeets : meetsStore p f off s = true)
    (hP : ∀ r h x, HomeReq p f off r → Intact s.hub h → Undisturbed s.hub h → h.coh.txs = [] → Intact (homeStart r h) x → P x) :
    HubAnswers c s P := by
  obtain ⟨g, hat⟩ := atStore_of_meets hmeets
  obtain ⟨r, h, h0, hreq, ⟨hintact, hcalm⟩, hrow⟩ := frameRow_cohDelivers hat hagent hop
  have htxs : h.coh.txs = [] := by rw [hintact.coh, hat.txs]
  have hdeliver : deliverStore r h = homeStart r h := by
    obtain ⟨hsrc, hframe, hoff, -⟩ := hreq
    have hbelow : r.off < windowBase := hoff ▸ hat.below
    have halone : pairJoined h = false := by rw [pairJoined, (hcalm hat.quiet).twin, ← pairJoined, alone_of_meetsUnit hat.unit]
    have hop6 : (f.opcode == 6) = false := by simpa using (by omega : ¬ f.opcode = 6)
    simp only [deliverStore, hframe, show ¬ f.opcode = 5 by omega, hop6, hsrc, Bool.false_and, Bool.false_eq_true, if_false]
    rw [homeOrPair, otherHolds_alone halone hbelow]
    exact homeIn_free hbelow htxs (by rw [hintact.coh, hat.waiting])
  rw [hdeliver] at hrow
  exact hubAnswers_of_row hexec hrow (hP r h _ hreq hintact (hcalm hat.quiet) htxs (hitAt_passed _ _ _).1)

end Way

/-! ### Grants (R303, R305) -/

section Grants

variable {p k off : Nat} {f : Frame} {s : State} {c : Instr} {r : Req} {h : Hub}

/-- The line's entry in the snoop filter names owner o, or nobody; stored bytes and poison are as they were. -/
abbrev Granted (line : Nat) (o : Option Nat) (a b : Hub) : Prop :=
  SameMemory a b ∧ (getFilter line b).map (·.owner) = some o

theorem Granted.of_intact {line : Nat} {o : Option Nat} {a a' b b' : Hub} (hgrant : Granted line o a b) (ha : Intact a' a)
    (hb : Intact b b') : Granted line o a' b' := by
  obtain ⟨⟨hmem, hpoison⟩, howner⟩ := hgrant
  exact ⟨⟨hb.mem.trans (hmem.trans ha.mem), hb.poison.trans (hpoison.trans ha.poison)⟩, by rw [getFilter_of_coh hb.coh, howner]⟩

theorem granted_grantLine (line : Nat) (o : Option Nat) (h : Hub) : Granted line o h (grantLine line o h) :=
  ⟨⟨rfl, rfl⟩, by rw [grantLine, getFilter_putFilter]; rfl⟩

theorem openSeal_coh (t : Nat) (h : Hub) : (openSeal t h).coh = h.coh := by
  unfold openSeal
  dsimp only
  split <;> rfl

theorem granted_openSeal {line : Nat} {o : Option Nat} {a b : Hub} (t : Nat) (hgrant : Granted line o a b) :
    Granted line o a (openSeal t b) := by
  obtain ⟨⟨hmem, hpoison⟩, howner⟩ := hgrant
  exact ⟨⟨(openSeal_mem t b).trans hmem, (openSeal_poison t b).trans hpoison⟩, by rw [getFilter_of_coh (openSeal_coh t b), howner]⟩

theorem getFilter_of_empty (hfilter : h.coh.filter = []) (line : Nat) : getFilter line h = none := by rw [getFilter, hfilter]; rfl

theorem lines_of_aligned (haligned : off % 128 = 0) : linesOf off 128 = [lineOf off] := by
  have hspan : (off + 128 - 1) / 128 - off / 128 = 0 := by omega
  rw [linesOf, if_neg (by norm_num), hspan]
  exact congrArg (· :: []) (Nat.zero_add _)

theorem answerRead_intact (hsrc : r.src = .frame p) (aux : Nat) (data : List Byte) (poison : Bool) (sc : Option Nat) (h : Hub) :
    Intact h (answerRead r aux data poison sc h) := by
  rw [answerRead, hsrc]
  exact intact_of_switch (sendFrame_switch ..)

/-- R305: with no line in the snoop filter, the transaction meets its tile at once, and no sharer is noted. -/
theorem homeStart_unshared (hop : 0x50 ≤ r.frame.opcode ∧ r.frame.opcode ≤ 0x52) (hfilter : h.coh.filter = []) (htxs : h.coh.txs = []) :
    homeStart r h = homeReady (started r) (withTxs [started r] h) := by
  have hnone := getFilter_of_empty hfilter
  have hsnoop (l : Nat) : snoopLine r l ([], h) = ([], h) := by simp only [snoopLine, hnone]
  have hsnoops : (reqLines r).foldl (fun acc l => snoopLine r l acc) ([], h) = ([], h) :=
    List.foldlRecOn (reqLines r) _ (motive := (· = ([], h))) rfl fun _ hx l _ => hx ▸ hsnoop l
  simp only [homeStart, hsnoops, hnone, htxs, show r.frame.opcode ≠ 0x53 by omega, show r.frame.opcode ≠ 0x54 by omega, false_and,
    if_false, if_true, List.nil_append, bne_self_eq_false, Bool.and_false, Bool.or_self]
  rfl

/-- R310: an empty filter has room for the entry. -/
theorem homeGrant_unheld (hfilter : h.coh.filter = []) : homeGrant (started r) h = homeAct (started r) (removeTx r.id h) := by
  have hroom : setFull (lineOf r.off) h = false := by simp [setFull, filterMates, hfilter]
  have hneeds : needsEntry (started r) h = false := by rw [needsEntry, started_req, hroom, Bool.and_false]
  rw [homeGrant, hneeds]
  rfl

section Act

variable (hreq : HomeReq p f off r) (hagent : agentIndex f.srcModule f.srcUnit h = some k) (hquiet : h.ras.injection = none)

include hreq hagent hquiet

/-- R303, R305: COH_RD_SHARED grants Owned to a lone reader where exclusive grants are on, and Shared otherwise. -/
theorem homeAct_shares (hfilter : h.coh.filter = []) (hop : f.opcode = 0x50) (hst : (getTile (tileOf off) h).st = .upper) :
    Granted (lineOf off) (if regBit 0x60 0x40 0 h then some k else none) h (homeAct (started r) h) := by
  obtain ⟨hsrc, hframe, hoff, -⟩ := hreq
  subst hframe hoff
  obtain ⟨hintact, hcalm⟩ := meterReq_passed h r
  have hundisturbed := hcalm hquiet
  have hme : requesterOf r (meterReq r h) = some k := by rw [requesterOf, hsrc]; exact (agentIndex_of_coh hintact.coh ..).trans hagent
  have hnone : getFilter (lineOf r.off) (meterReq r h) = none := (getFilter_of_coh hintact.coh _).trans (getFilter_of_empty hfilter _)
  have hbit : regBit 0x60 0x40 0 (meterReq r h) = regBit 0x60 0x40 0 h := by
    rw [regBit, hundisturbed.reg 0x60 0x40 (by unfold plainReg; norm_num), regBit]
  have htile : (getTile (tileOf r.off) (meterReq r h)).st = .upper := by rw [getTile_of_tier hintact.tier, hst]
  have hact : homeAct (started r) h = answerRead r (if regBit 0x60 0x40 0 h then 2 else 1) (homeData r.off 128 (meterReq r h)).1
      (homeData r.off 128 (meterReq r h)).2 none
      (grantLine (lineOf r.off) (if regBit 0x60 0x40 0 h then some k else none) (meterReq r h)) := by
    simp [homeAct, hsrc, hop, meetInjection_of_quiet hundisturbed.quiet, hme, hnone, hbit, htile, started]
  rw [hact]
  exact (granted_grantLine _ _ _).of_intact hintact (answerRead_intact hsrc ..)

/-- R305: COH_RD_OWN and COH_UPGRADE make the requester the line's owner. -/
theorem homeAct_owns (hop : f.opcode = 0x51 ∨ f.opcode = 0x52) : Granted (lineOf off) (some k) h (homeAct (started r) h) := by
  obtain ⟨hsrc, hframe, hoff, -⟩ := hreq
  subst hframe hoff
  obtain ⟨hintact, hcalm⟩ := meterReq_passed h r
  have hme : requesterOf r (meterReq r h) = some k := by rw [requesterOf, hsrc]; exact (agentIndex_of_coh hintact.coh ..).trans hagent
  obtain ⟨y, hy⟩ : ∃ y, y = openSeal (tileOf r.off) (grantLine (lineOf r.off) (some k) (meterReq r h)) := ⟨_, rfl⟩
  have hact : homeAct (started r) h = answerRead r (if r.frame.opcode = 0x52 then 2 + 16 else 2) (homeData r.off 128 y).1
      (homeData r.off 128 y).2 none y := by
    rcases hop with hop | hop <;>
      simp [homeAct, hsrc, hop, meetInjection_of_quiet (hcalm hquiet).quiet, hme, started, ← hy]
  have hgrant : Granted (lineOf r.off) (some k) (meterReq r h) y := hy ▸ granted_openSeal _ (granted_grantLine _ _ _)
  rw [hact]
  exact hgrant.of_intact hintact (answerRead_intact hsrc ..)

end Act
/-- R305: COH_RD_SHARED of a line that T0 holds and no agent does. -/
theorem homeStart_shares (hreq : HomeReq p f off r) (haligned : off % 128 = 0) (hop : f.opcode = 0x50) (hfilter : h.coh.filter = [])
    (htxs : h.coh.txs = []) (hst : (getTile (tileOf off) h).st = .upper) (hline : inT0 (lineOf off) h = true) :
    homeStart r h = homeAct (started r) (countSlice (lineOf off) 0 1 h) := by
  obtain ⟨hsrc, hframe, hoff, -⟩ := hreq
  subst hframe hoff
  have hstore : isStore r = false := by simp [isStore, hsrc, hop]
  have hlines : (started r).lines = [lineOf r.off] := by
    simp [started, reqLines, hsrc, reqLen, hop, lines_of_aligned haligned]
  have hall : (started r).lines.all (fun l => inT0 l (withTxs [started r] h)) = true := by
    rw [hlines, List.all_cons, List.all_nil, Bool.and_true]
    exact hline
  rw [homeStart_unshared (by omega) hfilter htxs]
  simp only [homeReady, started_req, show ¬ r.frame.opcode = 6 by omega, false_and, if_false, hstore, Bool.false_eq_true, hsrc,
    getTile_withTxs, hst, hall, if_true]
  refine (homeGrant_unheld ?_).trans (congrArg _ (removeTx_started (h := countSlice (lineOf r.off) 0 1 h) htxs))
  exact hfilter

/-- R305: COH_RD_OWN or COH_UPGRADE of a line that no agent holds, in an Upper tile. -/
theorem homeStart_owns (hreq : HomeReq p f off r) (hop : f.opcode = 0x51 ∨ f.opcode = 0x52) (hfilter : h.coh.filter = [])
    (htxs : h.coh.txs = []) (hst : (getTile (tileOf off) h).st = .upper) : homeStart r h = homeAct (started r) h := by
  obtain ⟨hsrc, hframe, hoff, -⟩ := hreq
  subst hframe hoff
  have hstore : isStore r = true := by rcases hop with hop | hop <;> simp [isStore, hsrc, hop]
  rw [homeStart_unshared (by omega) hfilter htxs]
  simp only [homeReady, started_req, show ¬ r.frame.opcode = 6 by omega, false_and, if_false, hstore, if_true, getTile_withTxs, hst]
  refine (homeGrant_unheld ?_).trans (congrArg _ (removeTx_started htxs))
  exact hfilter

/-- R303, R305: what COH_RD_SHARED grants where nothing holds it back. -/
theorem readShared_grants (hexec : exec c s = frameRow p f s) (hop : f.opcode = 0x50) (haligned : off % 128 = 0)
    (hagent : agentIndex f.srcModule f.srcUnit s.hub = some k) (hst : (getTile (tileOf off) s.hub).st = .upper)
    (hfilter : s.hub.coh.filter = []) (hmeets : meetsStore p f off s = true) (hline : inT0 (lineOf off) s.hub = true) :
    HubAnswers c s (Granted (lineOf off) (if regBit 0x60 0x40 0 s.hub then some k else none) s.hub) := by
  refine cohRequest_answers hexec (by omega) hagent hmeets fun r h x hreq hintact hcalm htxs hx => ?_
  have hslice := hintact.trans (countSlice_intact (lineOf off) 0 1 h)
  have hbit : regBit 0x60 0x40 0 (countSlice (lineOf off) 0 1 h) = regBit 0x60 0x40 0 s.hub := by
    rw [regBit, getReg_countSlice _ _ _ (by norm_num) (by norm_num), hcalm.reg 0x60 0x40 (by unfold plainReg; norm_num), regBit]
  rw [homeStart_shares hreq haligned hop (by rw [hintact.coh, hfilter]) htxs (by rw [getTile_of_tier hintact.tier, hst])
    (by rw [inT0, hintact.coh]; exact hline)] at hx
  have hgrant := homeAct_shares (h := countSlice (lineOf off) 0 1 h) hreq ((agentIndex_of_coh hslice.coh ..).trans hagent) hcalm.quiet
    (by rw [hslice.coh, hfilter]) hop (by rw [getTile_of_tier hslice.tier, hst])
  rw [hbit] at hgrant
  exact hgrant.of_intact hslice hx

/-- R305: what COH_RD_OWN and COH_UPGRADE grant where nothing holds them back. -/
theorem readOwn_grants (hexec : exec c s = frameRow p f s) (hop : f.opcode = 0x51 ∨ f.opcode = 0x52)
    (hagent : agentIndex f.srcModule f.srcUnit s.hub = some k) (hst : (getTile (tileOf off) s.hub).st = .upper)
    (hfilter : s.hub.coh.filter = []) (hmeets : meetsStore p f off s = true) :
    HubAnswers c s (Granted (lineOf off) (some k) s.hub) := by
  refine cohRequest_answers hexec (by omega) hagent hmeets fun r h x hreq hintact hcalm htxs hx => ?_
  have hfilter' : h.coh.filter = [] := by rw [hintact.coh, hfilter]
  rw [homeStart_owns hreq hop hfilter' htxs (by rw [getTile_of_tier hintact.tier, hst])] at hx
  exact (homeAct_owns hreq ((agentIndex_of_coh hintact.coh ..).trans hagent) hcalm.quiet hop).of_intact hintact hx

end Grants

/-! ### What an owner gives back (R301, R306) -/

section Returns

variable {p k g off : Nat} {f : Frame} {s : State} {c : Instr} {r : Req} {h : Hub}

/-- An owner gives a line back: Shared where it keeps a copy, held by no one otherwise. -/
def released (line : Nat) (keeps : Bool) (h : Hub) : Hub := if keeps then putFilter line none h else dropFilter line h

theorem released_owner (line : Nat) (keeps : Bool) (h : Hub) :
    (getFilter line (released line keeps h)).map (·.owner) = if keeps then some none else none := by
  cases keeps <;> simp [released]

theorem released_sameMemory (line : Nat) (keeps : Bool) (h : Hub) : SameMemory h (released line keeps h) := by
  cases keeps <;> exact ⟨rfl, rfl⟩

theorem released_txs (line : Nat) (keeps : Bool) (h : Hub) : (released line keeps h).coh.txs = h.coh.txs := by
  cases keeps <;> rfl

theorem answerOk_intact (hsrc : r.src = .frame p) (hposted : r.frame.posted = false) (h : Hub) :
    Intact h (answerStatus r stOk 0 h) := by
  simp only [answerStatus, answer, hsrc, hposted, Bool.false_eq_true, if_false, show stOk ≠ stDenied by decide]
  exact intact_of_switch (sendFrame_switch ..)

/-- R306: COH_WB of a line's owner. -/
theorem homeStart_writesBack (hreq : HomeReq p f off r) (hop : f.opcode = 0x53)
    (hagent : agentIndex f.srcModule f.srcUnit h = some k) (howner : getFilter (lineOf off) h = some ⟨some k, g⟩) :
    homeStart r h = answerStatus r stOk 0 (released (lineOf off) (f.aux.testBit 0)
      (setT0 (lineOf off) .dirty (memWrite off f.payload (payloadPoison f) (meterReq r h)))) := by
  obtain ⟨hsrc, hframe, hoff, -⟩ := hreq
  subst hframe hoff
  have hintact := (meterReq_passed h r).1
  have hme : requesterOf r (meterReq r h) = some k := by rw [requesterOf, hsrc]; exact (agentIndex_of_coh hintact.coh ..).trans hagent
  have hentry : getFilter (lineOf r.off) (meterReq r h) = some ⟨some k, g⟩ := (getFilter_of_coh hintact.coh _).trans howner
  simp [homeStart, hop, isCoh, homeWb, hme, hentry, released]

/-- R301: COH_EVICT of a line's owner. -/
theorem homeStart_evicts (hreq : HomeReq p f off r) (hop : f.opcode = 0x54)
    (hagent : agentIndex f.srcModule f.srcUnit h = some k) (howner : getFilter (lineOf off) h = some ⟨some k, g⟩) :
    homeStart r h = dropFilter (lineOf off) h := by
  obtain ⟨hsrc, hframe, hoff, -⟩ := hreq
  subst hframe hoff
  have hme : requesterOf r h = some k := by rw [requesterOf, hsrc]; exact hagent
  simp [homeStart, hop, isCoh, homeEvict, hme, howner]

theorem getFilter_of_one {line : Nat} {e : FilterEntry} (hfilter : h.coh.filter = [(line, e)]) : getFilter line h = some e := by
  rw [getFilter, hfilter]
  exact if_pos rfl

section Statements

variable (hexec : exec c s = frameRow p f s) (hagent : agentIndex f.srcModule f.srcUnit s.hub = some k)
  (hfilter : s.hub.coh.filter = [(lineOf off, ⟨some k, g⟩)]) (hmeets : meetsStore p f off s = true)

include hexec hagent hfilter hmeets

/-- R306: the owner's bytes are stored, and the line is left Shared or held by no one. -/
theorem writeBack_stores (hop : f.opcode = 0x53) : HubAnswers c s (fun h => storesAt off f.payload s.hub h ∧
    (getFilter (lineOf off) h).map (·.owner) = if f.aux.testBit 0 then some none else none) := by
  have hposted : f.posted = false := by
    obtain ⟨_, hat⟩ := atStore_of_meets hmeets
    exact (posted_of_cohForm (by omega) hat.form).trans (by rw [hop]; rfl)
  refine cohRequest_answers hexec (by omega) hagent hmeets fun r h x hreq hintact hcalm htxs hx => ?_
  rw [homeStart_writesBack hreq hop ((agentIndex_of_coh hintact.coh ..).trans hagent)
    ((getFilter_of_coh hintact.coh _).trans (getFilter_of_one hfilter))] at hx
  have hanswered := (answerOk_intact hreq.src (by rw [hreq.frame, hposted]) _).trans hx
  refine ⟨storesAt_of_put ?_, ?_⟩
  · rw [hanswered.mem, (released_sameMemory ..).1]
    exact (memWrite_mem ..).trans (by rw [(meterReq_passed h r).1.mem, hintact.mem])
  · rw [getFilter_of_coh hanswered.coh, released_owner]

/-- R301: the owner's entry goes. -/
theorem evict_releases (hop : f.opcode = 0x54) :
    HubAnswers c s (fun h => getFilter (lineOf off) h = none ∧ SameMemory s.hub h) := by
  refine cohRequest_answers hexec (by omega) hagent hmeets fun r h x hreq hintact hcalm htxs hx => ?_
  rw [homeStart_evicts hreq hop ((agentIndex_of_coh hintact.coh ..).trans hagent)
    ((getFilter_of_coh hintact.coh _).trans (getFilter_of_one hfilter))] at hx
  exact ⟨by rw [getFilter_of_coh hx.coh, getFilter_dropFilter], hx.mem.trans hintact.mem, hx.poison.trans hintact.poison⟩

end Statements

end Returns

/-! ### Heartbeats (R307) -/

section Heartbeat

variable {p k : Nat} {f : Frame} {s : State} {c : Instr}

theorem storeArrive_renews (hop : f.opcode = 0x55) (hform : formOk f = true)
    (hagent : agentIndex f.srcModule f.srcUnit s.hub = some k) : storeArrive p f (frameNoted p f s.hub) =
      putAgent k { getAgent k (atUnit p f s.hub) with lastHb := (atUnit p f s.hub).devTime } (atUnit p f s.hub) := by
  have hagent' : agentIndex f.srcModule f.srcUnit (atUnit p f s.hub) = some k :=
    (agentIndex_of_coh (atUnit_passed s.hub p f).1.coh ..).trans hagent
  have hdenied := cohDenied_of_agent hagent'
  rw [atUnit] at hagent' hdenied ⊢
  simp [storeArrive, hform, hdenied, hop, hagent']

theorem heartbeat_renews (hexec : exec c s = frameRow p f s) (hop : f.opcode = 0x55)
    (hagent : agentIndex f.srcModule f.srcUnit s.hub = some k) (hunit : meetsUnit p f 0x80 s = true) (hform : formOk f = true) :
    HubAnswers c s (fun h => getAgent k h = { getAgent k s.hub with lastHb := s.hub.devTime } ∧ SameMemory s.hub h) := by
  obtain ⟨hintact, hcalm⟩ := atUnit_passed s.hub p f
  have hrow := frameRow_coh hunit (by omega) hform
  rw [storeArrive_renews hop hform hagent] at hrow
  refine hubAnswers_of_row hexec hrow ⟨?_, hintact.mem, hintact.poison⟩
  rw [getAgent_putAgent, getAgent_of_coh hintact.coh, (hcalm (quiet_of_meetsUnit hunit)).devTime]

end Heartbeat

/-! ### The last answer to a recall (R180, R305) -/

section Recall

variable {p : Nat} {f : Frame} {s : State} {c : Instr} {x : HomeTx} {n : Snoop} {h : Hub}

/-- R305: the data of an M line that an answer brings is stored. -/
def snoopStored (line : Nat) (data : List Byte) (poison : Bool) (h : Hub) : Hub :=
  if data.length = 128 then setT0 line .dirty (memWrite (128 * line) data poison h) else h

/-- R326: an answer of an owner that no longer had the line is counted. -/
def snoopCounted (n : Snoop) (state : Nat) (forwarded : Bool) (h : Hub) : Hub :=
  if state = 0 ∧ n.owned ∧ !forwarded then countSlice n.line 6 1 h else h

theorem snoopCounted_intact (n : Snoop) (state : Nat) (forwarded : Bool) (h : Hub) : Intact h (snoopCounted n state forwarded h) := by
  unfold snoopCounted
  split
  · exact countSlice_intact ..
  · exact Intact.refl h

/-- R305: what the one answer to a snoop to shared leaves: the line Shared, or held by no one where the answer found nothing. -/
def snoopSettled (n : Snoop) (state : Nat) (forwarded : Bool) (data : List Byte) (poison : Bool) (h : Hub) : Hub :=
  released n.line (decide (state ≠ 0)) (snoopCounted n state forwarded (snoopStored n.line data poison h))

theorem snoopSettled_sameMemory (n : Snoop) (state : Nat) (forwarded : Bool) (data : List Byte) (poison : Bool) (h : Hub) :
    SameMemory (snoopStored n.line data poison h) (snoopSettled n state forwarded data poison h) := by
  have hcounted := snoopCounted_intact n state forwarded (snoopStored n.line data poison h)
  obtain ⟨hmem, hpoison⟩ :=
    released_sameMemory n.line (decide (state ≠ 0)) (snoopCounted n state forwarded (snoopStored n.line data poison h))
  exact ⟨hmem.trans hcounted.mem, hpoison.trans hcounted.poison⟩

theorem snoopSettled_owner (n : Snoop) (state : Nat) (forwarded : Bool) (data : List Byte) (poison : Bool) (h : Hub) :
    (getFilter n.line (snoopSettled n state forwarded data poison h)).map (·.owner) = if state = 0 then none else some none := by
  rw [snoopSettled, released_owner]
  simp

theorem findSnoop_one (htxs : h.coh.txs = [x]) (hsnoops : x.snoops = [n]) : findSnoop n.tag h = some (x, n) := by
  simp [findSnoop, htxs, hsnoops]

/-- R180: a recall with no snoop left, alone at the homes, ends. -/
theorem homeReady_recall (hsrc : x.req.src = .tileRecall false) (htxs : ∀ y ∈ h.coh.txs, y.req.id = x.req.id) :
    homeReady x h = withTxs [] h := by
  have hgone : removeTx x.req.id h = withTxs [] h := by
    have hnone : h.coh.txs.filter (fun y => y.req.id != x.req.id) = [] := by simpa using htxs
    rw [removeTx, hnone, withTxs]
  have hstore : isStore x.req = false := by rw [isStore, hsrc]
  simp [homeReady, hstore, hsrc, hgone, resumeRoom, withTxs]

theorem snoopStored_mem {data : List Byte} (hline : data.length = 128) (line : Nat) (poison : Bool) (h : Hub) :
    (snoopStored line data poison h).mem = memPutN h.mem (128 * line) data := by
  rw [snoopStored, if_pos hline]
  exact memWrite_mem ..

theorem snoopStored_nothing {data : List Byte} (hnone : data.length ≠ 128) (line : Nat) (poison : Bool) (h : Hub) :
    snoopStored line data poison h = h := if_neg hnone

theorem snoopSettled_txs (n : Snoop) (state : Nat) (forwarded : Bool) (data : List Byte) (poison : Bool) (h : Hub) :
    (snoopSettled n state forwarded data poison h).coh.txs = h.coh.txs := by
  have hstored : (snoopStored n.line data poison h).coh.txs = h.coh.txs := by
    unfold snoopStored
    split
    · change (memWrite (128 * n.line) data poison h).coh.txs = h.coh.txs
      rw [memWrite_coh]
    · rfl
  rw [snoopSettled, released_txs, (snoopCounted_intact ..).coh, hstored]

/-- R180, R305: the last answer to a recall settles its line and ends it. -/
theorem snoopAnswer_recall (htxs : h.coh.txs = [x]) (hsnoops : x.snoops = [n]) (hkind : n.kind = 2) (hsrc : x.req.src = .tileRecall false)
    (state : Nat) (forwarded : Bool) (data : List Byte) (poison : Bool) :
    snoopAnswer n.tag state forwarded data poison h = withTxs [] (snoopSettled n state forwarded data poison h) := by
  have hanswer : snoopAnswer n.tag state forwarded data poison h =
      afterSnoop { x with snoops := [], forwarded := x.forwarded || forwarded } (snoopSettled n state forwarded data poison h) := by
    simp [snoopAnswer, findSnoop_one htxs hsnoops, hsnoops, hkind, hsrc, snoopSettled, released, snoopCounted, snoopStored]
  rw [hanswer, afterSnoop, if_pos rfl]
  refine homeReady_recall hsrc fun y hy => ?_
  rw [snoopSettled_txs, htxs, List.mem_singleton] at hy
  rw [hy]

/-- R305: a frame that is the last answer to a recall. -/
theorem recall_ends (hexec : exec c s = frameRow p f s) (hop : f.opcode = 0x20) (hdst : f.dstUnit = 0x89)
    (hunit : meetsUnit p f 0x89 s = true) (htxs : s.hub.coh.txs = [x]) (hsnoops : x.snoops = [n]) (htag : n.tag = f.tag)
    (hkind : n.kind = 2) (hsrc : x.req.src = .tileRecall false) : HubAnswers c s (fun h => h.coh.txs = [] ∧
      (getFilter n.line h).map (·.owner) = (if nbits f.aux 1 0 = 0 then none else some none) ∧
      (if f.payload.length = 128 then storesAt (128 * n.line) f.payload s.hub h else SameMemory s.hub h)) := by
  have hnoted := (frameNoted_passed s.hub p f).1
  have htxs' : (frameNoted p f s.hub).coh.txs = [x] := by rw [hnoted.coh, htxs]
  have hrow := frameRow_completion (hdst.symm ▸ hunit) (by omega) hop
  have harrive : completionArrive f (frameNoted p f s.hub) = snoopAnswer n.tag (nbits f.aux 1 0) (f.aux.testBit 2) f.payload
      (payloadPoison f) (frameNoted p f s.hub) := by
    rw [completionArrive, if_pos hdst, ← htag, findSnoop_one htxs' hsnoops]
  rw [onHub, harrive, snoopAnswer_recall htxs' hsnoops hkind hsrc] at hrow
  obtain ⟨hmem, hpoison⟩ :=
    snoopSettled_sameMemory n (nbits f.aux 1 0) (f.aux.testBit 2) f.payload (payloadPoison f) (frameNoted p f s.hub)
  refine hubAnswers_of_row hexec hrow ⟨rfl, snoopSettled_owner .., ?_⟩
  split
  · next hline => exact storesAt_of_put (hmem.trans ((snoopStored_mem hline ..).trans (by rw [hnoted.mem])))
  · next hnone =>
    have hsame := snoopStored_nothing hnone n.line (payloadPoison f) (frameNoted p f s.hub)
    exact ⟨hmem.trans (by rw [hsame, hnoted.mem]), hpoison.trans (by rw [hsame, hnoted.poison])⟩

end Recall

/-! ### Data from one agent to another (R308) -/

section Forward

variable {p q : Nat} {f : Frame} {s : State} {a b : Hub}

theorem agentPort_of_gate (g : SameGate a b) (unit : Nat) : agentPort unit b = agentPort unit a := by
  have hbind (p : Nat) : getReg (0x10 + p) 0x58 b = getReg (0x10 + p) 0x58 a := g.reg _ _ (by unfold plainReg; norm_num)
  simp only [agentPort, g.bindMode, hbind]

/-- R274: a frame for an agent of this module goes to the agent's port. -/
theorem frameRow_agent (htaken : frameTaken p f s.hub = true) (halone : pairJoined s.hub = false)
    (hop : f.opcode ≠ 0x40 ∧ f.opcode ≠ 0x41 ∧ ¬(0x60 ≤ f.opcode ∧ f.opcode ≤ 0x6F)) (hhere : f.dstModule = moduleId s.hub)
    (hunit : 0xC0 ≤ f.dstUnit) (hport : agentPort f.dstUnit s.hub = some q) :
    frameRow p f s = .next { s with hub := enqueue raise p q f (frameNoted p f s.hub) } := by
  have hport' : agentPort f.dstUnit (frameNoted p f s.hub) = some q := (agentPort_of_gate (frameNoted_gate p f s.hub) _).trans hport
  rw [frameRow_taken htaken hop halone, if_pos hhere]
  simp [localArrive, hunit, hport', onHub]

end Forward

/-- Settles O24, a lemma for each frame. -/
theorem coherenceFramesAct : Obligations.CoherenceFramesAct := by
  intro p f off k s hagent haligned
  refine ⟨fun hst hfilter => ⟨fun hmeets hline => ?_, fun hmeets => ?_, fun hmeets => ?_⟩,
    fun g hfilter => ⟨fun hmeets => ?_, fun hmeets => ?_⟩, fun hunit hform => ?_, fun x n hunit htxs hsnoops htag hkind hsrc _ => ?_,
    fun q htaken halone hhere hunit hport => ?_⟩
  · exact readShared_grants (f := asOp 0x50 f) rfl rfl haligned hagent hst hfilter hmeets hline
  · exact readOwn_grants (f := asOp 0x51 f) rfl (.inl rfl) hagent hst hfilter hmeets
  · exact readOwn_grants (f := asOp 0x52 f) rfl (.inr rfl) hagent hst hfilter hmeets
  · exact writeBack_stores (f := asOp 0x53 f) rfl hagent hfilter hmeets rfl
  · exact evict_releases (f := asOp 0x54 f) rfl hagent hfilter hmeets rfl
  · exact heartbeat_renews (f := asOp 0x55 f) rfl rfl hagent hunit hform
  · exact recall_ends (f := toUnit 0x89 (asOp 0x20 f)) rfl rfl rfl hunit htxs hsnoops htag hkind hsrc
  · exact frameRow_agent (f := asOp 0x5A f) htaken halone ⟨by norm_num [asOp], by norm_num [asOp], by norm_num [asOp]⟩ hhere hunit hport

end Sys2Proof.Proofs

/-!
PROOFS. The COH page (R311 to R323): entries of the agent table, agents that are lost and the walks of their lines, and leases.
-/
namespace Sys2Proof.Proofs

open Machine Safety Laws

/-! ### The COH page -/

/-- What the map says of page 0x0060. -/
def cohInfo : PageInfo := ⟨.coh, 0, 0, 8⟩

theorem pageInfo_coh : pageInfo 0x60 = some cohInfo := rfl

theorem cohEvent_sets {b : Nat} (hb : b < 64) (h : Hub) : regBit 0x60 0xF0 b (raiseEvent 0x60 b h) = true :=
  raiseEvent_sets pageInfo_coh rfl (by unfold plainReg; norm_num) hb h

/-- A module that stands alone has no other member to tell. -/
theorem pairTell_alone {a : Hub} (halone : pairJoined a = false) (b : Hub) : pairTell a b = b := by simp [pairTell, halone]

section Rows

variable {c : Instr} {s : State} {f : Hub → Hub} {P : Hub → Prop}

/-- An event of the store that changes agents or leases, in a module that stands alone. -/
theorem storeSyncRow_answers (hc : exec c s = storeSyncRow f s) (hruns : storeRuns s.hub = true) (halone : pairJoined s.hub = false)
    (hP : P (f s.hub)) : HubAnswers c s P := by
  refine ⟨onHub (pairSync f) s, hc.trans (congrArg Host.Outcome.next (if_pos hruns)), rfl, rfl, ?_⟩
  rw [onHub, pairSync, pairTell_alone halone]
  exact hP

end Rows

section Registers

variable {r : Requester} {c : Instr} {s : State} {v : Nat} (halone : pairJoined s.hub = false)

include halone

theorem leaseDefWrite_answers (hc : exec c s = regRow r 0x60 0x70 4 v s) (ha : admits r 0x60 0x70 s = true) (hv : v < 2 ^ 32) :
    AnswersHub c s (leaseDefWrite (w64 v)) :=
  answersHub_write hc ha (by norm_num) pageInfo_coh rfl rfl (by norm_num) (by norm_num) rfl hv rfl
    (by simp [blockWrite, cohInfo, halone])

theorem leaseCmdWrite_answers (hc : exec c s = regRow r 0x60 0x78 8 v s) (ha : admits r 0x60 0x78 s = true) (hv : v < 2 ^ 64) :
    AnswersHub c s (leaseCmdWrite r (w64 v)) :=
  answersHub_write hc ha (by norm_num) pageInfo_coh rfl rfl (by norm_num) (by norm_num) rfl hv rfl
    (by simp [blockWrite, cohInfo, halone])

omit halone in
/-- COH_AGENT, 32 entries of 8 bytes. -/
theorem regAt_agent (a : Fin 32) : regAt cohInfo (0x100 + 8 * a.val) =
    some ⟨ra "COH_AGENT" .coh 0x100 32 8 8 [(25, 8), (0, 0)], a, 0⟩ := by
  fin_cases a <;> rfl

theorem agentWrite_answers (a : Fin 32) (hc : exec c s = regRow r 0x60 (0x100 + 8 * a.val) 8 v s)
    (ha : admits r 0x60 (0x100 + 8 * a.val) s = true) (hv : v < 2 ^ 64) : AnswersHub c s (agentWrite a (w64 v)) := by
  have hlt := a.isLt
  refine answersHub_write hc ha (by norm_num) pageInfo_coh (regAt_agent a) rfl (by omega) (by omega)
    (accessOk_iff.2 (.inr ⟨rfl, by omega⟩)) hv ?_ ?_
  · simp [eventWrite, eventRegs, cohInfo, show 0x100 + 8 * a.val ≠ 0xF0 by omega, show 0x100 + 8 * a.val ≠ 0xF4 by omega]
  · simp [blockWrite, cohInfo, halone, show 0x100 + 8 * a.val < 0x200 by omega, show 0x100 + 8 * a.val ≠ 0x48 by omega,
      show 0x100 + 8 * a.val ≠ 0x70 by omega, show 0x100 + 8 * a.val ≠ 0x78 by omega]

end Registers

/-! ### Entries of the agent table (R311, R322) -/

section Agents

variable {a v : Nat} {h : Hub}

/-- R311: an entry that is off or walked opens for the module and unit written. -/
theorem agentWrite_opens (ha : a < agentCount h) (hst : (getAgent a h).st = .off ∨ (getAgent a h).st = .walked) (hv : v < 2 ^ 64)
    (hen : v.testBit 0 = true) : agentWrite a (w64 v) h = putAgent a
      { getAgent a h with st := .active, en := true, module := nbits v 17 8, unit := nbits v 25 18, lastHb := h.devTime } h := by
  have hcount : ¬ agentCount h ≤ a := by omega
  rcases hst with hst | hst <;> simp [agentWrite, hcount, hst, fld_w64 hv, bitOf_w64 hv, hen]

/-- R322: an entry in use is not moved. -/
theorem agentWrite_refuses (ha : a < agentCount h) (hst : (getAgent a h).st = .active ∨ (getAgent a h).st = .lost) (hv : v < 2 ^ 64)
    (hmoves : nbits v 25 18 ≠ (getAgent a h).unit ∨ nbits v 17 8 ≠ (getAgent a h).module) :
    agentWrite a (w64 v) h = raise 0x60 17 h := by
  have hcount : ¬ agentCount h ≤ a := by omega
  rcases hst with hst | hst <;> simp [agentWrite, hcount, hst, fld_w64 hv, hmoves, cohPage]

end Agents

/-! ### Lost agents (R312) -/

section Lost

variable {k cause : Nat} {rest : List Nat} {h : Hub}

/-- R312: the entry of an agent that is lost, its record in COH_LOST_W0, and the walk of its lines. -/
def agentLost (k cause : Nat) (h : Hub) : Hub :=
  let a := getAgent k h
  let h1 := putAgent k { a with st := .lost, en := if cause = 4 then false else a.en } h
  { h1 with coh := { h1.coh with
    lostW0 := w64 (mkFld 55 51 k + mkFld 50 48 cause + mkFld 47 0 h.devTime), lostLines := 0
    walks := h1.coh.walks ++ [k], walkDone := if h1.coh.walks = [] then 0 else h1.coh.walkDone } }

/-- R312, R319: the leases that agent a holds return to Idle. -/
def freeLeases (a : CohAgent) (h : Hub) : Hub :=
  ((h.coh.leases.filter (fun e => e.2.st == .held && e.2.holder == .agent a.module a.unit)).map (·.1)).foldl (fun x i => leaseIdle i x) h

/-- R312: the snoops sent to agent k are answered for it. -/
def answerAll (k : Nat) (h : Hub) : Hub :=
  ((h.coh.txs.map (fun x => (x.snoops.filter (fun s => s.agent == k)).map (·.tag))).flatten).foldl (fun x t => answerForLost t x) h

theorem freeLeases_none (hleases : h.coh.leases = []) (a : CohAgent) : freeLeases a h = h := by simp [freeLeases, hleases]

theorem answerAll_none (htxs : h.coh.txs = []) (k : Nat) : answerAll k h = h := by simp [answerAll, htxs]

theorem loseAgent_active (hst : (getAgent k h).st = .active) : loseAgent k cause h =
    answerAll k (freeLeases (getAgent k h) (count 0x60 0 1 (raise 0x60 16 (agentLost k cause h)))) := if_neg (not_not_intro hst)

/-- R312: an agent that holds no lease and owes no answer. -/
theorem loseAgent_reports (hst : (getAgent k h).st = .active) (hleases : h.coh.leases = []) (htxs : h.coh.txs = []) :
    loseAgent k cause h = count 0x60 0 1 (raise 0x60 16 (agentLost k cause h)) := by
  have hcoh : (count 0x60 0 1 (raise 0x60 16 (agentLost k cause h))).coh = (agentLost k cause h).coh := by simp
  rw [loseAgent_active hst, freeLeases_none (by rw [hcoh]; exact hleases), answerAll_none (by rw [hcoh]; exact htxs)]

theorem heartbeatTimeout_loses (hlimit : 0 < regFld 0x60 0x40 31 16 h) (hst : (getAgent k h).st = .active)
    (hlate : (getAgent k h).lastHb + 1000 * regFld 0x60 0x40 31 16 h ≤ h.devTime) : heartbeatTimeout k h = loseAgent k 2 h := by
  rw [heartbeatTimeout]
  exact if_pos ⟨by exact hlimit.ne', hst, by rw [usToNs, Nat.mul_comm]; exact hlate⟩

/-- R312: a line of a lost owner is poisoned, and its entry goes. -/
def abandonLine (h : Hub) (line : Nat) : Hub := dropFilter line (poisonLine line h)

theorem abandonLine_mem (line : Nat) (h : Hub) : (abandonLine h line).mem = h.mem := by
  simp [abandonLine, dropFilter, poisonLine, dropT0, addPoison]

theorem abandonLine_filter (line : Nat) (h : Hub) : (abandonLine h line).coh.filter = Tab.erase h.coh.filter line := by
  simp [abandonLine, dropFilter, poisonLine, dropT0, addPoison]

theorem mem_filter_abandonLines {e : Nat × FilterEntry} (ls : List Nat) (h : Hub) :
    e ∈ (ls.foldl abandonLine h).coh.filter ↔ e ∈ h.coh.filter ∧ e.1 ∉ ls := by
  induction ls generalizing h with
  | nil => simp
  | cons line ls ih => simp [ih, abandonLine_filter, mem_tab_erase, and_assoc]

/-- The lines that the filter lists as Owned by agent k. -/
def ownedLines (k : Nat) (h : Hub) : List Nat := (h.coh.filter.filter (fun e => e.2.owner == some k)).map (·.1)

theorem abandonLines_owner {e : Nat × FilterEntry} (he : e ∈ ((ownedLines k h).foldl abandonLine h).coh.filter) :
    e.2.owner ≠ some k := by
  intro howner
  obtain ⟨hmem, hline⟩ := (mem_filter_abandonLines _ _).1 he
  exact hline (List.mem_map.2 ⟨e, List.mem_filter.2 ⟨hmem, by simpa using howner⟩, rfl⟩)

/-- R311, R312: what the end of a walk leaves, before its event. -/
def walked (k : Nat) (rest : List Nat) (h : Hub) : Hub :=
  let h2 := putAgent k { getAgent k h with st := .walked } h
  { h2 with coh := { h2.coh with walks := rest, walkDone := if rest = [] then 8388608 else 0 } }

theorem walkEnd_ends (hwalks : h.coh.walks = k :: rest) :
    walkEnd h = raiseEvent 0x60 0 (walked k rest ((ownedLines k h).foldl abandonLine h)) := by
  rw [walkEnd, hwalks]
  rfl

end Lost

/-! ### Leases (R315 to R319) -/

section Leases

variable {i op term epoch : Nat} {h a b : Hub} {r : Requester} {w : Holder}

theorem getLease_of_coh (hcoh : b.coh = a.coh) (i : Nat) : getLease i b = getLease i a := by rw [getLease, hcoh, getLease]

theorem getLease_writeLease {l : Lease} (hst : l.st ≠ .undefined) (i : Nat) (h : Hub) : getLease i (writeLease i l h) = l := by
  simp [getLease, writeLease, hst, Tab.getD, tab_get_set]

/-- R548, R563: an entry that reads clean is read as it stands. -/
theorem leaseRead_clean (husable : leaseUsable i h = true) (hquiet : h.ras.injection = none) : leaseRead i h = h := by
  rw [leaseRead, meetInjection_of_quiet hquiet]
  exact if_pos husable

/-- COH_LEASE_DEF of a command on lease i. -/
def leaseDefWord (op i term : Nat) : Nat := mkFld 31 30 op + mkFld 27 16 i + mkFld 15 0 term

theorem leaseDefWord_fields (hop : op < 4) (hi : i < 4096) (hterm : term < 65536) : leaseDefWord op i term < 2 ^ 32 ∧
    nbits (leaseDefWord op i term) 31 30 = op ∧ nbits (leaseDefWord op i term) 27 16 = i ∧
    nbits (leaseDefWord op i term) 15 0 = term := by
  simp only [leaseDefWord, mkFld, nbits, Nat.shiftLeft_eq, Nat.shiftRight_eq_div_pow]
  norm_num
  omega

/-- COH_LEASE_CMD of a command on lease i. -/
def leaseCmdWord (op i epoch : Nat) : Nat := mkFld 63 32 epoch + mkFld 31 30 op + mkFld 27 16 i

theorem leaseCmdWord_fields (hop : op < 4) (hi : i < 4096) (hepoch : epoch < 2 ^ 32) : leaseCmdWord op i epoch < 2 ^ 64 ∧
    nbits (leaseCmdWord op i epoch) 31 30 = op ∧ nbits (leaseCmdWord op i epoch) 27 16 = i ∧
    nbits (leaseCmdWord op i epoch) 63 32 = epoch := by
  simp only [leaseCmdWord, mkFld, nbits, Nat.shiftLeft_eq, Nat.shiftRight_eq_div_pow]
  norm_num at hepoch ⊢
  omega

/-- R322: a write of COH_LEASE_DEF is read by its fields. -/
theorem leaseDefWrite_word (hop : op < 4) (hi : i < 4096) (hterm : term < 65536) :
    fld (w64 (leaseDefWord op i term)) 31 30 = op ∧ fld (w64 (leaseDefWord op i term)) 27 16 = i ∧
    fld (w64 (leaseDefWord op i term)) 15 0 = term := by
  obtain ⟨hlt, hfields⟩ := leaseDefWord_fields hop hi hterm
  have hlt' : leaseDefWord op i term < 2 ^ 64 := by omega
  simpa only [fld_w64 hlt'] using hfields

theorem leaseCmdWrite_word (hop : op < 4) (hi : i < 4096) (hepoch : epoch < 2 ^ 32) :
    fld (w64 (leaseCmdWord op i epoch)) 31 30 = op ∧ fld (w64 (leaseCmdWord op i epoch)) 27 16 = i ∧
    fld (w64 (leaseCmdWord op i epoch)) 63 32 = epoch := by
  obtain ⟨hlt, hfields⟩ := leaseCmdWord_fields hop hi hepoch
  simpa only [fld_w64 hlt] using hfields

/-- R319: the lease as revocation and expiry leave it. -/
def idled (l : Lease) : Lease := { l with st := .idle, epoch := (l.epoch + 1) % 2 ^ 32 }

theorem idled_st (l : Lease) : (idled l).st ≠ .undefined := LeaseState.noConfusion

theorem leaseIdle_idles (hst : (getLease i h).st = .held) (husable : leaseUsable i h = true) :
    leaseIdle i h = writeLease i (idled (getLease i h)) h := if_pos ⟨hst, husable⟩

section Read

variable (husable : leaseUsable i h = true) (hquiet : h.ras.injection = none)

include husable hquiet

/-- R316: DEFINE of an Undefined lease over tiles that no other lease covers. -/
theorem leaseDefine_defines (hst : (getLease i h).st = .undefined)
    (hfree : ∀ e ∈ h.coh.leases, e.2.st = .undefined ∨
      regFld 0x60 0x68 28 0 h + max 1 (regFld 0x60 0x68 63 48 h) ≤ e.2.tile ∨ e.2.tile + e.2.count ≤ regFld 0x60 0x68 28 0 h)
    (hfits : regFld 0x60 0x68 28 0 h + max 1 (regFld 0x60 0x68 63 48 h) ≤ 2 ^ 29) : leaseDefine i term h = writeLease i
      { st := .idle, tile := regFld 0x60 0x68 28 0 h, count := max 1 (regFld 0x60 0x68 63 48 h), termMs := term } h := by
  have hnone : h.coh.leases.any (fun e => e.2.st != .undefined && leaseUsable e.1 h &&
      decide (regFld 0x60 0x68 28 0 h < e.2.tile + e.2.count ∧ e.2.tile < regFld 0x60 0x68 28 0 h + max 1 (regFld 0x60 0x68 63 48 h))) =
      false := by
    rw [List.any_eq_false]
    intro e he
    rcases hfree e he with hundef | hapart
    · simp [hundef]
    · rw [decide_eq_false (by omega), Bool.and_false]
      exact Bool.false_ne_true
  rw [leaseDefine, leaseRead_clean husable hquiet]
  refine if_neg ?_
  rintro (hdefined | hoverlaps | hbeyond)
  · exact hdefined hst
  · exact absurd (hoverlaps.symm.trans hnone) (by simp)
  · exact absurd hfits (by simpa [cohPage] using hbeyond)

/-- R316: UNDEFINE of an Idle lease. -/
theorem leaseUndefine_clears (hst : (getLease i h).st = .idle) : getLease i (leaseUndefine i h) = {} := by
  rw [leaseUndefine, leaseRead_clean husable hquiet, if_pos hst, getLease, Tab.getD, tab_get_erase, if_pos rfl]
  rfl

/-- R316: UNDEFINE of any other lease. -/
theorem leaseUndefine_refuses (hst : (getLease i h).st ≠ .idle) : leaseUndefine i h = raise 0x60 20 h := by
  rw [leaseUndefine, leaseRead_clean husable hquiet, if_neg hst]
  rfl

theorem leaseRevoke_idles (hst : (getLease i h).st = .held) : leaseRevoke i h = writeLease i (idled (getLease i h)) h := by
  rw [leaseRevoke, leaseRead_clean husable hquiet, leaseIdle_idles hst husable]

/-- R317: a holder command that meets its condition. -/
theorem leaseHolder_acts {cond : Holder → Lease → Bool} {act : Holder → Lease → Lease} {note : Hub → Hub}
    (hholder : holderOf r h = some w) (hen : enabled 0x60 h = true) (hst : (getLease i h).st ≠ .undefined)
    (hcond : cond w (getLease i h) = true) : leaseHolder r i cond act note h = note (writeLease i (act w (getLease i h)) h) := by
  simp [leaseHolder, hholder, leaseRead_clean husable hquiet, cohPage, hen, hst, husable, hcond]

end Read

/-- R319: the term of a Held lease has passed. -/
theorem leaseExpire_expires (husable : leaseUsable i h = true) (hst : (getLease i h).st = .held) (hterm : 0 < (getLease i h).termMs)
    (hlate : (getLease i h).started + 1000000 * (getLease i h).termMs ≤ h.devTime) :
    leaseExpire i h = raiseEvent 0x60 1 (count 0x60 4 1 (writeLease i (idled (getLease i h)) h)) := by
  rw [leaseExpire, ← leaseIdle_idles hst husable]
  exact if_pos ⟨hst, husable, hterm.ne', by rw [msToNs, Nat.mul_comm]; exact hlate⟩

end Leases

/-! ### Commands of the agent table -/

section AgentCommands

variable {r : Requester} {s : State} {v : Nat}

theorem cohAgentWrite_opens (halone : pairJoined s.hub = false) (a : Fin 32) (ha : admits r 0x60 (0x100 + 8 * a.val) s = true)
    (hv : v < 2 ^ 64) (hcount : a.val < agentCount s.hub) (hst : (getAgent a s.hub).st = .off ∨ (getAgent a s.hub).st = .walked)
    (hen : v.testBit 0 = true) : AnswersHub (.cohAgentWrite r a v) s (putAgent a { getAgent a s.hub with
      st := .active, en := true, module := nbits v 17 8, unit := nbits v 25 18, lastHb := s.hub.devTime }) :=
  answersHub_congr (agentWrite_answers halone a rfl ha hv) (agentWrite_opens hcount hst hv hen)

theorem cohAgentWrite_refuses (halone : pairJoined s.hub = false) (a : Fin 32) (ha : admits r 0x60 (0x100 + 8 * a.val) s = true)
    (hv : v < 2 ^ 64) (hcount : a.val < agentCount s.hub) (hst : (getAgent a s.hub).st = .active ∨ (getAgent a s.hub).st = .lost)
    (hmoves : nbits v 25 18 ≠ (getAgent a s.hub).unit ∨ nbits v 17 8 ≠ (getAgent a s.hub).module) :
    HubAnswers (.cohAgentWrite r a v) s (fun h => regBit 0x60 0x18 17 h = true ∧ h.coh = s.hub.coh ∧ SameMemory s.hub h) := by
  have hans : AnswersHub (.cohAgentWrite r a v) s (raise 0x60 17) :=
    answersHub_congr (agentWrite_answers halone a rfl ha hv) (agentWrite_refuses hcount hst hv hmoves)
  refine hubAnswers_of_moves hans fun y hswitch hsteady => ?_
  have hall := (raise_switch 0x60 17 s.hub).trans hswitch
  exact ⟨hsteady.err 0x60 17 (raise_sets 0x60 17 (by norm_num) s.hub), hall.coh, sameMemory_of_switch hall⟩

theorem agentHeartbeatTimeout_loses (halone : pairJoined s.hub = false) (a : Fin 32) (hruns : storeRuns s.hub = true)
    (hst : (getAgent a s.hub).st = .active) (hlimit : 0 < regFld 0x60 0x40 31 16 s.hub)
    (hlate : (getAgent a s.hub).lastHb + 1000 * regFld 0x60 0x40 31 16 s.hub ≤ s.hub.devTime) (htxs : s.hub.coh.txs = [])
    (hleases : s.hub.coh.leases = []) : HubAnswers (.agentHeartbeatTimeout a) s (fun h =>
      getAgent a h = { getAgent a s.hub with st := .lost } ∧ h.coh.walks = s.hub.coh.walks ++ [a.val] ∧
      regBit 0x60 0x18 16 h = true ∧ SameMemory s.hub h) := by
  refine storeSyncRow_answers (f := heartbeatTimeout a) rfl hruns halone ?_
  rw [heartbeatTimeout_loses hlimit hst hlate, loseAgent_reports hst hleases htxs]
  have hswitch := (raise_switch 0x60 16 (agentLost a 2 s.hub)).trans (count_switch 0x60 0 1 _)
  refine ⟨(getAgent_of_coh hswitch.coh a).trans (getAgent_putAgent _ _ s.hub), by rw [hswitch.coh]; rfl, ?_,
    hswitch.mem, hswitch.poison⟩
  exact (count_moves steady_moves 0x60 0 1 _ (by norm_num)).err 0x60 16 (raise_sets 0x60 16 (by norm_num) _)

theorem walkDone_ends {k : Nat} {rest : List Nat} (hruns : storeRuns s.hub = true) (hwalks : s.hub.coh.walks = k :: rest) :
    HubAnswers .walkDone s (fun h => (getAgent k h).st = .walked ∧ h.coh.walks = rest ∧ regBit 0x60 0xF0 0 h = true ∧
      (∀ e ∈ h.coh.filter, e.2.owner ≠ some k) ∧ h.mem = s.hub.mem) := by
  refine ⟨onHub walkEnd s, congrArg Host.Outcome.next (if_pos hruns), rfl, rfl, ?_⟩
  rw [onHub, walkEnd_ends hwalks]
  have hswitch := raiseEvent_switch 0x60 0 (walked k rest ((ownedLines k s.hub).foldl abandonLine s.hub))
  refine ⟨?_, by rw [hswitch.coh]; rfl, cohEvent_sets (by norm_num) _, fun e he => ?_, ?_⟩
  · rw [getAgent_of_coh hswitch.coh]
    exact congrArg CohAgent.st (getAgent_putAgent k _ _)
  · rw [hswitch.coh] at he
    exact abandonLines_owner he
  · exact hswitch.mem.trans (foldl_keeps Hub.mem (fun x line => abandonLine_mem line x) _ s.hub)

end AgentCommands

/-! ### Commands of COH_LEASE_DEF -/

section LeaseDefinitions

variable {r : Requester} {c : Instr} {s : State} {op term : Nat} {i : Fin 4096} (halone : pairJoined s.hub = false)
  (ha : admits r 0x60 0x70 s = true) (hterm : term < 65536)

include halone ha hterm

theorem leaseDefWord_answers (hop : op < 4) (hc : exec c s = regRow r 0x60 0x70 4 (leaseDefWord op i term) s) :
    AnswersHub c s (leaseDefWrite (w64 (leaseDefWord op i term))) :=
  leaseDefWrite_answers halone hc ha (leaseDefWord_fields hop i.isLt hterm).1

theorem leaseDefine_answers : AnswersHub (.leaseDefine r i term) s (leaseDefine i term) := by
  obtain ⟨hop, hi, hterm'⟩ := leaseDefWrite_word (op := 1) (by norm_num) i.isLt hterm
  refine answersHub_congr (leaseDefWord_answers (op := 1) halone ha hterm (by norm_num) rfl) ?_
  simp only [leaseDefWrite, hop, hi, hterm']

theorem leaseUndefine_answers : AnswersHub (.leaseUndefine r i term) s (leaseUndefine i) := by
  obtain ⟨hop, hi, -⟩ := leaseDefWrite_word (op := 2) (by norm_num) i.isLt hterm
  refine answersHub_congr (leaseDefWord_answers (op := 2) halone ha hterm (by norm_num) rfl) ?_
  simp only [leaseDefWrite, hop, hi]

theorem leaseRevoke_answers : AnswersHub (.leaseRevoke r i term) s (leaseRevoke i) := by
  obtain ⟨hop, hi, -⟩ := leaseDefWrite_word (op := 3) (by norm_num) i.isLt hterm
  refine answersHub_congr (leaseDefWord_answers (op := 3) halone ha hterm (by norm_num) rfl) ?_
  simp only [leaseDefWrite, hop, hi]

end LeaseDefinitions

/-! ### Commands of COH_LEASE_CMD -/

section LeaseHolders

variable {r : Requester} {c : Instr} {s : State} {op epoch : Nat} {i : Fin 4096} (halone : pairJoined s.hub = false)
  (ha : admits r 0x60 0x78 s = true) (hepoch : epoch < 2 ^ 32)

include halone ha hepoch

theorem leaseCmdWord_answers (hop : op < 4) (hc : exec c s = regRow r 0x60 0x78 8 (leaseCmdWord op i epoch) s) :
    AnswersHub c s (leaseCmdWrite r (w64 (leaseCmdWord op i epoch))) :=
  leaseCmdWrite_answers halone hc ha (leaseCmdWord_fields hop i.isLt hepoch).1

theorem leaseTake_answers : AnswersHub (.leaseTake r i epoch) s (leaseTake r i) := by
  obtain ⟨hop, hi, -⟩ := leaseCmdWrite_word (op := 1) (by norm_num) i.isLt hepoch
  refine answersHub_congr (leaseCmdWord_answers (op := 1) halone ha hepoch (by norm_num) rfl) ?_
  simp only [leaseCmdWrite, hop, hi]

theorem leaseRenew_answers : AnswersHub (.leaseRenew r i epoch) s (leaseRenew r i epoch) := by
  obtain ⟨hop, hi, hepoch'⟩ := leaseCmdWrite_word (op := 2) (by norm_num) i.isLt hepoch
  refine answersHub_congr (leaseCmdWord_answers (op := 2) halone ha hepoch (by norm_num) rfl) ?_
  simp only [leaseCmdWrite, hop, hi, hepoch']

theorem leaseGive_answers : AnswersHub (.leaseGive r i epoch) s (leaseGive r i epoch) := by
  obtain ⟨hop, hi, hepoch'⟩ := leaseCmdWrite_word (op := 3) (by norm_num) i.isLt hepoch
  refine answersHub_congr (leaseCmdWord_answers (op := 3) halone ha hepoch (by norm_num) rfl) ?_
  simp only [leaseCmdWrite, hop, hi, hepoch']

end LeaseHolders

/-! ### What a lease becomes -/

section LeaseOutcomes

variable {c : Instr} {s : State} {f : Hub → Hub} {i : Nat} {l : Lease}

/-- A command that leaves lease i as l. -/
theorem hubAnswers_lease (hans : AnswersHub c s f) (hl : getLease i (f s.hub) = l) : HubAnswers c s (fun h => getLease i h = l) :=
  hubAnswers_of_moves hans fun _ hswitch _ => (getLease_of_coh hswitch.coh i).trans hl

/-- A command that writes l as lease i. -/
theorem hubAnswers_leaseWritten (hans : AnswersHub c s f) (hf : (f s.hub).coh = (writeLease i l s.hub).coh) (hst : l.st ≠ .undefined) :
    HubAnswers c s (fun h => getLease i h = l) :=
  hubAnswers_lease hans ((getLease_of_coh hf i).trans (getLease_writeLease hst i s.hub))

/-- R316: a definition that is refused. -/
theorem hubAnswers_leaseRefused (hans : AnswersHub c s f) (hf : f s.hub = raise 0x60 20 s.hub) :
    HubAnswers c s (fun h => regBit 0x60 0x18 20 h = true ∧ h.coh.leases = s.hub.coh.leases ∧ SameMemory s.hub h) := by
  refine hubAnswers_of_moves (answersHub_congr hans (g := raise 0x60 20) hf) fun y hswitch hsteady => ?_
  have hall := (raise_switch 0x60 20 s.hub).trans hswitch
  exact ⟨hsteady.err 0x60 20 (raise_sets 0x60 20 (by norm_num) s.hub), congrArg _ hall.coh, sameMemory_of_switch hall⟩

theorem leaseExpiry_idles (halone : pairJoined s.hub = false) {i : Fin 4096} (husable : leaseUsable i s.hub = true)
    (hst : (getLease i s.hub).st = .held) (hterm : 0 < (getLease i s.hub).termMs)
    (hlate : (getLease i s.hub).started + 1000000 * (getLease i s.hub).termMs ≤ s.hub.devTime) :
    HubAnswers (.leaseExpiry i) s (fun h => getLease i h = idled (getLease i s.hub) ∧ regBit 0x60 0xF0 1 h = true) := by
  refine syncRow_answers (f := leaseExpire i) rfl ?_
  rw [pairTell_alone halone, leaseExpire_expires husable hst hterm hlate]
  refine ⟨?_, cohEvent_sets (by norm_num) _⟩
  exact (getLease_of_coh ((raiseEvent_coh _ _ _).trans (count_coh _ _ _ _)) i).trans (getLease_writeLease (idled_st _) i s.hub)

end LeaseOutcomes

/-- Settles O25, a lemma for each command and its outcome. -/
theorem agentsAndLeasesAct : Obligations.AgentsAndLeasesAct := by
  unfold Obligations.AgentsAndLeasesAct
  intro r s halone
  refine ⟨?agent, ?heartbeat, fun k rest => walkDone_ends, ?definitions, ?holders, ?expiry⟩
  case agent =>
    intro a v ha hv hcount
    exact ⟨cohAgentWrite_opens halone a ha hv hcount, cohAgentWrite_refuses halone a ha hv hcount⟩
  case heartbeat =>
    intro a e
    exact agentHeartbeatTimeout_loses halone a
  case definitions =>
    intro i term l ha hterm husable hquiet
    have hundefine := leaseUndefine_answers (i := i) halone ha hterm
    refine ⟨fun hst hfree hfits => ?_, fun hst => ?_, fun hst => ?_, fun hst => ?_⟩
    · exact hubAnswers_leaseWritten (leaseDefine_answers halone ha hterm)
        (congrArg Hub.coh (leaseDefine_defines husable hquiet hst hfree hfits)) LeaseState.noConfusion
    · exact hubAnswers_lease hundefine (leaseUndefine_clears husable hquiet hst)
    · exact hubAnswers_leaseRefused hundefine (leaseUndefine_refuses husable hquiet hst)
    · exact hubAnswers_leaseWritten (leaseRevoke_answers halone ha hterm)
        (congrArg Hub.coh (leaseRevoke_idles husable hquiet hst)) (idled_st l)
  case holders =>
    intro i epoch w l ha hepoch hholder hen husable hquiet
    refine ⟨fun hst => ?_, fun hst hown hepoch' => ?_⟩
    · have hdefined : l.st ≠ .undefined := by simp [hst]
      have hidle : (l.st == .idle) = true := by simp [hst]
      exact hubAnswers_leaseWritten (leaseTake_answers halone ha hepoch)
        ((congrArg Hub.coh (leaseHolder_acts husable hquiet hholder hen hdefined hidle)).trans (count_coh _ _ _ _))
        LeaseState.noConfusion
    · have hdefined : l.st ≠ .undefined := by simp [hst]
      have hholds : (l.st == .held && l.holder == w && l.epoch == epoch) = true := by simp [hst, hown, hepoch']
      exact ⟨hubAnswers_leaseWritten (leaseRenew_answers halone ha hepoch)
          (congrArg Hub.coh (leaseHolder_acts husable hquiet hholder hen hdefined hholds)) hdefined,
        hubAnswers_leaseWritten (leaseGive_answers halone ha hepoch)
          (congrArg Hub.coh (leaseHolder_acts husable hquiet hholder hen hdefined hholds)) LeaseState.noConfusion⟩
  case expiry =>
    intro i l
    exact leaseExpiry_idles halone

end Sys2Proof.Proofs

/-!
PROOFS. A command fence (R358) of a core whose one live context is already ending in a fault: such a context has no second fault
(R353), so it does not end FENCED, though no command of the core is in flight. No condition of the statement asks that a context with
no command left has ended.
-/
namespace Sys2Proof.Proofs

open Machine Safety Laws

/-- A context that runs no more commands after a fault with code 1, as R353 has it wait for its commands in flight. -/
def endingCtx : Ctx := { st := .running, ending := some (.fault 1) }

/-- A module that serves, with CXL port 0 up, and core 4 in service with that context as its context 2, and no command in its queues. -/
def coreWithEndingCtx : State :=
  { hub := { boot := { phase := .ready, coreMap := List.range 64 }, cxl0 := { up := true },
             cores := [(4, { ctxs := [(2, endingCtx)] })] } }

/-- COMMAND_FENCE of core 4 by the fabric manager. -/
def fenceCore4 : Instr := .commandFence (.fm 0) 4 0

/-- What it answers. -/
def afterFence : State := pairSyncS (regWriteFrom (.fm 0) 0x204 0x44 4 1) coreWithEndingCtx

theorem coreWithEndingCtx_admits : admits (.fm 0) 0x204 0x44 coreWithEndingCtx = true := by decide +kernel

theorem exec_fenceCore4 : exec fenceCore4 coreWithEndingCtx = .next afterFence := rfl

theorem getCtx_before : getCtx 4 2 coreWithEndingCtx.hub = endingCtx := by decide +kernel

/-- The context is left as it was. -/
theorem getCtx_afterFence : getCtx 4 2 afterFence.hub = endingCtx := by decide +kernel

/-- Refutes O31: a COMMAND_FENCE leaves a Running context that is already ending in a fault as it is, where the statement has it
Faulted with code FENCED. -/
theorem not_coreCommandsAct : ¬ Obligations.CoreCommandsAct := by
  intro hacts
  obtain ⟨-, -, -, -, hfences, -⟩ := hacts (.fm 0) 4 coreWithEndingCtx ⟨rfl, rfl⟩
  obtain ⟨hfence, -⟩ := hfences 0 coreWithEndingCtx_admits (by norm_num)
  obtain ⟨t, hexec, -, -, -, -, -, hctxs⟩ := hfence rfl rfl
  obtain rfl : afterFence = t := Host.Outcome.next.inj (exec_fenceCore4.symm.trans hexec)
  have hfaulted : getCtx 4 2 afterFence.hub = faultedCtx 0xC endingCtx := by
    have hctx := hctxs 2
    rw [if_pos (.inl (congrArg Ctx.st getCtx_before))] at hctx
    exact hctx.trans (congrArg (faultedCtx 0xC) getCtx_before)
  exact absurd (getCtx_afterFence.symm.trans hfaulted) (by decide)

end Sys2Proof.Proofs

/-!
PROOFS. Cores, their contexts, and the issue of a command: what a context and a core read after a change of another, what
issuing keeps, and how a row of the pattern's commands answers once its word issues (R345 to R362).
-/
namespace Sys2Proof.Proofs

open Machine Safety Laws

section Cores

variable {a b h : Hub} {k j c d : Nat} {x : Ctx} {core : Core}

theorem getCore_of_cores (hcores : b.cores = a.cores) (k : Nat) : getCore k b = getCore k a := by rw [getCore, hcores, getCore]

theorem getCtx_of_cores (hcores : b.cores = a.cores) (k c : Nat) : getCtx k c b = getCtx k c a := by
  rw [getCtx, getCore_of_cores hcores, getCtx]

theorem semVal_of_cores (hcores : b.cores = a.cores) (k i : Nat) : semVal k i b = semVal k i a := by
  rw [semVal, getCore_of_cores hcores, semVal]

theorem getCore_putCore : getCore j (putCore k core h) = if k = j then core else getCore j h := by
  simp only [getCore, putCore, Tab.getD, tab_get_set]
  split <;> rfl

@[simp] theorem getCore_putCore_same : getCore k (putCore k core h) = core := by rw [getCore_putCore, if_pos rfl]

theorem getCore_putCtx_same : getCore k (putCtx k c x h) = { getCore k h with ctxs := Tab.set (getCore k h).ctxs c x } :=
  getCore_putCore_same

/-- A context of a core that keeps its contexts, or of another, is as before. -/
theorem getCtx_putCore (hctxs : core.ctxs = (getCore k h).ctxs) : getCtx j d (putCore k core h) = getCtx j d h := by
  rw [getCtx, getCore_putCore]
  by_cases hkj : k = j
  · subst hkj
    rw [if_pos rfl, hctxs, getCtx]
  · rw [if_neg hkj, getCtx]

@[simp] theorem getCtx_putCtx_same : getCtx k c (putCtx k c x h) = x := by
  rw [getCtx, getCore_putCtx_same, Tab.getD, tab_get_set, if_pos rfl, Option.getD_some]

@[simp] theorem getCtx_count (p s n : Nat) : getCtx k c (count p s n h) = getCtx k c h := getCtx_of_cores (count_cores p s n h) k c

@[simp] theorem getCore_count (p s n : Nat) : getCore k (count p s n h) = getCore k h := getCore_of_cores (count_cores p s n h) k

/-- An entry of a table after one of its entries was set. -/
theorem mem_tab_set {α : Type} {t : Tab α} {i : Nat} {v : α} {e : Nat × α} (he : e ∈ Tab.set t i v) : e = (i, v) ∨ e ∈ t := by
  induction t with
  | nil => exact .inl (List.mem_singleton.mp he)
  | cons p u ih =>
    obtain ⟨l, w⟩ := p
    unfold Tab.set at he
    split at he
    · rcases List.mem_cons.mp he with h1 | h1
      · exact .inl h1
      · exact .inr (List.mem_cons_of_mem _ h1)
    · split at he
      · exact List.mem_cons.mp he
      · rcases List.mem_cons.mp he with h1 | h1
        · exact .inr (h1 ▸ List.mem_cons_self)
        · exact (ih h1).imp_right (List.mem_cons_of_mem _)

/-- What a table reads at an entry's key is the value of some entry. -/
theorem mem_of_tab_get {α : Type} {t : Tab α} {i : Nat} {v : α} (hget : Tab.get? t i = some v) : (i, v) ∈ t := by
  induction t with
  | nil => cases hget
  | cons p u ih =>
    obtain ⟨l, w⟩ := p
    unfold Tab.get? at hget
    split at hget
    case isTrue hl => cases hget; exact hl ▸ List.mem_cons_self
    case isFalse => exact List.mem_cons_of_mem _ (ih hget)

/-- Contexts none of whose entries waits read as not waiting, listed or not. -/
theorem getCtx_not_waiting (hwait : ∀ e ∈ (getCore k h).ctxs, e.2.st ≠ .waiting) (c : Nat) : (getCtx k c h).st ≠ .waiting := by
  rw [getCtx, Tab.getD]
  cases hget : Tab.get? (getCore k h).ctxs c with
  | none => exact CtxState.noConfusion
  | some v => exact hwait _ (mem_of_tab_get hget)

/-- R374: where no context waits, none is woken. -/
theorem wakeWaits_idle (hwait : ∀ e ∈ (getCore k h).ctxs, e.2.st ≠ .waiting) : wakeWaits k h = h := by
  unfold wakeWaits
  refine List.foldl_fixed' (fun e => ?_) _
  have hnot := getCtx_not_waiting hwait e.1
  generalize getCtx k e.1 h = v at hnot ⊢
  dsimp only
  generalize v.st = st at hnot ⊢
  cases st with
  | waiting => contradiction
  | free | ready | running | faulted => rfl

/-- R374: a semaphore's value, once set. -/
theorem setSem_idle {i v : Nat} (hwait : ∀ e ∈ (getCore k h).ctxs, e.2.st ≠ .waiting) :
    setSem k i v h = putCore k { getCore k h with sems := Tab.set (getCore k h).sems i (v % 2 ^ 32) } h :=
  wakeWaits_idle (by rw [getCore_putCore_same]; exact hwait)

theorem semVal_putCore_sems {i v : Nat} :
    semVal k i (putCore k { getCore k h with sems := Tab.set (getCore k h).sems i v } h) = v := by
  rw [semVal, getCore_putCore_same, Tab.getD, tab_get_set, if_pos rfl, Option.getD_some]

end Cores

section Issue

variable {h : Hub} {k c : Nat} {y : Ctx} {w : Word} {s : State}

@[simp] theorem issuedAs_mem : (issuedAs k c y h).mem = h.mem := count_mem _ _ _ _
@[simp] theorem issuedAs_poison : (issuedAs k c y h).poison = h.poison := count_poison _ _ _ _
@[simp] theorem issuedAs_cur : (issuedAs k c y h).cur = h.cur := count_cur _ _ _ _
@[simp] theorem issuedAs_cloak : (issuedAs k c y h).cloak = h.cloak := count_cloak _ _ _ _
@[simp] theorem issuedAs_boot : (issuedAs k c y h).boot = h.boot := count_boot _ _ _ _
@[simp] theorem issuedAs_twin : (issuedAs k c y h).twin = h.twin := count_twin _ _ _ _
@[simp] theorem issuedAs_cores : (issuedAs k c y h).cores = (putCtx k c y h).cores := count_cores _ _ _ _

@[simp] theorem getCtx_issuedAs : getCtx k c (issuedAs k c y h) = y := (getCtx_count _ _ _).trans getCtx_putCtx_same

theorem getCore_issuedAs : getCore k (issuedAs k c y h) = { getCore k h with ctxs := Tab.set (getCore k h).ctxs c y } :=
  (getCore_count _ _ _).trans getCore_putCtx_same

theorem settled_issuedAs (hsettled : Settled h) : Settled (issuedAs k c y h) := by
  rwa [Settled, issuedAs_cur, issuedAs_cloak]

theorem issuedAs_quiet (hquiet : h.ras.injection = none) : (issuedAs k c y h).ras.injection = none :=
  count_moves uninjected_moves (0x200 + k) 0 1 (putCtx k c y h) (by norm_num) hquiet

/-- A command that goes on issues with its counter advanced. -/
theorem issued_eq : issued k c y h = issuedAs k c { y with pc := y.pc + 1 } h := rfl

theorem issues_iff : issues k c w h = true ↔ fetchWord k c h = .word w ∧ badWord w = false := by
  simp [issues]

theorem canIssue_of_issues (hissues : issues k c w h = true) : canIssue k c h = true := by
  have hfetch := (issues_iff.mp hissues).1
  unfold fetchWord at hfetch
  by_contra hno
  rw [if_pos (by rw [Bool.not_eq_true] at hno; rw [hno, Bool.not_false])] at hfetch
  cases hfetch

/-- R350: what a context that issues is. -/
theorem running_of_issues (hissues : issues k c w h = true) :
    (getCtx k c h).st = .running ∧ (getCtx k c h).ending = none ∧ (getCore k h).st = .inService := by
  have hcan := canIssue_of_issues hissues
  simp only [canIssue, Bool.and_eq_true, beq_iff_eq, Option.isNone_iff_eq_none] at hcan
  obtain ⟨⟨⟨⟨⟨-, hrun⟩, hend⟩, -⟩, hsvc⟩, -⟩ := hcan
  exact ⟨hrun, hend, hsvc⟩

theorem not_badWord (hissues : issues k c w h = true) : badWord w = false := (issues_iff.mp hissues).2

/-- A word that issues has a format. -/
theorem opFormat_of_issues (hissues : issues k c w h = true) : opFormat (wOp w) ≠ none := by
  intro hnone
  have hbad := not_badWord hissues
  simp [badWord, hnone] at hbad

/-- What a row does with its own word, where that issues. -/
theorem issueIf_word {mine : Word → Bool} (act : Word → Ctx → Hub → Hub) (hissues : issues k c w h = true) (hmine : mine w = true) :
    issueIf mine act k c h =
      if (getCtx k c (act w (getCtx k c h) h)).st = .running then act w (getCtx k c h) h else svcSettle (act w (getCtx k c h) h) := by
  unfold issueIf
  rw [(issues_iff.mp hissues).1]
  simp only [if_neg (opFormat_of_issues hissues), hmine, not_badWord hissues, Bool.not_true, Bool.false_eq_true, if_false]

/-- A context that still runs after its command has no end to settle. -/
theorem issueIf_running {mine : Word → Bool} {act : Word → Ctx → Hub → Hub} {h1 : Hub} (hissues : issues k c w h = true)
    (hmine : mine w = true) (hact : act w (getCtx k c h) h = h1) (hrun : (getCtx k c h1).st = .running) :
    issueIf mine act k c h = h1 := by
  rw [issueIf_word act hissues hmine, hact, if_pos hrun]

/-- Where nothing awaits the end of a context, its end settles nothing. -/
theorem issueIf_settled {mine : Word → Bool} {act : Word → Ctx → Hub → Hub} {h1 : Hub} (hissues : issues k c w h = true)
    (hmine : mine w = true) (hact : act w (getCtx k c h) h = h1) (hsettled : Settled h1) :
    issueIf mine act k c h = h1 := by
  rw [issueIf_word act hissues hmine, hact, svcSettle_idle hsettled, ite_self]

/-- A command that leaves its context running as y. -/
theorem issueOp_issued {op : Nat} {act : Word → Ctx → Hub → Hub} (hissues : issues k c w h = true) (hop : wOp w = op)
    (hact : act w (getCtx k c h) h = issuedAs k c y h) (hrun : y.st = .running) : issueOp op act k c h = issuedAs k c y h :=
  issueIf_running hissues (beq_iff_eq.mpr hop) hact (by rw [getCtx_issuedAs]; exact hrun)

@[simp] theorem setSreg_st (r : Nat) (v : Word) (x : Ctx) : (setSreg r v x).st = x.st := by
  unfold setSreg; split <;> rfl

@[simp] theorem setSreg_pc (r : Nat) (v : Word) (x : Ctx) : (setSreg r v x).pc = x.pc := by
  unfold setSreg; split <;> rfl

/-- A scalar command that writes RD goes on with it written. -/
theorem scalarRd_issued {op : Nat} {val : Word → Ctx → Word} {v : Word} (hissues : issues k c w h = true) (hop : wOp w = op)
    (hval : val w (getCtx k c h) = v) :
    scalarRd op val k c h = issuedAs k c { setSreg (sRd w) v (getCtx k c h) with pc := (getCtx k c h).pc + 1 } h := by
  refine issueOp_issued hissues hop ?_ ?_
  · rw [hval, issued_eq, setSreg_pc]
  · exact (setSreg_st _ _ _).trans (running_of_issues hissues).1

end Issue

section Scalars

variable {k : Fin 64} {c : Fin 8} {w : Word} {s : State} {i : Instr}

/-- R347: MOVHI's value is the low half of its word over the low half of its register. -/
theorem movhiVal_eq (x : Ctx) : movhiVal w x = BitVec.ofNat 64 (fld w 31 0 * 2 ^ 32 + fld (sreg x (sRa w)) 31 0) := by
  have hlow : fld w 31 0 < 2 ^ 32 := Nat.mod_lt _ (by norm_num)
  rw [movhiVal, w64, mkFld, Nat.mod_eq_of_lt hlow, Nat.shiftLeft_eq]

/-- The shift amount is the low six bits. -/
theorem fld_low_six (b : Word) : fld b 5 0 = b.toNat % 64 := rfl

/-- A row whose word issues, where its context still runs after it or nothing awaits a context's end. -/
theorem exec_acts {op : Nat} {act : Word → Ctx → Hub → Hub} {h1 : Hub} (hissues : issues k c w s.hub = true)
    (hexec : exec i s = hubRow (issueOp op act k c) s) (hop : wOp w = op) (hact : act w (getCtx k c s.hub) s.hub = h1)
    (hend : (getCtx k c h1).st = .running ∨ Settled h1) : exec i s = .next { s with hub := h1 } :=
  hubRow_next hexec (hend.elim (issueIf_running hissues (beq_iff_eq.mpr hop) hact) (issueIf_settled hissues (beq_iff_eq.mpr hop) hact))

/-- What such a row answers. -/
theorem answers_acts {op : Nat} {act : Word → Ctx → Hub → Hub} {h1 : Hub} {P : Hub → Prop} (hissues : issues k c w s.hub = true)
    (hexec : exec i s = hubRow (issueOp op act k c) s) (hop : wOp w = op) (hact : act w (getCtx k c s.hub) s.hub = h1)
    (hend : (getCtx k c h1).st = .running ∨ Settled h1) (hP : P h1) : HubAnswers i s P :=
  ⟨_, exec_acts hissues hexec hop hact hend, rfl, rfl, hP⟩

/-- A row of a scalar command answers with RD written. -/
theorem exec_scalarRd {op : Nat} {val : Word → Ctx → Word} {v : Word} (hissues : issues k c w s.hub = true)
    (hexec : exec i s = hubRow (scalarRd op val k c) s) (hop : wOp w = op) (hval : val w (getCtx k c s.hub) = v) :
    exec i s = .next { s with
      hub := issuedAs k c { setSreg (sRd w) v (getCtx k c s.hub) with pc := (getCtx k c s.hub).pc + 1 } s.hub } :=
  hubRow_next hexec (scalarRd_issued hissues hop hval)

/-- A row whose command leaves its context running as y. -/
theorem exec_issued {op : Nat} {act : Word → Ctx → Hub → Hub} {y : Ctx} (hissues : issues k c w s.hub = true)
    (hexec : exec i s = hubRow (issueOp op act k c) s) (hop : wOp w = op)
    (hact : act w (getCtx k c s.hub) s.hub = issuedAs k c y s.hub) (hrun : y.st = .running) :
    exec i s = .next { s with hub := issuedAs k c y s.hub } :=
  hubRow_next hexec (issueOp_issued hissues hop hact hrun)

/-- The arithmetic and logic commands. -/
theorem scalars_write (hissues : issues k c w s.hub = true) (op : Nat) (v : Word) :
    let x := getCtx k c s.hub
    let a := sreg x (sRa w)
    let b := sreg x (sRb w)
    (op, v, i) ∈ [(1, a + sImm w, .addi k c), (2, a + b, .add k c), (3, a - b, .sub k c),
        (4, a * b, .mul k c), (5, a &&& b, .and k c), (6, a ||| b, .or k c), (7, a ^^^ b, .xor k c), (8, a <<< (b.toNat % 64), .shl k c),
        (9, a >>> (b.toNat % 64), .shr k c), (10, BitVec.ofNat 64 (fld w 31 0 * 2 ^ 32 + fld a 31 0), .movhi k c)] → wOp w = op →
      exec i s = .next { s with hub := issuedAs k c { setSreg (sRd w) v x with pc := x.pc + 1 } s.hub } := by
  intro x a b hmem hop
  simp only [List.mem_cons, Prod.mk.injEq, List.not_mem_nil, or_false] at hmem
  obtain ⟨rfl, rfl, rfl⟩ | ⟨rfl, rfl, rfl⟩ | ⟨rfl, rfl, rfl⟩ | ⟨rfl, rfl, rfl⟩ | ⟨rfl, rfl, rfl⟩ | ⟨rfl, rfl, rfl⟩ | ⟨rfl, rfl, rfl⟩ |
    ⟨rfl, rfl, rfl⟩ | ⟨rfl, rfl, rfl⟩ | ⟨rfl, rfl, rfl⟩ := hmem
  case inr.inr.inr.inr.inr.inr.inr.inr.inr => exact exec_scalarRd hissues rfl hop (movhiVal_eq x)
  all_goals exact exec_scalarRd hissues rfl hop rfl

/-- CSR. -/
theorem csr_reads (hissues : issues k c w s.hub = true) (j : Nat) (v : Word) :
    let x := getCtx k c s.hub
    (j, v) ∈ [(0, BitVec.ofNat 64 s.hub.devTime), (1, BitVec.ofNat 64 (coreUnit k s.hub)), (2, BitVec.ofNat 64 c),
        (3, BitVec.ofNat 64 (moduleId s.hub)), (4, x.src), (5, BitVec.ofNat 64 x.starter), (6, x.seed)] → wOp w = 13 → (sImm w).toNat = j →
      exec (.csr k c) s = .next { s with hub := issuedAs k c { setSreg (sRd w) v x with pc := x.pc + 1 } s.hub } := by
  intro x hmem hop hj
  have hitem : csrItem k c x (sImm w).toNat s.hub = some v := by
    rw [hj]
    simp only [List.mem_cons, Prod.mk.injEq, List.not_mem_nil, or_false] at hmem
    obtain ⟨rfl, rfl⟩ | ⟨rfl, rfl⟩ | ⟨rfl, rfl⟩ | ⟨rfl, rfl⟩ | ⟨rfl, rfl⟩ | ⟨rfl, rfl⟩ | ⟨rfl, rfl⟩ := hmem <;> rfl
  refine exec_issued hissues rfl hop ?_ ((setSreg_st _ _ _).trans (running_of_issues hissues).1)
  simp only [x] at hitem
  simp only [hitem, issued_eq, setSreg_pc, x]

/-- R347: an address that LD and ST take. -/
theorem ldstOk_of {a : Word} (halign : a.toNat % 8 = 0) (hfits : a.toNat + 8 ≤ 0x180000) : ldstOk a = true := by
  rw [ldstOk, spFits, halign, decide_eq_true hfits]
  rfl

theorem meetSpInjection_of_quiet {h : Hub} (hquiet : h.ras.injection = none) (off n : Nat) : meetSpInjection off n h = h := by
  rw [meetSpInjection, hquiet]

/-- LD. -/
theorem ld_reads (hissues : issues k c w s.hub = true) (hquiet : s.hub.ras.injection = none) :
    let x := getCtx k c s.hub
    ∀ p : Nat, p = (sreg x (sRa w) + sImm w).toNat → p % 8 = 0 → p + 8 ≤ 0x180000 → wOp w = 11 →
      anyPoison (scratchAddr k p) 8 s.hub = false →
      exec (.ld k c) s = .next { s with hub := issuedAs k c { setSreg (sRd w)
        (BitVec.ofNat 64 (ofBytesLE (memGetN s.hub.mem (scratchAddr k p) 8))) x with pc := x.pc + 1 } s.hub } := by
  rintro x p rfl halign hfits hop hclean
  refine exec_issued hissues rfl hop ?_ ((setSreg_st _ _ _).trans (running_of_issues hissues).1)
  have hpoison : spPoison k (sreg x (sRa w) + sImm w).toNat 8 s.hub = false := hclean
  simp only [x] at halign hfits hpoison
  simp only [ldstOk_of halign hfits, meetSpInjection_of_quiet hquiet, hpoison, Bool.not_true, Bool.false_eq_true, if_false, issued_eq,
    setSreg_pc, x]
  rfl

/-- What a write to the scratchpad stores where no injection is pending. -/
theorem spStore_mem {h : Hub} (hquiet : h.ras.injection = none) (a : Nat) (bs : List Byte) (hbs : bs ≠ []) (p : Bool) :
    (spStore a bs p h).mem = memPutN h.mem a bs := by
  have hlen : bs.length ≠ 0 := by simpa using hbs
  simp only [spStore, meetSpInjection_of_quiet hquiet, if_neg hlen]
  split <;> rfl

theorem spStore_cores {h : Hub} (hquiet : h.ras.injection = none) (a : Nat) (bs : List Byte) (p : Bool) :
    (spStore a bs p h).cores = h.cores := by
  simp only [spStore, meetSpInjection_of_quiet hquiet]
  split
  · rfl
  · split <;> rfl

theorem bytesLE_length (n v : Nat) : (bytesLE n v).length = n := by
  induction n generalizing v with
  | zero => rfl
  | succ n ih => simp [bytesLE, ih]

/-- ST. -/
theorem st_stores (hissues : issues k c w s.hub = true) (hquiet : s.hub.ras.injection = none) :
    let x := getCtx k c s.hub
    ∀ p : Nat, p = (sreg x (sRa w) + sImm w).toNat → p % 8 = 0 → p + 8 ≤ 0x180000 → wOp w = 12 →
      HubAnswers (.st k c) s (fun h =>
        storesAt (scratchAddr k p) (bytesLE 8 (sreg x (sRb w)).toNat) s.hub h ∧ getCtx k c h = { x with pc := x.pc + 1 }) := by
  rintro x p rfl halign hfits hop
  generalize hbs : bytesLE 8 (sreg x (sRb w)).toNat = bs
  have hne : bs ≠ [] := List.ne_nil_of_length_eq_add_one (hbs ▸ bytesLE_length 8 _)
  generalize hat : scratchAddr k (sreg x (sRa w) + sImm w).toNat = at_
  refine answers_acts (h1 := issuedAs k c { x with pc := x.pc + 1 } (spStore at_ bs false s.hub)) hissues rfl hop ?_
    (.inl (by rw [getCtx_issuedAs]; exact (running_of_issues hissues).1))
    ⟨storesAt_of_put (issuedAs_mem.trans (spStore_mem hquiet _ _ hne _)), getCtx_issuedAs⟩
  simp only [x] at halign hfits hbs hat
  simp only [ldstOk_of halign hfits, Bool.not_true, Bool.false_eq_true, if_false, spWrite, hbs, hat]
  rfl

end Scalars

section Branches

variable {k : Fin 64} {c : Fin 8} {w : Word} {s : State} {i : Instr}

/-- A branch whose condition holds goes to its target; another goes on. -/
theorem exec_branch {op : Nat} {cond : Word → Word → Bool} {taken : Prop} (hissues : issues k c w s.hub = true)
    (hexec : exec i s = hubRow (branchOn op cond k c) s) (hop : wOp w = op)
    (hcond : cond (sreg (getCtx k c s.hub) (bRa w)) (sreg (getCtx k c s.hub) (bRb w)) = true ↔ taken) :
    (taken → exec i s = .next { s with hub := issuedAs k c { getCtx k c s.hub with pc := bTarget w } s.hub }) ∧
    (¬taken → exec i s = .next { s with hub := issuedAs k c { getCtx k c s.hub with pc := (getCtx k c s.hub).pc + 1 } s.hub }) := by
  have hrun := (running_of_issues hissues).1
  constructor <;> intro htaken
  · exact exec_issued hissues hexec hop (if_pos (hcond.mpr htaken)) hrun
  · exact exec_issued hissues hexec hop (if_neg (mt hcond.mp htaken)) hrun

/-- The branches. -/
theorem branches_go (hissues : issues k c w s.hub = true) (op : Nat) (taken : Prop) :
    let x := getCtx k c s.hub
    let p := sreg x (bRa w)
    let q := sreg x (bRb w)
    (op, taken, i) ∈ [(0x10, p = q, .beq k c), (0x11, p ≠ q, .bne k c), (0x12, p.toInt < q.toInt, .blt k c), (0x13, p.toNat < q.toNat, .bltu k c),
        (0x14, True, .jmp k c)] → wOp w = op →
      (taken → exec i s = .next { s with hub := issuedAs k c { x with pc := bTarget w } s.hub }) ∧
      (¬taken → exec i s = .next { s with hub := issuedAs k c { x with pc := x.pc + 1 } s.hub }) := by
  intro x p q hmem hop
  simp only [List.mem_cons, Prod.mk.injEq, List.not_mem_nil, or_false] at hmem
  obtain ⟨rfl, rfl, rfl⟩ | ⟨rfl, rfl, rfl⟩ | ⟨rfl, rfl, rfl⟩ | ⟨rfl, rfl, rfl⟩ | ⟨rfl, rfl, rfl⟩ := hmem
  · exact exec_branch hissues rfl hop beq_iff_eq
  · exact exec_branch hissues rfl hop bne_iff_ne
  · exact exec_branch hissues rfl hop BitVec.slt_iff_toInt_lt
  · exact exec_branch hissues rfl hop BitVec.ult_iff_toNat_lt
  · exact exec_branch hissues rfl hop (iff_of_true rfl trivial)

/-- LOOP. -/
theorem loop_goes (hissues : issues k c w s.hub = true) (hop : wOp w = 0x15) :
    let x := getCtx k c s.hub
    let y := setSreg (bRa w) (sreg x (bRa w) - 1) x
    (sreg y (bRa w) ≠ 0 → exec (.loop k c) s = .next { s with hub := issuedAs k c { y with pc := bTarget w } s.hub }) ∧
    (sreg y (bRa w) = 0 → exec (.loop k c) s = .next { s with hub := issuedAs k c { y with pc := x.pc + 1 } s.hub }) := by
  intro x y
  have hrun : y.st = .running := (setSreg_st _ _ _).trans (running_of_issues hissues).1
  constructor <;> intro hleft
  · exact exec_issued hissues rfl hop (if_pos hleft) hrun
  · refine exec_issued hissues rfl hop ((if_neg (not_not.mpr hleft)).trans ?_) hrun
    rw [issued_eq, setSreg_pc]

end Branches

section Ordering

variable {k : Fin 64} {c : Fin 8} {w : Word} {s : State}

/-- R374: whether a threshold is reached, by how the semaphore compares with it. Stated of a name for `semReached`: at the
definition itself the kernel would compute the comparison of unknown 32-bit values. -/
theorem semReached_of_cmp {reached : Nat → Nat → Option Bool} (hdef : reached = semReached) {v thr : Nat} {o : SerialOrder}
    (hcmp : serialCmp thr v 32 = o) : reached v thr = if o = .unordered then none else some (o != .before) := by
  delta semReached at hdef
  subst hdef
  beta_reduce
  rw [hcmp]
  cases o <;> rfl

/-- R51: b is after a, or equal to it, by less than half the range; it is before a by more than half. -/
theorem serialCmp_past {a b n : Nat} (ha : a < 2 ^ n) (hb : b < 2 ^ n) :
    ((b + 2 ^ n - a) % 2 ^ n < 2 ^ (n - 1) → serialCmp a b n ≠ .unordered ∧ serialCmp a b n ≠ .before) ∧
    (2 ^ (n - 1) < (b + 2 ^ n - a) % 2 ^ n → serialCmp a b n = .before) := by
  unfold serialCmp
  rw [Nat.mod_eq_of_lt ha, Nat.mod_eq_of_lt hb]
  generalize (b + 2 ^ n - a) % 2 ^ n = past
  generalize 2 ^ (n - 1) = half
  refine ⟨fun hlt => ?_, fun hgt => ?_⟩
  · dsimp only
    by_cases hzero : past = 0
    · simp [hzero]
    · simp [hzero, hlt.ne, hlt]
  · have hzero : past ≠ 0 := by omega
    simp [hzero, hgt.ne', hgt.not_gt]

/-- R374: how far past its threshold a semaphore is says whether it is reached. -/
theorem semReached_past {v thr : Nat} (hv : v < 2 ^ 32) (hthr : thr < 2 ^ 32) :
    ((v + 2 ^ 32 - thr) % 2 ^ 32 < 2 ^ 31 → semReached v thr = some true) ∧
    (2 ^ 31 < (v + 2 ^ 32 - thr) % 2 ^ 32 → semReached v thr = some false) := by
  obtain ⟨hafter, hbefore⟩ := serialCmp_past hthr hv
  refine ⟨fun hlt => ?_, fun hgt => ?_⟩
  · obtain ⟨hord, hnot⟩ := hafter hlt
    rw [semReached_of_cmp rfl rfl, if_neg hord, bne_iff_ne.mpr hnot]
  · rw [semReached_of_cmp rfl (hbefore hgt)]
    rfl

/-- WAIT. -/
theorem wait_waits (hissues : issues k c w s.hub = true) (hop : wOp w = 0x40) :
    let x := getCtx k c s.hub
    let thr := ((sreg x (oRa w)).toNat + oImm w) % 2 ^ 32
    let past := (semVal k (oSem w) s.hub + 2 ^ 32 - thr) % 2 ^ 32
    semVal k (oSem w) s.hub < 2 ^ 32 →
    (past < 2 ^ 31 → exec (.wait k c) s = .next { s with hub := issuedAs k c { x with pc := x.pc + 1 } s.hub }) ∧
    (2 ^ 31 < past → Settled s.hub → exec (.wait k c) s = .next (onHub (issuedAs k c
      { x with pc := x.pc + 1, st := .waiting, wait := some (oSem w, thr) }) s)) := by
  intro x thr past hval
  have hreach := semReached_past hval (Nat.mod_lt _ (by norm_num) : thr < 2 ^ 32)
  constructor
  · intro hpast
    refine exec_issued hissues rfl hop ?_ (running_of_issues hissues).1
    have hmet := hreach.1 hpast
    simp only [x] at hmet
    simp only [hmet, issued_eq]
    rfl
  · intro hpast hsettled
    have hmet := hreach.2 hpast
    simp only [x] at hmet
    refine exec_acts hissues rfl hop ?_ (.inr (settled_issuedAs hsettled))
    simp only [hmet, issued_eq]
    rfl

/-- SIGNAL that a command of its engines holds. -/
theorem signal_held (hissues : issues k c w s.hub = true) (hop : wOp w = 0x41) :
    let x := getCtx k c s.hub
    cmdsOn k c (oMask w) s.hub ≠ [] → x.signals.length < 8 →
      exec (.signal k c) s = .next (onHub (issuedAs k c { x with
        pc := x.pc + 1, signals := x.signals ++ [⟨oSem w, oCore w, oImm w, cmdsOn k c (oMask w) s.hub, x.marks⟩] }) s) := by
  intro x hcmds hroom
  refine exec_issued hissues rfl hop ?_ (running_of_issues hissues).1
  refine (if_neg fun hnone => hcmds hnone.1).trans ((if_neg (by simp only [x] at hroom; omega)).trans ?_)
  rfl

/-- R373: an increment that no bridge carries reaches the semaphore, where no context of its core waits. -/
theorem applySignal_adds {k target t sem imm : Nat} {h : Hub} (ht : t = if target = 0xFF then k else target)
    (halone : pairJoined h = false) (hserves : coreServes t h = true) (hwait : ∀ e ∈ (getCore t h).ctxs, e.2.st ≠ .waiting) :
    applySignal k target sem imm h =
      putCore t { getCore t h with sems := Tab.set (getCore t h).sems sem ((semVal t sem h + imm) % 2 ^ 32) } h := by
  have htarget : (if target = 0xFF then k else if pairJoined h then target - 64 * h.twin.role else target) = t := by
    rw [halone, ht]; rfl
  unfold applySignal
  rw [htarget, if_neg (by simp [halone]), if_pos hserves, setSem_idle hwait]

theorem coreServes_of {a b : Hub} {t : Nat} (hboot : b.boot = a.boot) (hst : (getCore t b).st = (getCore t a).st) :
    coreServes t b = coreServes t a := by rw [coreServes, coreServes, hboot, hst]

theorem getCore_putCtx_other {k t c : Nat} {x : Ctx} {h : Hub} (hkt : k ≠ t) : getCore t (putCtx k c x h) = getCore t h :=
  getCore_putCore.trans (if_neg hkt)

/-- A context that does not wait, set on some core, leaves no waiting context where none was. -/
theorem no_wait_putCtx {k t c : Nat} {x : Ctx} {h : Hub} (hx : x.st ≠ .waiting) (hwait : ∀ e ∈ (getCore t h).ctxs, e.2.st ≠ .waiting) :
    ∀ e ∈ (getCore t (putCtx k c x h)).ctxs, e.2.st ≠ .waiting := by
  by_cases hkt : k = t
  · subst hkt
    rw [getCore_putCtx_same]
    intro e he
    rcases mem_tab_set he with rfl | he
    · exact hx
    · exact hwait e he
  · rw [getCore_putCtx_other hkt]
    exact hwait

theorem getCore_putCtx_st {k t c : Nat} {x : Ctx} {h : Hub} : (getCore t (putCtx k c x h)).st = (getCore t h).st := by
  by_cases hkt : k = t
  · subst hkt; rw [getCore_putCtx_same]
  · rw [getCore_putCtx_other hkt]

theorem semVal_putCtx {k t c i : Nat} {x : Ctx} {h : Hub} : semVal t i (putCtx k c x h) = semVal t i h := by
  by_cases hkt : k = t
  · subst hkt; rw [semVal, getCore_putCtx_same, semVal]
  · rw [semVal, getCore_putCtx_other hkt, semVal]

/-- SIGNAL that nothing holds. -/
theorem signal_adds (hissues : issues k c w s.hub = true) (hop : wOp w = 0x41) :
    let x := getCtx k c s.hub
    let t := if oCore w = 0xFF then k.val else oCore w
    pairJoined s.hub = false → cmdsOn k c (oMask w) s.hub = [] → x.signals = [] → x.marks = [] → coreServes t s.hub = true →
      (∀ e ∈ (getCore t s.hub).ctxs, e.2.st ≠ .waiting) →
      HubAnswers (.signal k c) s (fun h => semVal t (oSem w) h = (semVal t (oSem w) s.hub + oImm w) % 2 ^ 32 ∧
        getCtx k c h = { x with pc := x.pc + 1 } ∧ SameMemory s.hub h) := by
  intro x t halone hcmds hsignals hmarks hserves hwait
  generalize hy : ({ x with pc := x.pc + 1 } : Ctx) = y
  have hrun : y.st = .running := hy ▸ (running_of_issues hissues).1
  have hissued : issued k c x s.hub = issuedAs k c y s.hub := by rw [issued_eq, hy]
  have hcore : getCore t (issuedAs k c y s.hub) = getCore t (putCtx k c y s.hub) := getCore_of_cores issuedAs_cores t
  have hsem : semVal t (oSem w) (issuedAs k c y s.hub) = semVal t (oSem w) s.hub :=
    (semVal_of_cores issuedAs_cores _ _).trans semVal_putCtx
  have happly := applySignal_adds (k := k) (target := oCore w) (sem := oSem w) (imm := oImm w) (h := issuedAs k c y s.hub) (t := t) rfl
    (by rw [pairJoined, issuedAs_twin]; exact halone)
    ((coreServes_of issuedAs_boot (by rw [hcore, getCore_putCtx_st])).trans hserves)
    (by rw [hcore]; exact no_wait_putCtx (by rw [hrun]; exact CtxState.noConfusion) hwait)
  have hctx : getCtx k c (applySignal k (oCore w) (oSem w) (oImm w) (issuedAs k c y s.hub)) = y := by
    rw [happly]
    refine (getCtx_putCore ?_).trans getCtx_issuedAs
    rfl
  have hmarked : x.marks.all (fun m => m.cmds.all (fun n => !unfinished (getCore k s.hub) n)) = true := by rw [hmarks, List.all_nil]
  refine answers_acts hissues rfl hop ((if_pos ⟨hcmds, hsignals, hmarked⟩).trans (congrArg _ hissued))
    (.inl (by rw [hctx]; exact hrun)) ⟨?_, hctx, ?_⟩
  · rw [happly, semVal_putCore_sems, hsem]
  · rw [happly]
    exact ⟨issuedAs_mem, issuedAs_poison⟩

/-- R378: an ACQUIRE changes no context. -/
theorem getCtx_acquireDrops {k j d scope mask : Nat} {h : Hub} : getCtx j d (acquireDrops k scope mask h) = getCtx j d h := by
  refine getCtx_putCore ?_
  split <;> split <;> split <;> rfl

/-- R378: what an ACQUIRE leaves of the retained operand and of each line buffer. -/
theorem getCore_acquireDrops {k scope mask : Nat} {h : Hub} :
    (getCore k (acquireDrops k scope mask h)).retained = (if mask.testBit 0 then none else (getCore k h).retained) ∧
    (scope = 2 → mask.testBit 2 = true → (getCore k (acquireDrops k scope mask h)).buf0 = []) ∧
    (scope = 2 → mask.testBit 3 = true → (getCore k (acquireDrops k scope mask h)).buf1 = []) := by
  unfold acquireDrops
  rw [getCore_putCore_same]
  refine ⟨?_, ?_, ?_⟩
  · split <;> split <;> split <;> rfl
  · rintro rfl hbit
    simp only [hbit, if_true]
    split <;> simp
  · rintro rfl hbit
    simp [hbit]

/-- ACQUIRE. -/
theorem acquire_drops (hissues : issues k c w s.hub = true) (hop : wOp w = 0x42) (hscope : oScope w ≠ 3) :
    let x := getCtx k c s.hub
    HubAnswers (.acquire k c) s (fun h => getCtx k c h = { x with pc := x.pc + 1 } ∧ SameMemory s.hub h ∧
      (getCore k h).retained = (if (oMask w).testBit 0 then none else (getCore k s.hub).retained) ∧
      (oScope w = 2 → (oMask w).testBit 2 = true → (getCore k h).buf0 = []) ∧
      (oScope w = 2 → (oMask w).testBit 3 = true → (getCore k h).buf1 = [])) := by
  intro x
  obtain ⟨hretained, hbuf0, hbuf1⟩ := getCore_acquireDrops (k := k) (scope := oScope w) (mask := oMask w)
    (h := issued k c x s.hub)
  have hctx : getCtx k c (acquireDrops k (oScope w) (oMask w) (issued k c x s.hub)) = { x with pc := x.pc + 1 } :=
    getCtx_acquireDrops.trans getCtx_issuedAs
  refine answers_acts hissues rfl hop (if_neg hscope) (.inl ?_) ⟨hctx, ⟨issuedAs_mem, issuedAs_poison⟩, ?_, hbuf0, hbuf1⟩
  · rw [hctx]
    exact (running_of_issues hissues).1
  · rw [hretained, issued_eq, getCore_issuedAs]

/-- RELEASE. -/
theorem release_marks (hissues : issues k c w s.hub = true) (hop : wOp w = 0x43) (hscope : oScope w ≠ 3) :
    let x := getCtx k c s.hub
    exec (.release k c) s = .next (onHub (issuedAs k c { x with
      pc := x.pc + 1
      marks := x.marks.filter (fun m => m.cmds.any (unfinished (getCore k s.hub))) ++ [⟨oScope w, cmdsOn k c (oMask w) s.hub⟩] }) s) :=
  exec_issued hissues rfl hop (if_neg hscope) (running_of_issues hissues).1

/-- R353: a context that halts with nothing left ends Ready, with its exit code and its event. -/
theorem settleCtx_halts {k c e : Nat} {x : Ctx} {h : Hub} (hcmds : allCmds (getCore k h) = [])
    (hctx : getCtx k c h = x) (hending : x.ending = some (.halt e)) (hsignals : x.signals = []) :
    settleCtx k c h = raiseEvent (corePage k) c
      (putCtx k c { x with st := .ready, exit := e, ending := none, fence := [], marks := [] } h) := by
  unfold settleCtx
  simp only [hcmds, hctx, hending, hsignals]
  rfl

theorem pageInfo_core : ∀ k : Fin 64, pageInfo (0x200 + k.val) = some ⟨.core, k, 0, 23⟩ := by decide

/-- HALT. -/
theorem halt_ends (hissues : issues k c w s.hub = true) (hop : wOp w = 0x60) (hcmds : allCmds (getCore k s.hub) = [])
    (hsettled : Settled s.hub) :
    let x := getCtx k c s.hub
    x.signals = [] → HubAnswers (.halt k c) s (fun h =>
      getCtx k c h = { x with st := .ready, exit := fld w 15 0, ending := none, fence := [], marks := [] } ∧
      regBit (0x200 + k.val) 0xE0 c h = true ∧ SameMemory s.hub h) := by
  intro x hsignals
  let z : Ctx := { x with ending := some (.halt (fld w 15 0)) }
  let y : Ctx := { x with st := .ready, exit := fld w 15 0, ending := none, fence := [], marks := [] }
  have hcmds1 : allCmds (getCore k (issuedAs k c z s.hub)) = [] := by rw [getCore_issuedAs]; exact hcmds
  have hsettle : settleCtx k c (issuedAs k c z s.hub) = raiseEvent (corePage k) c (putCtx k c y (issuedAs k c z s.hub)) :=
    settleCtx_halts (x := z) hcmds1 getCtx_issuedAs rfl hsignals
  have hkept : Settled (raiseEvent (corePage k) c (putCtx k c y (issuedAs k c z s.hub))) := by
    rw [Settled, raiseEvent_cur, raiseEvent_cloak]
    exact settled_issuedAs hsettled
  refine answers_acts hissues rfl hop hsettle (.inr hkept) ⟨?_, ?_, ?_, ?_⟩
  · exact (getCtx_of_cores (raiseEvent_cores _ _ _) k c).trans getCtx_putCtx_same
  · exact raiseEvent_sets (pageInfo_core k) rfl (by unfold plainReg; omega) (by omega) _
  · exact (raiseEvent_mem _ _ _).trans issuedAs_mem
  · exact (raiseEvent_poison _ _ _).trans issuedAs_poison

end Ordering

/-- Settles O33: each command by its own lemma, over what its row does where its word issues. -/
theorem patternCommandsAct : Obligations.PatternCommandsAct := by
  intro k c w s hissues x core a b on
  have hrun := (running_of_issues hissues).1
  refine ⟨?_, fun op v i => scalars_write hissues op v, ?_, csr_reads hissues, ?_, loop_goes hissues, wait_waits hissues, ?_,
    acquire_drops hissues, release_marks hissues, ?_, ?_⟩
  · exact fun hop => exec_issued hissues rfl hop rfl hrun
  · intro p hp halign hfits hquiet
    exact ⟨ld_reads hissues hquiet p hp halign hfits, st_stores hissues hquiet p hp halign hfits⟩
  · exact fun op taken i => branches_go hissues op taken
  · exact fun hop => ⟨signal_adds hissues hop, signal_held hissues hop⟩
  · exact fun hop => exec_issued hissues rfl hop rfl hrun
  · exact fun hop hcmds hsignals hsettled => halt_ends hissues hop hcmds hsettled hsignals

end Sys2Proof.Proofs

/-!
PROOFS. The engine commands of a pattern (R328, R335 to R344): what a command that enters its engine's queue leaves, what the
matrix and vector engines write when they start one that breaks no rule, and how the rows of MMA, VOP and DMA answer.
-/
namespace Sys2Proof.Proofs

open Machine Safety Laws

section Queues

variable {k j c d : Nat} {q : EngineId} {e : EngCmd} {h h1 : Hub} {core : Core} {l : List EngCmd}

@[simp] theorem queueOf_setQueue : queueOf q (setQueue q l core) = l := by cases q <;> rfl

@[simp] theorem setQueue_ctxs : (setQueue q l core).ctxs = core.ctxs := by cases q <;> rfl

/-- R328: a command numbered and put at the end of its engine's queue. -/
def enqueued (k : Nat) (q : EngineId) (e : EngCmd) (h : Hub) : Hub :=
  putCore k { setQueue q (queueOf q (getCore k h) ++ [{ e with n := (getCore k h).nextCmd }]) (getCore k h) with
    nextCmd := (getCore k h).nextCmd + 1 } h

theorem queueCmd_eq : queueCmd k q e h = if q = .matrix ∨ q = .vector then runEngine k q 10 (enqueued k q e h) else enqueued k q e h := rfl

theorem getCtx_enqueued : getCtx j d (enqueued k q e h) = getCtx j d h := getCtx_putCore (setQueue_ctxs (core := getCore k h))

theorem queueOf_enqueued :
    queueOf q (getCore k (enqueued k q e h)) = queueOf q (getCore k h) ++ [{ e with n := (getCore k h).nextCmd }] := by
  rw [enqueued, getCore_putCore_same]
  cases q <;> rfl

theorem retained_enqueued : (getCore k (enqueued k q e h)).retained = (getCore k h).retained := by
  rw [enqueued, getCore_putCore_same]
  cases q <;> rfl

theorem getCtx_putCmd : getCtx j d (putCmd k q e h) = getCtx j d h := getCtx_putCore setQueue_ctxs

/-- The one command of a queue, started. -/
theorem queueOf_putCmd_started (hq : queueOf q (getCore k h) = [e]) :
    queueOf q (getCore k (putCmd k q { e with started := true } h)) = [{ e with started := true }] := by
  rw [putCmd, getCore_putCore_same, queueOf_setQueue, hq, List.map_singleton, if_pos rfl]

theorem retained_putCmd : (getCore k (putCmd k q e h)).retained = (getCore k h).retained := by
  rw [putCmd, getCore_putCore_same]
  cases q <;> rfl

/-- R367, R368: an idle engine starts the command at its head. -/
theorem runEngine_matrix {n : Nat} (hq : queueOf .matrix (getCore k h) = [e]) (hnew : e.started = false) (hrun : matRun k e h = .ok h1) :
    runEngine k .matrix (n + 1) h = putCmd k .matrix { e with started := true } h1 := by
  simp only [runEngine, hq, hnew, hrun, Bool.false_eq_true, if_false]

theorem runEngine_vector {n : Nat} (hq : queueOf .vector (getCore k h) = [e]) (hnew : e.started = false) (hrun : vecRun k e h = .ok h1) :
    runEngine k .vector (n + 1) h = putCmd k .vector { e with started := true } h1 := by
  simp only [runEngine, hq, hnew, hrun, Bool.false_eq_true, if_false]

/-- A command that enters an idle matrix engine runs at once. -/
theorem queueCmd_matrix (hidle : (getCore k h).mq = []) (hnew : e.started = false)
    (hrun : matRun k { e with n := (getCore k h).nextCmd } (enqueued k .matrix e h) = .ok h1) :
    queueCmd k .matrix e h = putCmd k .matrix { e with n := (getCore k h).nextCmd, started := true } h1 := by
  rw [queueCmd_eq, if_pos (.inl rfl)]
  have hhead : queueOf .matrix (getCore k (enqueued k .matrix e h)) = [{ e with n := (getCore k h).nextCmd }] := by
    rw [queueOf_enqueued, show queueOf .matrix (getCore k h) = [] from hidle, List.nil_append]
  exact runEngine_matrix hhead hnew hrun

/-- A command that enters an idle vector engine runs at once. -/
theorem queueCmd_vector (hidle : (getCore k h).vq = []) (hnew : e.started = false)
    (hrun : vecRun k { e with n := (getCore k h).nextCmd } (enqueued k .vector e h) = .ok h1) :
    queueCmd k .vector e h = putCmd k .vector { e with n := (getCore k h).nextCmd, started := true } h1 := by
  rw [queueCmd_eq, if_pos (.inr rfl)]
  have hhead : queueOf .vector (getCore k (enqueued k .vector e h)) = [{ e with n := (getCore k h).nextCmd }] := by
    rw [queueOf_enqueued, show queueOf .vector (getCore k h) = [] from hidle, List.nil_append]
  exact runEngine_vector hhead hnew hrun

end Queues

section Scratchpad

variable {k : Nat} {h : Hub}

theorem meetSpReads_of_quiet (hquiet : h.ras.injection = none) (l : List (Nat × Nat)) : meetSpReads k l h = h := by
  rw [meetSpReads, hquiet]
  rfl

/-- With nothing poisoned, nothing read is. -/
theorem spPoison_of_clean (hclean : h.poison = []) (off n : Nat) : spPoison k off n h = false := by
  rw [spPoison, anyPoison, hclean, List.any_eq_false]
  exact fun _ _ => Bool.false_ne_true

theorem spStore_quiet (hquiet : h.ras.injection = none) (a : Nat) (bs : List Byte) (p : Bool) :
    (spStore a bs p h).ras.injection = none := by
  simp only [spStore, meetSpInjection_of_quiet hquiet]
  split
  · exact hquiet
  · split <;> exact hquiet

theorem spFits_of {off n : Nat} (hfits : off + n ≤ 0x180000) : spFits off n = true := decide_eq_true hfits

/-- The rows of C written one after another. -/
theorem spWrites_rows (off : Nat → Nat) (row : Nat → List Byte) :
    ∀ (l : List Nat) (h : Hub), (∀ i ∈ l, row i ≠ []) → h.ras.injection = none →
      let h1 := l.foldl (fun x i => spWrite k (off i) (row i) x) h
      h1.mem = l.foldl (fun m i => memPutN m (scratchAddr k (off i)) (row i)) h.mem ∧ h1.cores = h.cores
  | [], _, _, _ => ⟨rfl, rfl⟩
  | i :: l, h, hrow, hquiet => by
    obtain ⟨hmem, hcores⟩ := spWrites_rows off row l (spWrite k (off i) (row i) h) (fun j hj => hrow j (List.mem_cons_of_mem _ hj))
      (spStore_quiet hquiet _ _ _)
    rw [List.foldl_cons, List.foldl_cons]
    refine ⟨?_, hcores.trans (spStore_cores hquiet _ _ _)⟩
    rw [hmem, spWrite, spStore_mem hquiet _ _ (hrow i List.mem_cons_self)]

/-- R331: what writing C stores. -/
theorem writeC_writes {d : MatDesc} {rows : List (List Byte)} (hrow : ∀ i < d.m, nth rows i [] ≠ []) (hquiet : h.ras.injection = none) :
    (writeC k d rows h).mem =
      (List.range d.m).foldl (fun m i => memPutN m (scratchAddr k (d.cOff + i * d.cStride)) (nth rows i [])) h.mem ∧
    (writeC k d rows h).cores = h.cores := by
  have hrows := spWrites_rows (k := k) (fun i => d.cOff + i * d.cStride) (fun i => nth rows i []) (List.range d.m) h
    (fun i hi => hrow i (List.mem_range.mp hi)) hquiet
  rw [writeC]
  split
  · exact hrows
  · exact hrows

end Scratchpad

section Matrix

variable {k : Nat} {e : EngCmd} {d : MatDesc} {h : Hub}

theorem matBad_sizes {bs : List Byte} (hok : matBad bs d = none) : d.n ≠ 0 := by
  intro hzero
  unfold matBad at hok
  split at hok
  · cases hok
  · rw [if_pos (by simp [hzero])] at hok
    cases hok

/-- Each row of C has bytes. -/
theorem matRows_nonempty {as bs sas sbs cs : List (List Byte)} (hn : d.n ≠ 0) {i : Nat} (hi : i < d.m) :
    nth (matRows d as bs sas sbs cs).1 i [] ≠ [] := by
  obtain ⟨n, hn⟩ := Nat.exists_eq_succ_of_ne_zero hn
  simp only [matRows, nth, List.getD_eq_getElem?_getD, List.getElem?_map, List.getElem?_range hi, Option.map_some, Option.getD_some]
  rw [hn, List.range_succ_eq_map]
  simp [bytesLE]

/-- R335: the descriptor of a command, in a hub. -/
def descOf (k : Nat) (e : EngCmd) (h : Hub) : MatDesc := parseMat (spBytes k e.ra.toNat 32 h)

/-- R337: what a command computes where no retained operand serves it: the rows of C, and the saturations. -/
def matResult (k : Nat) (d : MatDesc) (h : Hub) : List (List Byte) × Nat :=
  matRows d (readRows k d.aOff d.aStride (aRow d) d.m h) (readRows k d.bOff d.bStride (bRow d) d.n h)
    (if d.aScaled then readRows k d.saOff (scaleStride d.aFmt d.aStride) (d.k / 32) d.m h else [])
    (if d.bScaled then readRows k d.sbOff (scaleStride d.bFmt d.bStride) (d.k / 32) d.n h else [])
    (readRows k d.cOff d.cStride (4 * d.n) d.m h)

/-- R337, R371: an MMA whose descriptor breaks no rule, with nothing poisoned and nothing retained, writes C and retains B
where it fits. -/
theorem matRun_writes (hquiet : h.ras.injection = none) (hclean : h.poison = []) (hnone : (getCore k h).retained = none)
    (hfits : e.ra.toNat + 32 ≤ 0x180000) (hd : descOf k e h = d) (hbad : matBad (spBytes k e.ra.toNat 32 h) d = none)
    (hrange : matRange d = none) (hoverlap : matOverlap d = false) :
    ∃ h1, matRun k e h = .ok h1 ∧
      h1.mem = (List.range d.m).foldl (fun m i =>
        memPutN m (scratchAddr k (d.cOff + i * d.cStride)) (nth (matResult k d h).1 i [])) h.mem ∧
      (∀ j c, getCtx j c h1 = getCtx j c h) ∧ (getCore k h1).mq = (getCore k h).mq ∧
      ((getCore k h1).retained.isSome ↔ retainBytes d ≤ 655360) := by
  obtain ⟨hmem, hcores⟩ := writeC_writes (k := k) (rows := (matResult k d h).1)
    (fun i hi => matRows_nonempty (matBad_sizes hbad) hi) hquiet
  have hreads (l : List (Nat × Nat)) : l.find? (fun _ => false) = none := List.find?_eq_none.mpr fun _ _ => Bool.false_ne_true
  unfold descOf at hd
  unfold matRun
  simp only [spFits_of hfits, meetSpReads_of_quiet hquiet, spPoison_of_clean hclean, hd, hbad, hrange, hoverlap, hnone, hreads,
    Bool.not_true, Bool.false_eq_true, if_false]
  refine ⟨_, rfl, ?_, ?_, ?_, ?_⟩
  · rw [count_mem]
    exact hmem
  · intro j c
    rw [getCtx_count]
    refine (getCtx_putCore ?_).trans (getCtx_of_cores hcores j c)
    rfl
  · rw [getCore_count, getCore_putCore_same]
    change (getCore k (writeC k d (matResult k d h).1 h)).mq = _
    rw [getCore_of_cores hcores]
  · rw [getCore_count, getCore_putCore_same]
    simp only [apply_ite Option.isSome, Option.isSome_some, Option.isSome_none]
    split <;> simp_all

end Matrix

section Vector

variable {k : Nat} {e : EngCmd} {h : Hub}

/-- The regions of a vector command. -/
def vecShapeOf (e : EngCmd) : VecShape := vecShape (vFunc e.word) e.rc.toNat (vSfmt e.word) (vDfmt e.word)

/-- A vector command whose regions lie inside a scratchpad free of poison, with no injection pending. -/
structure VecReady (e : EngCmd) (h : Hub) : Prop where
  quiet : h.ras.injection = none
  clean : h.poison = []
  fitsA : spFits e.ra.toNat (vecShapeOf e).readA = true
  fitsB : (vecShapeOf e).readB ≠ 0 ∨ (vecShapeOf e).writeB ≠ 0 →
    spFits e.rb.toNat (max (vecShapeOf e).readB (vecShapeOf e).writeB) = true
  fitsD : spFits e.rd.toNat (max (vecShapeOf e).readD (vecShapeOf e).writeD) = true

/-- What such a command reads at RA. -/
def vecSource (k : Nat) (e : EngCmd) (h : Hub) : List Byte := spBytes k e.ra.toNat (vecShapeOf e).readA h

/-- The lanes of the functions of one lane each. -/
def vecLanes (k : Nat) (e : EngCmd) (h : Hub) : List Byte :=
  ((List.range e.rc.toNat).map (fun i => bytesLE 4 (laneFn (vFunc e.word) (laneAt (vecSource k e h) i)
    (laneAt (spBytes k e.rb.toNat (vecShapeOf e).readB h) i) (laneAt (spBytes k e.rd.toNat (vecShapeOf e).readD h) i)
    (BitVec.ofNat 32 e.rb.toNat)).toNat)).flatten

/-- The lane of a reduction. -/
def vecReduced (k : Nat) (e : EngCmd) (h : Hub) : Lane :=
  if vFunc e.word = 0x10 then reduceLanes (fun p q => laneOf p q ((laneVal p).add (laneVal q))) (some 0) ((List.range e.rc.toNat).map (laneAt (vecSource k e h)))
  else reduceLanes (laneMax true) none ((List.range e.rc.toNat).map (laneAt (vecSource k e h)))

/-- The context of a command with its random counter advanced (R343). -/
def drawn (k n : Nat) (e : EngCmd) (h : Hub) : Hub :=
  putCtx k e.ctx { getCtx k e.ctx h with src := (getCtx k e.ctx h).src + w64 n } h

/-- R340 to R344: what each function of a ready command does. -/
theorem vecRun_of_ready (hready : VecReady e h) : vecRun k e h =
    if vFunc e.word ≤ 0xB then .ok (spWrite k e.rd.toNat (vecLanes k e h) h)
    else if vFunc e.word = 0xC then
      let r := cvtRow e.word e.rc.toNat (vecSource k e h) (getCtx k e.ctx h).seed (getCtx k e.ctx h).src
      .ok (count (corePage k) 11 r.2.1 (spWrite k e.rd.toNat r.1 (drawn k r.2.2 e h)))
    else if vFunc e.word = 0xD then
      let r := quantRow e.word e.rc.toNat (vecSource k e h) (getCtx k e.ctx h).seed (getCtx k e.ctx h).src
      .ok (count (corePage k) 11 r.2.2.1 (spWrite k e.rd.toNat r.2.1 (spWrite k e.rb.toNat r.1 (drawn k r.2.2.2 e h))))
    else .ok (spWrite k e.rd.toNat (bytesLE 4 (vecReduced k e h).toNat) h) := by
  obtain ⟨hquiet, hclean, hfitsA, hfitsB, hfitsD⟩ := hready
  unfold vecShapeOf at hfitsA hfitsB hfitsD
  have hB : ¬(((vecShape (vFunc e.word) e.rc.toNat (vSfmt e.word) (vDfmt e.word)).readB ≠ 0 ∨
      (vecShape (vFunc e.word) e.rc.toNat (vSfmt e.word) (vDfmt e.word)).writeB ≠ 0) ∧
      (!spFits e.rb.toNat (max (vecShape (vFunc e.word) e.rc.toNat (vSfmt e.word) (vDfmt e.word)).readB
        (vecShape (vFunc e.word) e.rc.toNat (vSfmt e.word) (vDfmt e.word)).writeB)) = true) := fun hb => by
    simp [hfitsB hb.1] at hb
  unfold vecRun
  simp only [hfitsA, hB, hfitsD, meetSpReads_of_quiet hquiet, spPoison_of_clean hclean, Bool.not_true, Bool.false_eq_true, and_false, if_false]
  rfl

theorem vecRun_lanes (hready : VecReady e h) (hfn : vFunc e.word ≤ 0xB) :
    vecRun k e h = .ok (spWrite k e.rd.toNat (vecLanes k e h) h) := by
  rw [vecRun_of_ready hready, if_pos hfn]

theorem vecRun_cvt (hready : VecReady e h) (hfn : vFunc e.word = 0xC) {seed src : Word}
    (hseed : (getCtx k e.ctx h).seed = seed) (hsrc : (getCtx k e.ctx h).src = src) :
    let r := cvtRow e.word e.rc.toNat (vecSource k e h) seed src
    vecRun k e h = .ok (count (corePage k) 11 r.2.1 (spWrite k e.rd.toNat r.1 (drawn k r.2.2 e h))) := by
  rw [vecRun_of_ready hready, hfn, if_neg (by norm_num), if_pos rfl, hseed, hsrc]

theorem vecRun_quant (hready : VecReady e h) (hfn : vFunc e.word = 0xD) {seed src : Word}
    (hseed : (getCtx k e.ctx h).seed = seed) (hsrc : (getCtx k e.ctx h).src = src) :
    let r := quantRow e.word e.rc.toNat (vecSource k e h) seed src
    vecRun k e h = .ok (count (corePage k) 11 r.2.2.1
      (spWrite k e.rd.toNat r.2.1 (spWrite k e.rb.toNat r.1 (drawn k r.2.2.2 e h)))) := by
  rw [vecRun_of_ready hready, hfn, if_neg (by norm_num), if_neg (by norm_num), if_pos rfl, hseed, hsrc]

theorem vecRun_reduce (hready : VecReady e h) (hfn : 0xD < vFunc e.word) :
    vecRun k e h = .ok (spWrite k e.rd.toNat (bytesLE 4 (vecReduced k e h).toNat) h) := by
  rw [vecRun_of_ready hready, if_neg (by omega), if_neg (by omega), if_neg (by omega)]

theorem fmtBytes_pos {f n : Nat} (hf : fmtBits f ≠ 0) (hn : n ≠ 0) : fmtBytes f n ≠ 0 := by
  have := Nat.mul_pos (Nat.pos_of_ne_zero hf) (Nat.pos_of_ne_zero hn)
  rw [fmtBytes, ceilDiv]
  omega

theorem packElems_nonempty {f : Nat} {es : List Nat} (hf : fmtBits f ≠ 0) (hes : es.length ≠ 0) : packElems f es ≠ [] := fun hnil =>
  fmtBytes_pos hf hes ((bytesLE_length _ _).symm.trans (congrArg List.length hnil))

theorem mxEmax_bits {f : Nat} (hmx : (mxEmax f).isSome = true) : fmtBits f ≠ 0 := by
  unfold mxEmax at hmx
  unfold fmtBits
  split_ifs at hmx <;> simp_all

/-- The lengths a vector command that its engine accepts can have. -/
theorem vecValid_length {w rc : Word} (hvalid : vecValid w rc = true) : rc.toNat ≠ 0 := by
  simp only [vecValid, Bool.and_eq_true, decide_eq_true_eq] at hvalid
  obtain ⟨⟨-, hpos, -⟩, -⟩ := hvalid
  omega

theorem vecValid_cvt {w rc : Word} (hvalid : vecValid w rc = true) (hfn : vFunc w = 0xC) : fmtBits (vDfmt w) ≠ 0 := by
  simp only [vecValid, hfn, if_true, Bool.and_eq_true, bne_iff_ne] at hvalid
  obtain ⟨-, ⟨hdst, -⟩, -⟩ := hvalid
  exact hdst

theorem vecValid_quant {w rc : Word} (hvalid : vecValid w rc = true) (hfn : vFunc w = 0xD) :
    fmtBits (vDfmt w) ≠ 0 ∧ rc.toNat % 32 = 0 := by
  simp only [vecValid, hfn, if_true, Bool.and_eq_true] at hvalid
  obtain ⟨-, hvalid⟩ := hvalid
  rw [if_neg (by norm_num), Bool.and_eq_true, Bool.and_eq_true, beq_iff_eq] at hvalid
  obtain ⟨⟨hmx, hlen⟩, -⟩ := hvalid
  exact ⟨mxEmax_bits hmx, hlen⟩

theorem vecLanes_nonempty (hl : e.rc.toNat ≠ 0) : vecLanes k e h ≠ [] := by
  obtain ⟨n, hn⟩ := Nat.exists_eq_succ_of_ne_zero hl
  rw [vecLanes, hn, List.range_succ_eq_map]
  simp [bytesLE]

theorem cvtRow_nonempty {w : Word} {l : Nat} {src : List Byte} {seed ctr : Word} (hf : fmtBits (vDfmt w) ≠ 0) (hl : l ≠ 0) :
    (cvtRow w l src seed ctr).1 ≠ [] :=
  packElems_nonempty hf (by simpa using hl)

theorem quantRow_nonempty {w : Word} {l : Nat} {src : List Byte} {seed ctr : Word} (hf : fmtBits (vDfmt w) ≠ 0) (hl : l ≠ 0)
    (hgroups : l % 32 = 0) : (quantRow w l src seed ctr).1 ≠ [] ∧ (quantRow w l src seed ctr).2.1 ≠ [] := by
  obtain ⟨n, hn⟩ := Nat.exists_eq_succ_of_ne_zero (show l / 32 ≠ 0 by omega)
  refine ⟨?_, packElems_nonempty hf ?_⟩
  · rw [quantRow, hn, List.range_succ_eq_map]
    simp
  · rw [hn, List.range_succ_eq_map (n := n)]
    simp only [List.map_cons, List.flatten_cons, List.length_append, List.length_map, List.length_range]
    omega

end Vector

section EngineRows

variable {k : Fin 64} {c : Fin 8} {w : Word} {s : State} {i : Instr} {P : Hub → Prop}

/-- The command that word w makes in a context, numbered as its core numbers the next. -/
def numbered (k c : Nat) (w rd ra rb rc : Word) (h : Hub) : EngCmd :=
  { engCmd (getCtx k c h) c w rd ra rb rc with n := (getCore k h).nextCmd }

/-- The hub a command of an engine meets when it starts: it has issued, and stands in its queue. -/
def readied (k c : Nat) (q : EngineId) (w rd ra rb rc : Word) (h : Hub) : Hub :=
  enqueued k q (engCmd (getCtx k c h) c w rd ra rb rc) (issued k c (getCtx k c h) h)

section Readied

variable {k c : Nat} {q : EngineId} {rd ra rb rc : Word} {h : Hub}

theorem readied_mem : (readied k c q w rd ra rb rc h).mem = h.mem := issuedAs_mem

theorem readied_poison : (readied k c q w rd ra rb rc h).poison = h.poison := issuedAs_poison

theorem readied_quiet (hquiet : h.ras.injection = none) : (readied k c q w rd ra rb rc h).ras.injection = none := issuedAs_quiet hquiet

theorem getCtx_readied : getCtx k c (readied k c q w rd ra rb rc h) = { getCtx k c h with pc := (getCtx k c h).pc + 1 } :=
  getCtx_enqueued.trans getCtx_issuedAs

theorem queueOf_issued (x : Ctx) : queueOf q (getCore k (issued k c x h)) = queueOf q (getCore k h) := by
  rw [issued_eq, getCore_issuedAs]
  cases q <;> rfl

theorem nextCmd_issued (x : Ctx) : (getCore k (issued k c x h)).nextCmd = (getCore k h).nextCmd := by
  rw [issued_eq, getCore_issuedAs]

theorem queueOf_readied : queueOf q (getCore k (readied k c q w rd ra rb rc h)) =
    queueOf q (getCore k h) ++ [numbered k c w rd ra rb rc h] := by
  rw [readied, queueOf_enqueued, queueOf_issued, nextCmd_issued, numbered]

theorem retained_readied : (getCore k (readied k c q w rd ra rb rc h)).retained = (getCore k h).retained := by
  rw [readied, retained_enqueued, issued_eq, getCore_issuedAs]

end Readied

/-- R328: an empty queue of an engine is not full. -/
theorem engineFull_of_empty {k : Nat} {q : EngineId} {h : Hub} (hempty : queueOf q (getCore k h) = []) : engineFull k q h = false := by
  rw [engineFull, hempty]
  cases q <;> rfl

/-- MMA at an idle matrix engine. -/
theorem mma_computes (hissues : issues k c w s.hub = true) (hquiet : s.hub.ras.injection = none) (hop : wOp w = 0x20)
    (hidle : (getCore k s.hub).mq = []) :
    let x := getCtx k c s.hub
    let core := getCore k s.hub
    let at_ := (sreg x (eRa w)).toNat
    let d := parseMat (memGetN s.hub.mem (scratchAddr k at_) 32)
    at_ + 32 ≤ 0x180000 → s.hub.poison = [] → core.retained = none → matBad (memGetN s.hub.mem (scratchAddr k at_) 32) d = none →
      matRange d = none → matOverlap d = false →
      HubAnswers (.mma k c) s (fun h => getCtx k c h = { x with pc := x.pc + 1 } ∧
        h.mem = (List.range d.m).foldl (fun m i =>
          memPutN m (scratchAddr k (d.cOff + i * d.cStride)) (nth (matResult k d s.hub).1 i [])) s.hub.mem ∧
        (getCore k h).mq = [⟨core.nextCmd, c, w, 0, sreg x (eRa w), 0, 0, x.marks, true, 0, [], x.pc⟩] ∧
        ((getCore k h).retained.isSome ↔ retainBytes d ≤ 655360)) := by
  intro x core at_ d hfits hclean hnone hbad hrange hoverlap
  generalize hcmd : numbered k c w 0 (sreg x (eRa w)) 0 0 s.hub = e
  generalize hhub : readied k c .matrix w 0 (sreg x (eRa w)) 0 0 s.hub = h0
  have hmem0 : h0.mem = s.hub.mem := hhub ▸ readied_mem
  have hra : e.ra = sreg x (eRa w) := hcmd ▸ rfl
  have hbytes : spBytes k e.ra.toNat 32 h0 = memGetN s.hub.mem (scratchAddr k at_) 32 := by rw [spBytes, hmem0, hra]
  obtain ⟨h1, hrun, hmem, hctx, hmq, hretained⟩ := matRun_writes (k := k) (e := e) (d := d) (h := h0) (hhub ▸ readied_quiet hquiet)
    (by rw [← hhub, readied_poison]; exact hclean) (by rw [← hhub, retained_readied]; exact hnone) (by rw [hra]; exact hfits)
    (by rw [descOf, hbytes]) (by rw [hbytes]; exact hbad) hrange hoverlap
  have hqueue : queueOf .matrix (getCore k h1) = [e] := by
    refine hmq.trans ?_
    rw [← hhub, ← hcmd]
    exact queueOf_readied.trans (by rw [show queueOf .matrix (getCore k s.hub) = [] from hidle, List.nil_append])
  have hstarts : queueCmd k .matrix (engCmd x c w 0 (sreg x (eRa w)) 0 0) (issued k c x s.hub) =
      putCmd k .matrix { e with started := true } h1 := by
    have hnum : { engCmd x c w 0 (sreg x (eRa w)) 0 0 with n := (getCore k (issued k c x s.hub)).nextCmd } = e := by
      rw [nextCmd_issued, ← hcmd]; rfl
    rw [← hnum]
    refine queueCmd_matrix ?_ rfl ?_
    · exact (queueOf_issued (q := .matrix) x).trans hidle
    · rw [hnum, ← hrun, ← hhub]; rfl
  have hctx1 : getCtx k c (putCmd k .matrix { e with started := true } h1) = { x with pc := x.pc + 1 } := by
    rw [getCtx_putCmd, hctx, ← hhub, getCtx_readied]
  have hresult : matResult k d h0 = matResult k d s.hub := by
    simp only [matResult, readRows, spBytes, hmem0]
  refine answers_acts hissues rfl hop ((if_neg ?_).trans hstarts) (.inl (by rw [hctx1]; exact (running_of_issues hissues).1))
    ⟨hctx1, ?_, ?_, ?_⟩
  · rw [engineFull_of_empty (q := .matrix) hidle]
    exact Bool.false_ne_true
  · rw [← hresult, ← hmem0]
    exact hmem
  · refine (queueOf_putCmd_started hqueue).trans ?_
    rw [← hcmd]
    rfl
  · rw [retained_putCmd]
    exact hretained

/-- DMA. -/
theorem dma_queues (hissues : issues k c w s.hub = true) (q : EngineId) :
    let x := getCtx k c s.hub
    let core := getCore k s.hub
    wOp w = 0x30 → q = (if eQ w = 0 then .dma0 else .dma1) → (queueOf q core).length < 16 →
      HubAnswers (.dma k c) s (fun h => SameMemory s.hub h ∧ getCtx k c h = { x with pc := x.pc + 1 } ∧
        queueOf q (getCore k h) = queueOf q core ++ [⟨core.nextCmd, c, w, 0, sreg x (eRa w), 0, 0, x.marks, false, 0, [], x.pc⟩]) := by
  intro x core hop hq hroom
  have hnot : ¬(q = .matrix ∨ q = .vector) := by rw [hq]; split <;> simp
  have hdepth : queueDepth q = 16 := by rw [hq]; split <;> rfl
  have hqueue : queueCmd k q (engCmd x c w 0 (sreg x (eRa w)) 0 0) (issued k c x s.hub) =
      readied k c q w 0 (sreg x (eRa w)) 0 0 s.hub := by rw [queueCmd_eq, if_neg hnot]; rfl
  have hfull : ¬engineFull k q s.hub = true := by
    rw [engineFull, decide_eq_true_eq, hdepth]
    simp only [core] at hroom
    omega
  refine answers_acts hissues rfl hop (h1 := readied k c q w 0 (sreg x (eRa w)) 0 0 s.hub) ?_
    (.inl (by rw [getCtx_readied]; exact (running_of_issues hissues).1))
    ⟨⟨readied_mem, readied_poison⟩, getCtx_readied, queueOf_readied⟩
  change queueE k c (if eQ w = 0 then .dma0 else .dma1) w x s.hub = _
  rw [← hq]
  exact (if_neg hfull).trans hqueue

/-- What a vector command leaves when it starts: its memory, its context as z, and itself as all of its queue. -/
structure VecLeaves (k c : Nat) (e : EngCmd) (z : Ctx) (mem : List Host.Cell) (h1 : Hub) : Prop where
  mem : h1.mem = mem
  ctx : getCtx k c h1 = z
  queue : queueOf .vector (getCore k h1) = [e]

theorem VecLeaves.of_cores {k c : Nat} {e : EngCmd} {z : Ctx} {m m1 : List Host.Cell} {h h1 : Hub} (hleaves : VecLeaves k c e z m h)
    (hcores : h1.cores = h.cores) (hmem : h1.mem = m1) : VecLeaves k c e z m1 h1 :=
  ⟨hmem, (getCtx_of_cores hcores k c).trans hleaves.ctx, by rw [getCore_of_cores hcores]; exact hleaves.queue⟩

/-- A row of VOP of one function, whose command runs at once. -/
theorem vop_answers {fn : Nat} {z : Ctx} {m : List Host.Cell} {h1 : Hub} (hissues : issues k c w s.hub = true)
    (hexec : exec i s = hubRow (vopCmd fn k c) s) (hop : wOp w = 0x21) (hfn : vFunc w = fn)
    (hvalid : vecValid w (sreg (getCtx k c s.hub) (vRc w)) = true) (hidle : (getCore k s.hub).vq = []) :
    let x := getCtx k c s.hub
    let e := numbered k c w (sreg x (sRd w)) (sreg x (sRa w)) (sreg x (sRb w)) (sreg x (vRc w)) s.hub
    vecRun k e (readied k c .vector w (sreg x (sRd w)) (sreg x (sRa w)) (sreg x (sRb w)) (sreg x (vRc w)) s.hub) = .ok h1 →
    VecLeaves k c e z m h1 → z.st = .running → P (putCmd k .vector { e with started := true } h1) → HubAnswers i s P := by
  intro x e hrun hleaves hz hP
  have hstarts : queueCmd k .vector (engCmd x c w (sreg x (sRd w)) (sreg x (sRa w)) (sreg x (sRb w)) (sreg x (vRc w)))
      (issued k c x s.hub) = putCmd k .vector { e with started := true } h1 := by
    have hnum : { engCmd x c w (sreg x (sRd w)) (sreg x (sRa w)) (sreg x (sRb w)) (sreg x (vRc w)) with
        n := (getCore k (issued k c x s.hub)).nextCmd } = e := by rw [nextCmd_issued]; rfl
    rw [← hnum]
    refine queueCmd_vector ?_ rfl ?_
    · exact (queueOf_issued (q := .vector) x).trans hidle
    · rw [hnum, ← hrun]; rfl
  have hctx : getCtx k c (putCmd k .vector { e with started := true } h1) = z := getCtx_putCmd.trans hleaves.ctx
  have hrow : vopCmd fn k c s.hub = putCmd k .vector { e with started := true } h1 := by
    unfold vopCmd
    refine issueIf_running hissues ?_ ?_ (by rw [hctx]; exact hz)
    · rw [hop, hfn]
      simp
    · simp only [hvalid, engineFull_of_empty (q := .vector) hidle, Bool.not_true, Bool.false_eq_true, if_false]
      exact hstarts
  exact ⟨_, hubRow_next hexec hrow, rfl, rfl, hP⟩

end EngineRows

section VopRows

variable {k : Fin 64} {c : Fin 8} {w : Word} {s : State} {i : Instr} {fn : Nat}

/-- The command of a VOP word, numbered. -/
def vopCmdOf (k c : Nat) (w : Word) (h : Hub) : EngCmd :=
  numbered k c w (sreg (getCtx k c h) (sRd w)) (sreg (getCtx k c h) (sRa w)) (sreg (getCtx k c h) (sRb w)) (sreg (getCtx k c h) (vRc w)) h

/-- The hub it meets. -/
def vopHub (k c : Nat) (w : Word) (h : Hub) : Hub :=
  readied k c .vector w (sreg (getCtx k c h) (sRd w)) (sreg (getCtx k c h) (sRa w)) (sreg (getCtx k c h) (sRb w))
    (sreg (getCtx k c h) (vRc w)) h

/-- A VOP word that its engine takes, at an idle vector engine, whose command is ready to run. -/
structure VopTaken (k : Fin 64) (c : Fin 8) (w : Word) (fn : Nat) (i : Instr) (s : State) : Prop where
  issues : issues k c w s.hub = true
  row : exec i s = hubRow (vopCmd fn k c) s
  op : wOp w = 0x21
  func : vFunc w = fn
  valid : vecValid w (sreg (getCtx k c s.hub) (vRc w)) = true
  idle : (getCore k s.hub).vq = []
  ready : VecReady (vopCmdOf k c w s.hub) (vopHub k c w s.hub)

/-- What every function leaves: its command, started, as all of the queue, the context as z, and the memory. -/
def VopLeaves (k : Fin 64) (c : Fin 8) (w : Word) (s : State) (z : Ctx) (mem : List Host.Cell) (h : Hub) : Prop :=
  (getCore k h).vq = [{ vopCmdOf k c w s.hub with started := true }] ∧ getCtx k c h = z ∧ h.mem = mem

theorem vopHub_leaves (htaken : VopTaken k c w fn i s) : VecLeaves k c (vopCmdOf k c w s.hub)
    { getCtx k c s.hub with pc := (getCtx k c s.hub).pc + 1 } s.hub.mem (vopHub k c w s.hub) where
  mem := readied_mem
  ctx := getCtx_readied
  queue := queueOf_readied.trans (by rw [show queueOf .vector (getCore k s.hub) = [] from htaken.idle, List.nil_append]; rfl)

/-- Drawing random values changes their context alone. -/
theorem drawn_leaves {e : EngCmd} {z : Ctx} {m : List Host.Cell} {h : Hub} {n : Nat} (hleaves : VecLeaves k c e z m h)
    (hctx : e.ctx = c) : VecLeaves k c e { z with src := z.src + w64 n } m (drawn k n e h) where
  mem := hleaves.mem
  ctx := by rw [drawn, hctx, getCtx_putCtx_same, hleaves.ctx]
  queue := by rw [drawn, getCore_putCtx_same]; exact hleaves.queue

/-- A write to the scratchpad changes the memory alone. -/
theorem spWrite_leaves {e : EngCmd} {z : Ctx} {m : List Host.Cell} {h : Hub} {off : Nat} {bs : List Byte}
    (hleaves : VecLeaves k c e z m h) (hquiet : h.ras.injection = none) (hbs : bs ≠ []) :
    VecLeaves k c e z (memPutN m (scratchAddr k off) bs) (spWrite k off bs h) :=
  hleaves.of_cores (spStore_cores hquiet _ _ _) ((spStore_mem hquiet _ _ hbs _).trans (by rw [hleaves.mem]))

theorem count_leaves {e : EngCmd} {z : Ctx} {m : List Host.Cell} {h : Hub} (hleaves : VecLeaves k c e z m h) (p slot n : Nat) :
    VecLeaves k c e z m (count p slot n h) :=
  hleaves.of_cores (count_cores p slot n h) ((count_mem p slot n h).trans hleaves.mem)

/-- Such a word answers what its command leaves. -/
theorem VopTaken.answers {z : Ctx} {m : List Host.Cell} {h1 : Hub} (htaken : VopTaken k c w fn i s)
    (hrun : vecRun k (vopCmdOf k c w s.hub) (vopHub k c w s.hub) = .ok h1)
    (hleaves : VecLeaves k c (vopCmdOf k c w s.hub) z m h1) (hz : z.st = (getCtx k c s.hub).st) :
    HubAnswers i s (VopLeaves k c w s z m) :=
  vop_answers htaken.issues htaken.row htaken.op htaken.func htaken.valid htaken.idle hrun hleaves
    (hz.trans (running_of_issues htaken.issues).1)
    ⟨queueOf_putCmd_started hleaves.queue, getCtx_putCmd.trans hleaves.ctx, hleaves.mem⟩

/-- The functions of one lane each. -/
theorem VopTaken.lanes (htaken : VopTaken k c w fn i s) (hfn : fn ≤ 0xB) :
    HubAnswers i s (VopLeaves k c w s { getCtx k c s.hub with pc := (getCtx k c s.hub).pc + 1 }
      (memPutN s.hub.mem (scratchAddr k (sreg (getCtx k c s.hub) (sRd w)).toNat) (vecLanes k (vopCmdOf k c w s.hub) (vopHub k c w s.hub)))) := by
  have hrun := vecRun_lanes (k := k) htaken.ready (htaken.func.trans_le hfn)
  exact htaken.answers hrun (spWrite_leaves (vopHub_leaves htaken) htaken.ready.quiet (vecLanes_nonempty (vecValid_length htaken.valid))) rfl

/-- CVT. -/
theorem VopTaken.cvt (htaken : VopTaken k c w fn i s) (hfn : fn = 0xC) :
    let x := getCtx k c s.hub
    let r := cvtRow w (sreg x (vRc w)).toNat (vecSource k (vopCmdOf k c w s.hub) (vopHub k c w s.hub)) x.seed x.src
    HubAnswers i s (VopLeaves k c w s { x with pc := x.pc + 1, src := x.src + w64 r.2.2 }
      (memPutN s.hub.mem (scratchAddr k (sreg x (sRd w)).toNat) r.1)) := by
  intro x r
  have hfunc : vFunc w = 0xC := htaken.func.trans hfn
  have hbase := vopHub_leaves htaken
  have hquiet := htaken.ready.quiet
  have hbits : r.1 ≠ [] := cvtRow_nonempty (vecValid_cvt htaken.valid hfunc) (vecValid_length htaken.valid)
  have hrun := vecRun_cvt (k := k) htaken.ready hfunc (congrArg Ctx.seed hbase.ctx) (congrArg Ctx.src hbase.ctx)
  exact htaken.answers hrun (count_leaves (spWrite_leaves (drawn_leaves hbase rfl) hquiet hbits) _ _ _) rfl

/-- QUANT_MX. -/
theorem VopTaken.quant (htaken : VopTaken k c w fn i s) (hfn : fn = 0xD) :
    let x := getCtx k c s.hub
    let r := quantRow w (sreg x (vRc w)).toNat (vecSource k (vopCmdOf k c w s.hub) (vopHub k c w s.hub)) x.seed x.src
    HubAnswers i s (VopLeaves k c w s { x with pc := x.pc + 1, src := x.src + w64 r.2.2.2 }
      (memPutN (memPutN s.hub.mem (scratchAddr k (sreg x (sRb w)).toNat) r.1) (scratchAddr k (sreg x (sRd w)).toNat) r.2.1)) := by
  intro x r
  have hfunc : vFunc w = 0xD := htaken.func.trans hfn
  have hbase := vopHub_leaves htaken
  have hquiet := htaken.ready.quiet
  obtain ⟨hbits, hgroups⟩ := vecValid_quant htaken.valid hfunc
  obtain ⟨hscales, helems⟩ := quantRow_nonempty (src := vecSource k (vopCmdOf k c w s.hub) (vopHub k c w s.hub)) (seed := x.seed)
    (ctr := x.src) hbits (vecValid_length htaken.valid) hgroups
  have hrun := vecRun_quant (k := k) htaken.ready hfunc (congrArg Ctx.seed hbase.ctx) (congrArg Ctx.src hbase.ctx)
  exact htaken.answers hrun (count_leaves (spWrite_leaves (spWrite_leaves (drawn_leaves hbase rfl) hquiet hscales)
    (spStore_quiet (h := drawn k r.2.2.2 (vopCmdOf k c w s.hub) (vopHub k c w s.hub)) hquiet _ _ _) helems) _ _ _) rfl

/-- RSUM and RMAX. -/
theorem VopTaken.reduce (htaken : VopTaken k c w fn i s) (hfn : 0xD < fn) :
    HubAnswers i s (VopLeaves k c w s { getCtx k c s.hub with pc := (getCtx k c s.hub).pc + 1 }
      (memPutN s.hub.mem (scratchAddr k (sreg (getCtx k c s.hub) (sRd w)).toNat)
        (bytesLE 4 (vecReduced k (vopCmdOf k c w s.hub) (vopHub k c w s.hub)).toNat))) := by
  have hbytes : bytesLE 4 (vecReduced k (vopCmdOf k c w s.hub) (vopHub k c w s.hub)).toNat ≠ [] :=
    List.ne_nil_of_length_eq_add_one (bytesLE_length 4 _)
  have hrun := vecRun_reduce (k := k) htaken.ready (hfn.trans_eq htaken.func.symm)
  exact htaken.answers hrun (spWrite_leaves (vopHub_leaves htaken) htaken.ready.quiet hbytes) rfl

theorem vecShapeOf_vop (hfn : vFunc w = fn) : vecShapeOf (vopCmdOf k c w s.hub) =
    vecShape fn (sreg (getCtx k c s.hub) (vRc w)).toNat (vSfmt w) (vDfmt w) := congrArg (fun f => vecShape f _ _ _) hfn

/-- A VOP word under the statement's conditions is one its engine takes, ready to run. -/
theorem vopTaken_of (hissues : issues k c w s.hub = true) (hquiet : s.hub.ras.injection = none)
    (hexec : exec i s = hubRow (vopCmd fn k c) s) :
    let x := getCtx k c s.hub
    let sh := vecShape fn (sreg x (vRc w)).toNat (vSfmt w) (vDfmt w)
    wOp w = 0x21 → vFunc w = fn → vecValid w (sreg x (vRc w)) = true → (getCore k s.hub).vq = [] → s.hub.poison = [] →
      (sreg x (sRa w)).toNat + sh.readA ≤ 0x180000 →
      (sh.readB ≠ 0 ∨ sh.writeB ≠ 0 → (sreg x (sRb w)).toNat + max sh.readB sh.writeB ≤ 0x180000) →
      (sreg x (sRd w)).toNat + max sh.readD sh.writeD ≤ 0x180000 → VopTaken k c w fn i s := by
  intro x sh hop hfn hvalid hidle hclean hfitsA hfitsB hfitsD
  have hshape : vecShapeOf (vopCmdOf k c w s.hub) = sh := vecShapeOf_vop hfn
  refine ⟨hissues, hexec, hop, hfn, hvalid, hidle, readied_quiet hquiet, readied_poison.trans hclean, ?_, ?_, ?_⟩
  · rw [hshape]; exact spFits_of hfitsA
  · rw [hshape]; exact fun hb => spFits_of (hfitsB hb)
  · rw [hshape]; exact spFits_of hfitsD

/-- What a command reads from the scratchpad is as its word found it. -/
theorem spBytes_vopHub (off n : Nat) : spBytes k off n (vopHub k c w s.hub) = memGetN s.hub.mem (scratchAddr k off) n := by
  rw [spBytes, vopHub, readied_mem]

theorem vecSource_vop (hfn : vFunc w = fn) :
    let x := getCtx k c s.hub
    vecSource k (vopCmdOf k c w s.hub) (vopHub k c w s.hub) = memGetN s.hub.mem (scratchAddr k (sreg x (sRa w)).toNat)
      (vecShape fn (sreg x (vRc w)).toNat (vSfmt w) (vDfmt w)).readA := by
  rw [vecSource, spBytes_vopHub, vecShapeOf_vop hfn]
  rfl

theorem vecLanes_vop (hfn : vFunc w = fn) :
    let x := getCtx k c s.hub
    let sh := vecShape fn (sreg x (vRc w)).toNat (vSfmt w) (vDfmt w)
    let get (r n : Nat) : List Byte := memGetN s.hub.mem (scratchAddr k (sreg x r).toNat) n
    vecLanes k (vopCmdOf k c w s.hub) (vopHub k c w s.hub) =
      ((List.range (sreg x (vRc w)).toNat).map (fun j => bytesLE 4 (laneFn fn (laneAt (get (sRa w) sh.readA) j)
        (laneAt (get (sRb w) sh.readB) j) (laneAt (get (sRd w) sh.readD) j) (BitVec.ofNat 32 (sreg x (sRb w)).toNat)).toNat)).flatten := by
  rw [vecLanes, vecSource_vop hfn, spBytes_vopHub, spBytes_vopHub, vecShapeOf_vop hfn, show vFunc (vopCmdOf k c w s.hub).word = fn from hfn]
  rfl

theorem vecReduced_vop (hfn : vFunc w = fn) :
    let x := getCtx k c s.hub
    let lanes := (List.range (sreg x (vRc w)).toNat).map (laneAt (memGetN s.hub.mem (scratchAddr k (sreg x (sRa w)).toNat)
      (vecShape fn (sreg x (vRc w)).toNat (vSfmt w) (vDfmt w)).readA))
    vecReduced k (vopCmdOf k c w s.hub) (vopHub k c w s.hub) =
      if fn = 0x10 then reduceLanes (fun p q => laneOf p q ((laneVal p).add (laneVal q))) (some 0) lanes
      else reduceLanes (laneMax true) none lanes := by
  rw [vecReduced, vecSource_vop hfn, show vFunc (vopCmdOf k c w s.hub).word = fn from hfn]
  rfl

end VopRows

theorem hubAnswers_imp {c : Instr} {s : State} {P Q : Hub → Prop} (hans : HubAnswers c s P) (hPQ : ∀ h, P h → Q h) : HubAnswers c s Q := by
  obtain ⟨t, hexec, hpending, hholes, hP⟩ := hans
  exact ⟨t, hexec, hpending, hholes, hPQ _ hP⟩

/-- Settles O34: DMA joins its queue, and MMA and VOP answer what their engine writes when it starts them. -/
theorem engineCommandsAct : Obligations.EngineCommandsAct := by
  intro k c w s hissues hquiet x core
  refine ⟨fun q => dma_queues hissues q, fun hop hidle => mma_computes hissues hquiet hop hidle, ?_⟩
  intro fn i hmem l sh d a rb src hop hfn hvalid hidle hclean hfitsA hfitsB hfitsD
  have hexec : exec i s = hubRow (vopCmd fn k c) s := by
    simp only [List.mem_cons, Prod.mk.injEq, List.not_mem_nil, or_false] at hmem
    obtain ⟨rfl, rfl⟩ | ⟨rfl, rfl⟩ | ⟨rfl, rfl⟩ | ⟨rfl, rfl⟩ | ⟨rfl, rfl⟩ | ⟨rfl, rfl⟩ | ⟨rfl, rfl⟩ | ⟨rfl, rfl⟩ | ⟨rfl, rfl⟩ |
      ⟨rfl, rfl⟩ | ⟨rfl, rfl⟩ | ⟨rfl, rfl⟩ | ⟨rfl, rfl⟩ | ⟨rfl, rfl⟩ | ⟨rfl, rfl⟩ | ⟨rfl, rfl⟩ := hmem <;> rfl
  have htaken := vopTaken_of hissues hquiet hexec hop hfn hvalid hidle hclean hfitsA hfitsB hfitsD
  have hcases : fn ≤ 0xB ∨ fn = 0xC ∨ fn = 0xD ∨ fn = 0x10 ∨ fn = 0x11 := by
    simp only [List.mem_cons, Prod.mk.injEq, List.not_mem_nil, or_false] at hmem
    omega
  obtain hlow | rfl | rfl | rfl | rfl := hcases
  · refine hubAnswers_imp (htaken.lanes hlow) fun h ⟨hqueue, hctx, hmem1⟩ => ⟨hqueue, fun _ => ⟨hctx, ?_⟩, ?_, ?_, ?_, ?_⟩
    · rw [vecLanes_vop hfn] at hmem1
      exact hmem1
    all_goals exact fun hother => by omega
  · refine hubAnswers_imp (htaken.cvt rfl) fun h ⟨hqueue, hctx, hmem1⟩ => ⟨hqueue, ?_, fun _ => And.intro ?_ ?_, ?_, ?_, ?_⟩
    · exact fun hother => by omega
    · rw [vecSource_vop hfn] at hctx
      exact hctx
    · rw [vecSource_vop hfn] at hmem1
      exact hmem1
    all_goals exact fun hother => by omega
  · refine hubAnswers_imp (htaken.quant rfl) fun h ⟨hqueue, hctx, hmem1⟩ => ⟨hqueue, ?_, ?_, fun _ => And.intro ?_ ?_, ?_, ?_⟩
    · exact fun hother => by omega
    · exact fun hother => by omega
    · rw [vecSource_vop hfn] at hctx
      exact hctx
    · rw [vecSource_vop hfn] at hmem1
      exact hmem1
    all_goals exact fun hother => by omega
  · refine hubAnswers_imp (htaken.reduce (by norm_num)) fun h ⟨hqueue, _, hmem1⟩ => ⟨hqueue, ?_, ?_, ?_, fun _ => ?_, ?_⟩
    case refine_4 =>
      rw [vecReduced_vop hfn] at hmem1
      exact hmem1
    all_goals exact fun hother => by omega
  · refine hubAnswers_imp (htaken.reduce (by norm_num)) fun h ⟨hqueue, _, hmem1⟩ => ⟨hqueue, ?_, ?_, ?_, ?_, fun _ => ?_⟩
    case refine_5 =>
      rw [vecReduced_vop hfn] at hmem1
      exact hmem1
    all_goals exact fun hother => by omega

end Sys2Proof.Proofs
/-!
PROOFS. The engines of a core at work (R348, R349, R367, R368, R372 to R374, R377): the descriptor at the head of a DMA queue, the
end of a command, the line buffers, and a held SIGNAL.
-/
namespace Sys2Proof.Proofs

open Machine Safety Laws

section Engines

variable {k c : Nat} {q : Nat} {e : EngCmd} {d : DmaDesc} {x : Ctx} {h h1 : Hub}

theorem countKib_quiet (hquiet : h.ras.injection = none) (p slot n : Nat) (hslot : slot < 256) : (countKib p slot n h).ras.injection = none :=
  countKib_moves uninjected_moves p slot n h hslot hquiet

/-- R563: with no injection pending, the read of a descriptor meets none. -/
theorem dmaLook_of_quiet (hquiet : h.ras.injection = none) : dmaLook k q h = h := by
  unfold dmaLook
  split
  · rw [meetSpReads_of_quiet hquiet, ite_self]
  · rfl

/-- R349: an IN of one piece whose line is not buffered. -/
theorem dmaInLocal_one {a sp n : Nat} {bs : List Byte} (hmiss : bufServe k q d x a n h = none)
    (hread : localRead k x (dmaAsid d x) a n h = (.ok (bs, false), h1)) :
    dmaInLocal k c q d x [(a, sp, n)] h = (.ok (), spStore (scratchAddr k sp) bs false h1) ∨
    dmaInLocal k c q d x [(a, sp, n)] h = (.ok (), bufFill k q d x a bs (spStore (scratchAddr k sp) bs false h1)) := by
  simp only [dmaInLocal, hmiss, hread, notePoison, Bool.false_or, Bool.false_eq_true, if_false]
  split <;> split
  · exact .inl rfl
  · exact .inr rfl
  · exact .inl rfl
  · exact .inr rfl

/-- R349: an OUT of one piece. -/
theorem dmaOutLocal_one {a sp n : Nat} (hquiet : h.ras.injection = none)
    (hwrite : localWrite k x (dmaAsid d x) a (spBytes k sp n h) (spPoison k sp n h) (bufDrop k d x a n h) = (.ok (), h1)) :
    dmaOutLocal k d x [(a, sp, n)] h = (.ok (), h1) := by
  simp only [dmaOutLocal, meetSpReads_of_quiet hquiet, hwrite]

theorem queueOf_setBuf {g : EngineId} {b : List BufLine} {core : Core} : queueOf g (setBuf q b core) = queueOf g core := by
  unfold setBuf
  split <;> cases g <;> rfl

/-- R372: filling a line buffer changes no queue. -/
theorem queueOf_bufFill {g : EngineId} {a : Nat} {bs : List Byte} :
    queueOf g (getCore k (bufFill k q d x a bs h)) = queueOf g (getCore k h) :=
  (congrArg (queueOf g) getCore_putCore_same).trans queueOf_setBuf

/-- A command of a queue that is replaced stands in it, replaced. -/
theorem mem_putCmd {g : EngineId} {e1 : EngCmd} (he : e ∈ queueOf g (getCore k h)) (hn : e.n = e1.n) :
    e1 ∈ queueOf g (getCore k (putCmd k g e1 h)) := by
  rw [putCmd, getCore_putCore_same, queueOf_setQueue]
  exact List.mem_map.mpr ⟨e, he, if_pos hn⟩

theorem settled_putCore {core : Core} (hsettled : Settled h) : Settled (putCore k core h) := hsettled

theorem settled_of_switch (hswitch : SwitchOnly h h1) (hsettled : Settled h) : Settled h1 := by
  rwa [Settled, hswitch.cur, hswitch.cloak]

theorem settled_raiseMark {p b : Nat} {inj : Bool} (hsettled : Settled h) : Settled (raiseMark p b inj h) := by
  unfold raiseMark
  split
  · exact settled_of_switch (raiseInjected_moves switch_moves p b h) hsettled
  · exact settled_of_switch (raise_switch p b h) hsettled

theorem settled_rasNote {ue inj : Bool} {kind loc : Nat} (hsettled : Settled h) : Settled (rasNote ue inj kind loc h) := by
  have hcount : Settled (if inj then count 0x300 3 1 h else h) := by
    split
    · exact settled_of_switch (count_switch _ _ _ h) hsettled
    · exact hsettled
  unfold rasNote
  dsimp only
  split
  · exact settled_of_switch ((count_switch _ _ _ _).trans (raiseEvent_switch _ _ _)) hcount
  · exact settled_of_switch ((count_switch _ _ _ _).trans (raiseEvent_switch _ _ _)) hcount

/-- R563: an injection met at the scratchpad leaves what awaits contexts. -/
theorem settled_meetSpInjection {off n : Nat} (hsettled : Settled h) : Settled (meetSpInjection off n h) := by
  unfold meetSpInjection
  split
  · exact hsettled
  · dsimp only
    split
    · have hnoted : ∀ {p b kind loc : Nat} {ue inj : Bool}, Settled (rasNote ue inj kind loc (raiseMark p b true (clearInjection h))) :=
        settled_rasNote (settled_raiseMark hsettled)
      split
      · exact hnoted
      · exact hnoted
    · split
      · exact settled_of_switch (count_switch _ _ _ _) hsettled
      · exact hsettled

theorem settled_spStore (hsettled : Settled h) (a : Nat) (bs : List Byte) (p : Bool) : Settled (spStore a bs p h) := by
  have hmet := settled_meetSpInjection (off := a) (n := bs.length) hsettled
  unfold spStore
  dsimp only
  split
  · exact hsettled
  · split
    · exact hmet
    · exact hmet

/-- What a write to the scratchpad stores, no bytes included. -/
theorem spStore_stores (hquiet : h.ras.injection = none) (a : Nat) (bs : List Byte) (p : Bool) :
    storesAt a bs h (spStore a bs p h) := by
  by_cases hbs : bs = []
  · subst hbs
    intro i
    rw [if_neg (by simp)]
    simp only [spStore, List.length_nil, if_true]
  · exact storesAt_of_put (spStore_mem hquiet a bs hbs p)

/-- R348: what an IN or OUT descriptor for this module at its queue's head comes to. -/
theorem dmaMove_desc {kind : Nat} (hquiet : h.ras.injection = none) (hhead : dmaHead k q kind h = .desc e d) (hfits : dmaFits d = true)
    (hhere : d.module = moduleId h) (hx : getCtx k e.ctx h = x)
    (hrun : (if kind = 1 then dmaInLocal k e.ctx q d x (dmaPieces d) (countKib (corePage k) (if kind = 1 then 3 else 4) (d.rows * d.len) h)
      else dmaOutLocal k d x (dmaPieces d) (countKib (corePage k) (if kind = 1 then 3 else 4) (d.rows * d.len) h)) = (.ok (), h1)) :
    dmaMove k q kind h = putCmd k (dmaQueue q) { e with started := true } h1 := by
  unfold dmaMove
  simp only [dmaLook_of_quiet hquiet, hhead, hfits, hhere, hx, hrun, Bool.not_true, Bool.false_eq_true, if_false, if_true]

/-- R353: a context whose run is not ending is left as it is. -/
theorem settleCtx_of_not_ending (hending : (getCtx k c h).ending = none) : settleCtx k c h = h := by
  unfold settleCtx
  simp only [hending, ite_self]

theorem runEngine_of_empty {g : EngineId} (hq : queueOf g (getCore k h) = []) (n : Nat) : runEngine k g (n + 1) h = h := by
  simp only [runEngine, hq]

end Engines

section EngineActs

variable {k : Fin 64} {q : Fin 2} {s : State} {e : EngCmd} {d : DmaDesc}

/-- A unit's command whose work leaves nothing awaiting a context's end. -/
theorem exec_unit {i : Instr} {f : Hub → Hub} {h1 : Hub} (hserves : serving s.hub = true)
    (hexec : exec i s = unitRow (fun h => svcSettle (f h)) s) (hf : f s.hub = h1) (hsettled : Settled h1) :
    exec i s = .next { s with hub := h1 } := by
  rw [hexec, unitRow, if_pos hserves, onHub, hf, svcSettle_idle hsettled]

/-- IN of one row. -/
theorem dmaIn_reads (hserves : serving s.hub = true) (hquiet : s.hub.ras.injection = none) (hhere : d.module = moduleId s.hub)
    (a sp n : Nat) (bs : List Byte) (h1 : Hub) :
    let x := getCtx k e.ctx s.hub
    let dq := dmaQueue q
    let h0 := countKib (0x200 + k.val) 3 (d.rows * d.len) s.hub
    dmaHead k q 1 s.hub = .desc e d → dmaFits d = true → dmaPieces d = [(a, sp, n)] → bufServe k q d x a n h0 = none →
    localRead k x (dmaAsid d x) a n h0 = (.ok (bs, false), h1) → Settled h1 → h1.ras.injection = none → e ∈ queueOf dq (getCore k h1) →
    HubAnswers (.dmaIn k q) s (fun h => storesAt (scratchAddr k sp) bs h1 h ∧
      { e with started := true } ∈ queueOf dq (getCore k h)) := by
  intro x dq h0 hhead hfits hpieces hmiss hread hsettled hquiet1 hmem
  have hstored := settled_spStore hsettled (scratchAddr k sp) bs false
  have hqueue : e ∈ queueOf dq (getCore k (spStore (scratchAddr k sp) bs false h1)) := by
    rw [getCore_of_cores (spStore_cores hquiet1 _ _ _)]
    exact hmem
  have hdone (h2 : Hub) (hin : dmaInLocal k e.ctx q d x [(a, sp, n)] h0 = (.ok (), h2)) :
      dmaMove k q 1 s.hub = putCmd k dq { e with started := true } h2 :=
    dmaMove_desc hquiet hhead hfits hhere rfl (by rw [if_pos rfl, if_pos rfl, hpieces]; exact hin)
  obtain hin | hin := dmaInLocal_one (c := e.ctx) hmiss hread
  · exact ⟨_, exec_unit hserves rfl (hdone _ hin) hstored, rfl, rfl, spStore_stores hquiet1 _ _ _, mem_putCmd hqueue rfl⟩
  · exact ⟨_, exec_unit hserves rfl (hdone _ hin) hstored, rfl, rfl, spStore_stores hquiet1 _ _ _,
      mem_putCmd (e := e) (by rw [queueOf_bufFill]; exact hqueue) rfl⟩

/-- OUT of one row. -/
theorem dmaOut_starts (hserves : serving s.hub = true) (hquiet : s.hub.ras.injection = none) (hhere : d.module = moduleId s.hub)
    (a sp n : Nat) (h1 : Hub) :
    let x := getCtx k e.ctx s.hub
    let h0 := countKib (0x200 + k.val) 4 (d.rows * d.len) s.hub
    dmaHead k q 2 s.hub = .desc e d → dmaFits d = true → dmaPieces d = [(a, sp, n)] →
    localWrite k x (dmaAsid d x) a (spBytes k sp n h0) (spPoison k sp n h0) (bufDrop k d x a n h0) = (.ok (), h1) → Settled h1 →
    exec (.dmaOut k q) s = .next { s with hub := putCmd k (dmaQueue q) { e with started := true } h1 } := by
  intro x h0 hhead hfits hpieces hwrite hsettled
  refine exec_unit hserves rfl (dmaMove_desc hquiet hhead hfits hhere rfl ?_) hsettled
  rw [if_neg (by norm_num), if_neg (by norm_num), hpieces]
  exact dmaOutLocal_one (countKib_quiet hquiet _ _ _ (by norm_num)) hwrite

/-- ATOMIC. -/
theorem dmaAtomic_applies (hserves : serving s.hub = true) (hquiet : s.hub.ras.injection = none) (hhere : d.module = moduleId s.hub)
    (off m old : Nat) (ps : List (Nat × Nat)) (h2 h3 : Hub) :
    let x := getCtx k e.ctx s.hub
    let aux := nbits d.len 15 0
    let n := if aux.testBit 8 then 8 else 4
    let op1 := spNum k (d.sp + 8) 8 s.hub
    let f := dmaFrame k d x 4 d.addr 0 aux d.operand op1 [] false
    dmaHead k q 3 s.hub = .desc e d → spFits d.sp 16 = true → formOk f = true →
    xlateNow false 1 k x.tenant (dmaAsid d x) d.addr n (opOf f) (bufDrop k d x d.addr n s.hub) = (.ok ((off, m) :: ps), h2) →
    leaseDenies (coreIssuer k h2) off n h2 = false →
    engAtomic off n (nbits aux 7 0) d.operand op1 x.tenant h2 = some ((old, false), h3) → Settled h3 →
    exec (.dmaAtomic k q) s = .next (onHub (fun _ => putCmd k (dmaQueue q) { e with started := true }
      (if atomicReturns aux then spStore (scratchAddr k d.sp) (bytesLE n old) false h3 else h3)) s) := by
  intro x aux n op1 f hhead hfits hform hxlate hlease hatomic hsettled
  refine exec_unit hserves rfl ?_ ?_
  · unfold dmaAtomic
    simp only [dmaLook_of_quiet hquiet, hhead, hfits, hhere, Bool.not_true, Bool.false_eq_true, if_false, if_true]
    simp only [f, op1, x, aux] at hform
    simp only [f, op1, x, aux, n] at hxlate
    simp only [op1, x, aux, n] at hlease hatomic
    simp only [hform, hxlate, hlease, hatomic, Bool.not_true, Bool.false_eq_true, if_false]
    rfl
  · refine settled_putCore ?_
    split
    · exact settled_spStore hsettled _ _ _
    · exact hsettled

/-- ADVANCE. -/
theorem dmaAdvance_advances (hserves : serving s.hub = true) (hquiet : s.hub.ras.injection = none)
    (hhead : dmaHead k q 4 s.hub = .desc e d) (halone : pairJoined s.hub = false) (hhere : nbits d.addr 55 46 = moduleId s.hub) :
    let x := getCtx k e.ctx s.hub
    let a := advance (w64 d.operand) (.frame (moduleId s.hub) k x.tenant) s.hub
    a.1 = advOk → Settled (emuDrain a.2) →
    exec (.dmaAdvance k q) s = .next { s with hub := putCmd k (dmaQueue q) { e with started := true } (emuDrain a.2) } := by
  intro x a hok hsettled
  have hcore : coreUnit k s.hub = k := by simp [coreUnit, halone]
  have hunit : unitElsewhere 0x82 s.hub = false := by simp [unitElsewhere, halone]
  refine exec_unit hserves rfl ?_ (settled_putCore hsettled)
  unfold dmaAdvance
  simp only [a, x] at hok
  simp only [dmaLook_of_quiet hquiet, hhead, dmaCtlFrame, hhere, hunit, hcore, hok, Bool.not_false, Bool.and_true, decide_true, if_true,
    dmaCtlLocal]
  rfl

/-- PIGEON. -/
theorem dmaPigeon_sends (hserves : serving s.hub = true) (hquiet : s.hub.ras.injection = none)
    (hhead : dmaHead k q 5 s.hub = .desc e d) (halone : pairJoined s.hub = false) (hhere : nbits d.addr 55 46 = moduleId s.hub) :
    let x := getCtx k e.ctx s.hub
    let f := dmaCtlFrame k 0x12 0x87 d x s.hub
    let w := pigeonTake f s
    pigeonFormOk f = true → w.1.1 = stOk → Settled w.2.hub →
    exec (.dmaPigeon k q) s = .next (onHub (putCmd k (dmaQueue q) { e with started := true }) w.2) := by
  intro x f w hform hok hsettled
  have hunit : unitElsewhere 0x87 s.hub = false := by simp [unitElsewhere, halone]
  have hlook : onHub (dmaLook k q) s = s := by rw [onHub, dmaLook_of_quiet hquiet]
  have hmodule : f.dstModule = moduleId s.hub := hhere
  have hsend : dmaPigeon k q s = onHub (putCmd k (dmaQueue q) { e with started := true }) w.2 := by
    unfold dmaPigeon
    simp only [w, f, x] at hok
    simp only [f, x] at hform hmodule
    simp only [hlook, hhead, hmodule, hunit, hform, hok, Bool.not_false, Bool.and_true, decide_true, if_true, Bool.not_true,
      Bool.false_eq_true, if_false]
    rfl
  change Host.Outcome.next (if serving s.hub then onHub svcSettle (dmaPigeon k q s) else s) = _
  rw [if_pos hserves, hsend]
  exact congrArg (fun h => Host.Outcome.next { w.2 with hub := h }) (svcSettle_idle (settled_putCore hsettled))

/-- A command whose work is done leaves its engine's queue. -/
theorem engineFinish_leaves (hserves : serving s.hub = true) (g : EngineId) (hsettled : Settled s.hub)
    (hq : queueOf g (getCore k s.hub) = [e]) (hstarted : e.started = true) (hwaits : e.waits = 0) (htodo : e.todo = [])
    (hending : (getCtx k e.ctx s.hub).ending = none) :
    exec (.engineCommandFinish k g) s = .next { s with hub := putCore k (setQueue g [] (getCore k s.hub)) s.hub } := by
  have hdrop : dropCmd k g e.n s.hub = putCore k (setQueue g [] (getCore k s.hub)) s.hub := by
    rw [dropCmd, hq]
    simp
  have hempty : queueOf g (getCore k (putCore k (setQueue g [] (getCore k s.hub)) s.hub)) = [] := by
    rw [getCore_putCore_same, queueOf_setQueue]
  have hkept : (getCtx k e.ctx (putCore k (setQueue g [] (getCore k s.hub)) s.hub)).ending = none := by
    rw [getCtx_putCore setQueue_ctxs]
    exact hending
  refine exec_unit hserves rfl ?_ (settled_putCore hsettled)
  unfold engineFinish
  simp only [hq, hstarted, hwaits, htodo, hdrop, settleCtx_of_not_ending hkept, runEngine_of_empty hempty, beq_self_eq_true,
    Bool.and_true, if_true, ite_self]

/-- A held SIGNAL whose condition is met. -/
theorem signalApply_adds (hserves : serving s.hub = true) (c : Fin 8) (g : HeldSignal) (rest : List HeldSignal) :
    let x := getCtx k c s.hub
    let t := if g.core = 0xFF then k.val else g.core
    Settled s.hub → x.signals = g :: rest → x.ending = none → signalReady (coreUnit k s.hub) g (getCore k s.hub) = true →
    pairJoined s.hub = false → coreServes t s.hub = true → (∀ e ∈ (getCore t s.hub).ctxs, e.2.st ≠ .waiting) → x.st ≠ .waiting →
    HubAnswers (.signalApply k c) s (fun h => semVal t g.sem h = (semVal t g.sem s.hub + g.imm) % 2 ^ 32 ∧
      getCtx k c h = { x with signals := rest } ∧ SameMemory s.hub h) := by
  intro x t hsettled hsignals hending hready halone ht hwait hx
  generalize hy : ({ x with signals := rest } : Ctx) = y
  have hst : y.st ≠ .waiting := hy ▸ hx
  have happly := applySignal_adds (k := k) (target := g.core) (sem := g.sem) (imm := g.imm) (h := putCtx k c y s.hub) (t := t) rfl halone
    ((coreServes_of (b := putCtx k c y s.hub) (a := s.hub) rfl getCore_putCtx_st).trans ht) (no_wait_putCtx hst hwait)
  have hctx : getCtx k c (applySignal k g.core g.sem g.imm (putCtx k c y s.hub)) = y := by
    rw [happly]
    refine (getCtx_putCore ?_).trans getCtx_putCtx_same
    rfl
  have hsettle : settleCtx k c (applySignal k g.core g.sem g.imm (putCtx k c y s.hub)) =
      applySignal k g.core g.sem g.imm (putCtx k c y s.hub) :=
    settleCtx_of_not_ending (by rw [hctx, ← hy]; exact hending)
  have hrow : signalApply k c s.hub = applySignal k g.core g.sem g.imm (putCtx k c y s.hub) := by
    unfold signalApply
    simp only [x] at hsignals hy
    simp only [hsignals, hready, if_true, hy, hsettle]
  refine ⟨_, exec_unit hserves rfl hrow ?_, rfl, rfl, ?_, hctx, ?_⟩
  · rw [happly]
    exact hsettled
  · rw [happly, semVal_putCore_sems, semVal_putCtx]
  · rw [happly]
    exact ⟨rfl, rfl⟩

end EngineActs

/-- Settles O32: each kind of descriptor, the end of a command, the line buffers and a held SIGNAL by a lemma of its own. -/
theorem enginesAct : Obligations.EnginesAct := by
  intro k q s hserves hquiet
  refine ⟨fun e d hhere => ⟨dmaIn_reads hserves hquiet hhere, dmaOut_starts hserves hquiet hhere, dmaAtomic_applies hserves hquiet hhere,
    dmaAdvance_advances hserves hquiet, dmaPigeon_sends hserves hquiet⟩, fun g e => engineFinish_leaves hserves g, ?_,
    signalApply_adds hserves⟩
  change Host.Outcome.next (if serving s.hub then onHub (bufExpire k q) s else s) = _
  rw [if_pos hserves]
  rfl

end Sys2Proof.Proofs

/-!
PROOFS. WORK frames at the cores, the Embedding Unit and the Search Unit (R345, R355, R443 to R482): the path of a frame to its
unit, and what is sent on the way to a requester.
-/
namespace Sys2Proof.Proofs

open Machine Safety Laws

section Ways

variable {a b c h : Hub} {p : Nat} {f g : Frame} {s : State}

/-- What the switch core looks at, what the units hold and the memory are as before: reports, meters, tags and frames that leave
change nothing of them. -/
structure WaysSame (a b : Hub) : Prop extends SameGate a b where
  routes : b.routes = a.routes
  mem : b.mem = a.mem
  poison : b.poison = a.poison
  emb : b.emb = a.emb

theorem waysSame_of_switch (hgate : SameGate a b) (hswitch : SwitchOnly a b) : WaysSame a b :=
  ⟨hgate, hswitch.routes, hswitch.mem, hswitch.poison, hswitch.emb⟩

theorem WaysSame.refl (h : Hub) : WaysSame h h := ⟨⟨fun _ _ _ => rfl, rfl, rfl, rfl, id⟩, rfl, rfl, rfl, rfl⟩

theorem WaysSame.trans (x : WaysSame a b) (y : WaysSame b c) : WaysSame a c :=
  ⟨x.toSameGate.trans y.toSameGate, y.routes.trans x.routes, y.mem.trans x.mem, y.poison.trans x.poison, y.emb.trans x.emb⟩

theorem waysSame_sendFrame (f : Frame) (h : Hub) : WaysSame h (sendFrame f h) :=
  waysSame_of_switch (sameGate_of (sendFrame_moves steady_moves f h) (sendFrame_switch f h) (sendFrame_moves uninjected_moves f h))
    (sendFrame_switch f h)

theorem waysSame_atUnit (p : Nat) (f : Frame) (h : Hub) : WaysSame h (atUnit p f h) :=
  (waysSame_of_switch (frameNoted_gate p f h) (frameNoted_switch p f h)).trans
    ⟨⟨fun _ _ _ => rfl, rfl, rfl, rfl, id⟩, rfl, rfl, rfl, rfl⟩

theorem WaysSame.ite {q : Prop} [Decidable q] (x : WaysSame a b) (y : WaysSame a c) : WaysSame a (if q then b else c) := by
  split <;> assumption

theorem waysSame_meter (m : MeterBlk) (h : Hub) : WaysSame h { h with meter := m } :=
  ⟨⟨fun _ _ _ => rfl, rfl, rfl, rfl, id⟩, rfl, rfl, rfl, rfl⟩

theorem waysSame_nextTag (n : Nat) (h : Hub) : WaysSame h { h with nextTag := n } :=
  ⟨⟨fun _ _ _ => rfl, rfl, rfl, rfl, id⟩, rfl, rfl, rfl, rfl⟩

theorem waysSame_outstanding (l : List Outstanding) (h : Hub) : WaysSame h { h with outstanding := l } :=
  ⟨⟨fun _ _ _ => rfl, rfl, rfl, rfl, id⟩, rfl, rfl, rfl, rfl⟩

theorem waysSame_overflow (page bit kind : Nat) (d : List Byte) (h : Hub) :
    WaysSame h (armoireAppend kind d (raiseQuiet page bit h)) :=
  have hmoves {R : Hub → Hub → Prop} (m : Moves R) : R h (armoireAppend kind d (raiseQuiet page bit h)) :=
    m.trans (raiseQuiet_moves m _ _ _) (armoireAppend_moves m _ _ _)
  waysSame_of_switch (sameGate_of (hmoves steady_moves) (hmoves switch_moves) (hmoves uninjected_moves)) (hmoves switch_moves)

theorem waysSame_meterAdd (tenant i n : Nat) (h : Hub) : WaysSame h (meterAdd tenant i n h) := by
  unfold meterAdd
  refine .ite (.refl h) (.ite ?_ (waysSame_meter _ h))
  exact (waysSame_meter _ h).trans (waysSame_overflow _ _ _ _ _)

theorem waysSame_allocTag (h : Hub) : WaysSame h (allocTag h).2 := by
  unfold allocTag
  split
  · exact waysSame_nextTag _ h
  · exact waysSame_nextTag _ h

theorem WaysSame.reachable (w : WaysSame a b) (m u : Nat) : Safety.reachable m u b = Safety.reachable m u a := by
  simp only [Safety.reachable, w.toSameGate.moduleId, agentPort_of_gate w.toSameGate, routeOf, w.routes]

/-- R264, R275: a request of level 1 whose target can be reached is sent. -/
theorem issueRemote_sends (hlevel : levelOf f = 1) (hreach : Safety.reachable f.dstModule f.dstUnit h = true) (u : Purpose) :
    ∃ h1, issueRemote f u h = .ok h1 ∧ WaysSame h h1 := by
  have hsent (f1 : Frame) (l : List Outstanding) : WaysSame h (sendFrame f1 { (allocTag h).2 with outstanding := l }) :=
    (waysSame_allocTag h).trans ((waysSame_outstanding l _).trans (waysSame_sendFrame f1 _))
  unfold issueRemote
  rw [if_neg (by omega)]
  dsimp only
  unfold Safety.reachable at hreach
  by_cases hhere : f.dstModule = moduleId h
  · rw [if_pos hhere] at hreach
    rw [if_pos hhere, if_pos hreach]
    exact ⟨_, rfl, hsent _ _⟩
  · rw [if_neg hhere] at hreach
    rw [if_neg hhere]
    cases hroute : routeOf f.dstModule none h with
    | ring e => exact ⟨_, rfl, hsent _ _⟩
    | client q => exact ⟨_, rfl, hsent _ _⟩
    | dead => rw [hroute] at hreach; cases hreach
    | absent => rw [hroute] at hreach; cases hreach

theorem localArrive_work {u : Nat} {bridge : Bool} (hdst : g.dstUnit = u) (hu : u < 0x40 ∨ 0x83 ≤ u ∧ u ≤ 0x86) (hop : g.opcode = 0x11)
    (hposted : g.posted = false) : localArrive p bridge g s = unitArrive p g s := by
  have hrefused : noRequests g.dstUnit s.hub = false := by
    simp only [noRequests, hdst, Bool.or_eq_false_iff, Bool.and_eq_false_iff, decide_eq_false_iff_not]
    omega
  have htakes : unitTakes g.dstUnit 0x11 = true := by
    rw [unitTakes, hdst, if_neg (by omega), if_neg (by omega), if_neg (by omega), if_neg (by omega)]
    rfl
  simp [localArrive, hop, hposted, hrefused, htakes, definedOpcode, postedOpcode, show ¬0xC0 ≤ g.dstUnit by omega,
    show g.dstUnit ≠ 0x80 by omega, show g.dstUnit ≠ 0x81 by omega]

/-- R529: a WORK frame in form, which no shaper holds back, is worked at its unit. -/
theorem unitArrive_work (hform : unitFormOk g = true) (hclean : poisonedControl g = false) (hshapers : s.hub.shapers = [])
    (halone : pairJoined s.hub = false) (hop : g.opcode = 0x11) :
    unitArrive p g s = onHub (fun h => workFrame p g (newReq h).2) s := by
  have helse (v : Nat) : unitElsewhere v (newReq s.hub).2 = false := by
    rw [unitElsewhere, show pairJoined (newReq s.hub).2 = false from halone, Bool.false_and]
  unfold unitArrive
  simp only [hform, Bool.not_true, Bool.false_eq_true, if_false, onShapers,
    shapeIn_free (h := (newReq s.hub).2) _ hshapers, deliverList, List.foldl_cons, List.foldl_nil, deliverAny, hop, true_or, or_true, if_true,
    deliverUnit, helse, hclean, Nat.reduceEqDiff, sourcePort, onHub]

/-- R249, R529: a taken WORK frame goes to its unit. -/
theorem frameRow_work {u : Nat} (hmeets : meetsWork p g u s = true) (hu : u < 0x40 ∨ 0x83 ≤ u ∧ u ≤ 0x86) (hop : g.opcode = 0x11) :
    frameRow p g s = .next { s with hub := workFrame p g (atUnit p g s.hub) } := by
  simp only [meetsWork, Bool.and_eq_true, Bool.not_eq_true', beq_iff_eq] at hmeets
  obtain ⟨⟨⟨hunit, hform⟩, hclean⟩, hshapers⟩ := hmeets
  have hdst : g.dstUnit = u := by
    simp only [meetsUnit, Bool.and_eq_true, beq_iff_eq] at hunit
    obtain ⟨⟨-, hdst⟩, -⟩ := hunit
    exact hdst
  have hposted : g.posted = false := by
    unfold unitFormOk at hform
    cases hposted : g.posted
    · rfl
    · simp [hposted] at hform
  rw [frameRow_unit hunit (by omega), localArrive_work hdst hu hop hposted, unitArrive_work hform hclean
    ((frameNoted_switch p g s.hub).shapers.trans hshapers) (frameNoted_alone (alone_of_meetsUnit hunit) p g) hop]
  rfl

/-- A row of such a frame answers what its unit does. -/
theorem work_answers {u : Nat} {i : Instr} {P : Hub → Prop} (hexec : exec i s = frameRow p g s) (hmeets : meetsWork p g u s = true)
    (hu : u < 0x40 ∨ 0x83 ≤ u ∧ u ≤ 0x86) (hop : g.opcode = 0x11) (hP : P (workFrame p g (atUnit p g s.hub))) : HubAnswers i s P :=
  hubAnswers_of_row hexec (frameRow_work hmeets hu hop) hP

end Ways

/-! ### WORK at a core (R345, R355) -/

section CoreWork

variable {p : Fin 28} {f : Frame} {k : Nat} {s : State}

/-- What a link notes of a frame changes no core. -/
theorem getCtx_atUnit (p : Nat) (g : Frame) (c : Nat) (h : Hub) : getCtx k c (atUnit p g h) = getCtx k c h :=
  getCtx_of_cores (frameNoted_switch p g h).cores k c

theorem coreServes_atUnit (p : Nat) (g : Frame) (h : Hub) : coreServes k (atUnit p g h) = coreServes k h :=
  coreServes_of (frameNoted_switch p g h).boot (congrArg Core.st (getCore_of_cores (frameNoted_switch p g h).cores k))

theorem coreUnit_of_twin {a b : Hub} (htwin : b.twin = a.twin) : coreUnit k b = coreUnit k a := by
  rw [coreUnit, coreUnit, pairJoined, pairJoined, htwin]

/-- R350: a context that starts. -/
theorem getCtx_startCtx {c entry starter : Nat} {args : List Word} {h : Hub} : getCtx k c (startCtx k c entry args starter h) =
    { getCtx k c h with
      st := .running, pc := entry, regs := startRegs args c (coreUnit k h), starter := starter, startedAt := h.devTime
      tenant := fld (getCtx k c h).bind 43 32, asid := fld (getCtx k c h).bind 31 16, wait := none, fence := [], marks := []
      signals := [], ending := none, sawPoison := false } := getCtx_putCtx_same

/-- R355: a WORK frame that its core takes starts the context it names. -/
theorem coreWork_starts {g : Frame} {c : Nat} {h : Hub} (hlen : g.payload.length = 40) (hlow : nbits (leAt g.payload 0 8) 15 3 = 0)
    (hmid : nbits (leAt g.payload 0 8) 30 29 = 0) (hhigh : nbits (leAt g.payload 0 8) 63 32 = 0) (hc : nbits (leAt g.payload 0 8) 2 0 = c)
    (hserves : coreServes k h = true) (hgsa : bitOf (getCtx k c h).bind 44 = true) (htenant : fld (getCtx k c h).bind 43 32 = g.tenant)
    (hready : (getCtx k c h).st = .ready) :
    coreWork k g h = ((stOk, 0), startCtx k c (if (leAt g.payload 0 8).testBit 31 then nbits (leAt g.payload 0 8) 28 16 else (getCtx k c h).entry)
      ((List.range 4).map (fun j => w64 (leAt g.payload (8 + 8 * j) 8))) (mkFld 9 0 g.srcModule + mkFld 17 10 g.srcUnit) h) := by
  unfold coreWork
  simp [hlen, hlow, hmid, hhigh, hc, hserves, hgsa, htenant, hready]

/-- WORK at a core. -/
theorem work_starts (c : Nat) :
    let g := toUnit k (asOp 0x11 f)
    let w := leAt f.payload 0 8
    let x := getCtx k c s.hub
    k < 64 → f.dstUnit % 128 = k → meetsWork p g k s = true → f.payload.length = 40 → nbits w 15 3 = 0 → nbits w 30 29 = 0 →
      nbits w 63 32 = 0 → nbits w 2 0 = c → coreServes k s.hub = true → bitOf x.bind 44 = true → fld x.bind 43 32 = f.tenant → x.st = .ready →
      HubAnswers (.work p f) s (fun h => SameMemory s.hub h ∧ answers g 0 0 0 0 h ∧
        getCtx k c h = { x with
          st := .running, pc := if w.testBit 31 then nbits w 28 16 else x.entry
          regs := startRegs ((List.range 4).map (fun j => w64 (leAt f.payload (8 + 8 * j) 8))) c (coreUnit k s.hub)
          starter := mkFld 9 0 f.srcModule + mkFld 17 10 f.srcUnit, startedAt := s.hub.devTime, tenant := f.tenant
          asid := fld x.bind 31 16, wait := none, fence := [], marks := [], signals := [], ending := none, sawPoison := false }) := by
  intro g w x hk hdst hmeets hlen hlow hmid hhigh hc hserves hgsa htenant hready
  have hways := waysSame_atUnit p g s.hub
  have hctx : getCtx k c (atUnit p g s.hub) = x := getCtx_atUnit p g c s.hub
  have hcore : coreOfUnit k (atUnit p g s.hub) = k := by
    have halone : pairJoined (atUnit p g s.hub) = false := by
      simp only [meetsWork, Bool.and_eq_true] at hmeets
      obtain ⟨⟨⟨hunit, -⟩, -⟩, -⟩ := hmeets
      exact frameNoted_alone (alone_of_meetsUnit hunit) p g
    rw [coreOfUnit, halone]
    rfl
  have hstarts := coreWork_starts (k := k) (g := g) (c := c) (h := atUnit p g s.hub) hlen hlow hmid hhigh hc
    ((coreServes_atUnit p g s.hub).trans hserves) (by rw [hctx]; exact hgsa) (by rw [hctx]; exact htenant) (by rw [hctx]; exact hready)
  have hexec : exec (.work p f) s = frameRow p g s := by simp only [g, ← hdst]; rfl
  refine work_answers hexec hmeets (.inl hk) rfl ?_
  have hrow : workFrame p g (atUnit p g s.hub) = coreFrame g (atUnit p g s.hub) := if_pos (show k < 0x80 by omega)
  rw [hrow, coreFrame, show g.dstUnit = k from rfl, hcore, hstarts, hctx]
  refine ⟨?_, ⟨_, rfl⟩, ?_⟩
  · exact ⟨(sendFrame_mem _ _).trans hways.mem, (sendFrame_poison _ _).trans hways.poison⟩
  · refine (getCtx_of_cores (sendFrame_cores _ _) k c).trans (getCtx_startCtx.trans ?_)
    rw [hctx, htenant, coreUnit_of_twin hways.twin, show (atUnit p g s.hub).devTime = s.hub.devTime from (frameNoted_switch p g s.hub).devTime]
    rfl

end CoreWork

/-! ### Embedding requests (R444 to R456) -/

section EmbeddingRequests

variable {r : EmuReq} {t : EmbTable} {h : Hub}

/-- What sending for a request leaves: it has not failed, nothing of it is less, and no unit, memory or way has changed. -/
structure SendsFor (r : EmuReq) (h : Hub) (s : EmuReq × Hub) : Prop where
  fail : s.1.fail = 0
  reads : r.reads ≤ s.1.reads
  n : s.1.n = r.n
  frame : s.1.frame = r.frame
  table : s.1.table = r.table
  started : s.1.started = r.started
  ways : WaysSame h s.2

/-- R444: each read or write goes to a requester that can be reached. -/
theorem emuFrame_sends (hreach : reachable r.frame.srcModule r.frame.srcUnit h = true) {op : Nat} (hop : op ≤ 2) (a n : Nat) (bs : List Byte)
    (poison : Bool) (u : Purpose) : ∃ h1, issueRemote (emuFrameTo r.frame op a n bs poison) u h = .ok h1 ∧ WaysSame h h1 := by
  refine issueRemote_sends ?_ hreach u
  rw [levelOf, if_neg]
  simp only [emuFrameTo]
  omega

theorem emuSend_sends (fuel : Nat) : ∀ (r : EmuReq) (h : Hub), reachable r.frame.srcModule r.frame.srcUnit h = true → r.fail = 0 →
    SendsFor r h (emuSend fuel r h) := by
  induction fuel with
  | zero => exact fun r h _ hfail => ⟨hfail, le_rfl, rfl, rfl, rfl, rfl, .refl h⟩
  | succ fuel ih =>
    intro r h hreach hfail
    unfold emuSend
    split
    · exact ⟨hfail, le_rfl, rfl, rfl, rfl, rfl, .refl h⟩
    · split
      next k off a n rest htodo =>
        obtain ⟨h1, hsent, hways⟩ := emuFrame_sends hreach (op := 1) (by omega) a n [] false (.emuRead r.n (kindCode k) off)
        rw [hsent]
        have hrest := ih { r with todo := rest, reads := r.reads + 1 } h1 ((hways.reachable _ _).trans hreach) hfail
        exact ⟨hrest.fail, (Nat.le_succ _).trans hrest.reads, hrest.n, hrest.frame, hrest.table, hrest.started, hways.trans hrest.ways⟩
      next =>
        split
        next a bs q rest hout =>
          obtain ⟨h1, hsent, hways⟩ := emuFrame_sends hreach (op := 2) (by omega) a bs.length bs q (.emuWrite r.n)
          rw [hsent]
          have hrest := ih { r with outq := rest, writes := r.writes + 1 } h1 ((hways.reachable _ _).trans hreach) hfail
          exact ⟨hrest.fail, hrest.reads, hrest.n, hrest.frame, hrest.table, hrest.started, hways.trans hrest.ways⟩
        next => exact ⟨hfail, le_rfl, rfl, rfl, rfl, rfl, .refl h⟩

/-- A request with reads to do and nothing outstanding sends at least one. -/
theorem emuSend_reads {fuel : Nat} (hreach : reachable r.frame.srcModule r.frame.srcUnit h = true) (hfail : r.fail = 0)
    (hidle : r.reads + r.writes = 0) (htodo : r.todo ≠ []) :
    SendsFor r h (emuSend (fuel + 1) r h) ∧ 0 < (emuSend (fuel + 1) r h).1.reads := by
  refine ⟨emuSend_sends _ r h hreach hfail, ?_⟩
  obtain ⟨⟨k, off, a, n⟩, rest, htodo⟩ := List.exists_cons_of_ne_nil htodo
  obtain ⟨h1, hsent, hways⟩ := emuFrame_sends hreach (op := 1) (by omega) a n [] false (.emuRead r.n (kindCode k) off)
  have hrest := emuSend_sends fuel { r with todo := rest, reads := r.reads + 1 } h1 ((hways.reachable _ _).trans hreach) hfail
  unfold emuSend
  rw [if_neg (by omega)]
  simp only [htodo, hsent]
  exact Nat.lt_of_lt_of_le (Nat.succ_pos _) hrest.reads

theorem findReq_one (hreqs : h.emb.reqs = [r]) : findReq r.n h = some r := by
  simp [findReq, hreqs]

theorem putReq_one {r0 : EmuReq} (hreqs : h.emb.reqs = [r0]) (hn : r0.n = r.n) : (putReq r h).emb.reqs = [r] := by
  simp [putReq, setEmb, hreqs, hn]

/-- R446, R448: the one request, with reads to do, sends them and waits. -/
theorem emuGo_reads {fuel : Nat} (hreqs : h.emb.reqs = [r]) (htable : getTable r.table h = some t)
    (hreach : reachable r.frame.srcModule r.frame.srcUnit h = true) (hfail : r.fail = 0) (hidle : r.reads + r.writes = 0) (htodo : r.todo ≠ []) :
    ∃ s : EmuReq × Hub, emuGo (fuel + 1) r.n h = putReq s.1 s.2 ∧ SendsFor r h s ∧ 0 < s.1.reads := by
  obtain ⟨hsends, hreads⟩ := emuSend_reads (fuel := 127) hreach hfail hidle htodo
  refine ⟨emuSend 128 r h, ?_, hsends, hreads⟩
  unfold emuGo
  simp only [findReq_one hreqs, htable]
  have hpending : (emuSend 128 r h).1.reads + (emuSend 128 r h).1.writes ≠ 0 := by
    have hpos : 0 < (emuSend 128 r h).1.reads := hreads
    omega
  rw [if_neg (not_not.mpr hsends.fail), if_pos (.inl hpending)]

/-- A request with nothing to send is left as it is. -/
theorem emuSend_idle {fuel : Nat} (htodo : r.todo = []) (hout : r.outq = []) : emuSend (fuel + 1) r h = (r, h) := by
  unfold emuSend
  simp only [htodo, hout, ite_self]

/-- R446: the one request, new, takes up its first window. -/
theorem emuGo_window {fuel : Nat} (hreqs : h.emb.reqs = [r]) (htable : getTable r.table h = some t) (hfail : r.fail = 0)
    (hidle : r.reads + r.writes = 0) (htodo : r.todo = []) (hout : r.outq = []) (hop : emuOp r.frame ≠ 2) (hpos : r.pos ≠ emuCount r.frame)
    (hidx : r.idx = []) :
    emuGo (fuel + 1) r.n h = emuGo fuel r.n (putReq { r with todo := windowReads r t.d } (putReq r h)) := by
  rw [emuGo]
  simp only [findReq_one hreqs, htable, emuSend_idle htodo hout, hfail, hidle, htodo, hout, hop, hpos, hidx, ne_eq, not_true_eq_false,
    or_self, if_false, false_and, if_true]

theorem cutRange_nonempty {fuel off a n : Nat} (hn : n ≠ 0) : cutRange (fuel + 1) off a n ≠ [] := by
  rw [cutRange, if_neg hn]
  exact List.cons_ne_nil _ _

theorem readsOf_nonempty {kind : EmuKind} {base off n : Nat} (hn : n ≠ 0) : readsOf kind base off n ≠ [] := by
  rw [readsOf]
  exact fun hnil => cutRange_nonempty hn (List.map_eq_nil_iff.mp hnil)

/-- R446: a window reads its indices. -/
theorem windowReads_nonempty (d : EmbDesc) (hpos : r.pos < emuCount r.frame) : windowReads r d ≠ [] := by
  have hlen : 8 * windowLen r ≠ 0 := by rw [windowLen]; omega
  rw [windowReads]
  simp [readsOf_nonempty hlen]

/-- R51: a value and the next one. -/
theorem serialCmp_next {a b n : Nat} (hn : 2 ≤ n) (hb : b = (a + 1) % 2 ^ n) : serialCmp a b n = .after := by
  have hhalf : 2 ^ n = 2 * 2 ^ (n - 1) := by rw [← pow_succ', Nat.sub_add_cancel (by omega)]
  have hquarter : 2 ≤ 2 ^ (n - 1) := Nat.le_self_pow (by omega) 2
  have hdist : (b % 2 ^ n + 2 ^ n - a % 2 ^ n) % 2 ^ n = 1 := by
    rw [hb, Nat.mod_mod, Nat.add_mod, Nat.mod_eq_of_lt (show 1 < 2 ^ n by omega)]
    have hlt : a % 2 ^ n < 2 ^ n := Nat.mod_lt _ (by omega)
    generalize a % 2 ^ n = r at hlt
    generalize 2 ^ n = m at hlt hhalf
    obtain heq | hne := eq_or_ne (r + 1) m
    · rw [heq, Nat.mod_self, show 0 + m - r = 1 by omega, Nat.mod_eq_of_lt (by omega)]
    · rw [Nat.mod_eq_of_lt (show r + 1 < m by omega), show r + 1 + m - r = 1 + m by omega, Nat.add_mod_right, Nat.mod_eq_of_lt (by omega)]
  unfold serialCmp
  simp only [hdist]
  rw [if_neg (by omega), if_neg (by omega), if_pos (by omega)]

/-- R445: a request that is not malformed has positions. -/
theorem emuCount_of_ok {f : Frame} {d : EmbDesc} (hok : emuBad f d = false) : emuCount f ≠ 0 := by
  simp only [emuBad, Bool.or_eq_false_iff, beq_eq_false_iff_ne] at hok
  obtain ⟨⟨⟨⟨⟨⟨⟨⟨⟨-, hcount⟩, -⟩, -⟩, -⟩, -⟩, -⟩, -⟩, -⟩, -⟩ := hok
  exact hcount

/-- A new request. -/
def newEmuReq (f : Frame) (i : Nat) (h : Hub) : EmuReq := { n := h.emb.nextReq, frame := f, table := i }

/-- The hub in which a request is admitted and charged. -/
def emuAdmitted (f : Frame) (i : Nat) (h : Hub) : Hub :=
  setEmb { h.emb with reqs := h.emb.reqs ++ [newEmuReq f i h], nextReq := h.emb.nextReq + 1 } (meterAdd f.tenant 6 1 h)

/-- R445: a request that passes its checks at a table that is not applying is admitted. -/
theorem emuRequest_admits {f : Frame} (hlen : f.len = 64) (hpayload : f.payload.length = 64) (hroom : h.emb.reqs = [])
    (henabled : enabled embPage h = true) (htable : getTable (nbits (emuWord f 0) 7 0) h = some t) (hloaded : t.unloading = false)
    (htenant : f.tenant = t.d.tenant) (hok : emuBad f t.d = false) (hstep : emuOp f = 3 → nbits (emuWord f 6) 63 32 = (t.lastStep + 1) % 2 ^ 32)
    (happlying : t.applying = none) :
    emuRequest f h = emuPump (emuAdmitted f (nbits (emuWord f 0) 7 0) h) := by
  have hstale : (emuOp f == 3 && (serialCmp t.lastStep (nbits (emuWord f 6) 63 32) 32 != .after)) = false := by
    by_cases hop : emuOp f = 3
    · rw [serialCmp_next (by norm_num) (hstep hop)]
      simp
    · simp [hop]
  unfold emuRequest
  simp only [hlen, hpayload, hroom, henabled, htable, hloaded, htenant, hok, happlying, Bool.or_false, hstale, Bool.false_eq_true,
    if_false, ne_eq, not_true_eq_false, or_self, List.length_nil, Bool.not_true, show ¬64 ≤ 0 by norm_num]
  rw [emuAdmitted, newEmuReq, hroom, htenant]

/-- The one request r is under way: its reads are out, and no table and no memory has changed. -/
def ReadsOut (r : EmuReq) (h h1 : Hub) : Prop :=
  SameMemory h h1 ∧ h1.emb.tables = h.emb.tables ∧
    ∃ r1, h1.emb.reqs = [r1] ∧ r1.n = r.n ∧ r1.frame = r.frame ∧ r1.table = r.table ∧ r1.started = true ∧ 0 < r1.reads

theorem readsOut_of_sends {s : EmuReq × Hub} (hreqs : h.emb.reqs = [r]) (hstarted : r.started = true) (hsends : SendsFor r h s)
    (hreads : 0 < s.1.reads) : ReadsOut r h (putReq s.1 s.2) := by
  have hemb := hsends.ways.emb
  have hreqs1 : s.2.emb.reqs = [r] := (congrArg Emb.reqs hemb).trans hreqs
  have htables : s.2.emb.tables = h.emb.tables := congrArg Emb.tables hemb
  exact ⟨⟨hsends.ways.mem, hsends.ways.poison⟩, htables, s.1, putReq_one hreqs1 hsends.n.symm, hsends.n, hsends.frame, hsends.table,
    hsends.started.trans hstarted, hreads⟩

/-- What is said of a request and its hub says no more of them than its number, frame and table, the memory and the tables. -/
theorem ReadsOut.of_same {r1 : EmuReq} {h1 h2 : Hub} (hout : ReadsOut r1 h1 h2) (hn : r1.n = r.n) (hframe : r1.frame = r.frame)
    (htable : r1.table = r.table) (hmem : SameMemory h h1) (htables : h1.emb.tables = h.emb.tables) : ReadsOut r h h2 := by
  obtain ⟨⟨hm, hp⟩, ht, q, hreqs, qn, qframe, qtable, hstarted, hreads⟩ := hout
  exact ⟨⟨hm.trans hmem.1, hp.trans hmem.2⟩, ht.trans htables, q, hreqs, qn.trans hn, qframe.trans hframe, qtable.trans htable, hstarted, hreads⟩

/-- R446, R450: the one request, started, sends the reads of its bags or of its first window. -/
theorem emuGo_starts {fuel : Nat} (hreqs : h.emb.reqs = [r]) (htable : getTable r.table h = some t)
    (hreach : reachable r.frame.srcModule r.frame.srcUnit h = true) (hstarted : r.started = true) (hfail : r.fail = 0)
    (hidle : r.reads + r.writes = 0) (hout : r.outq = []) (hpos : r.pos < emuCount r.frame) (hidx : r.idx = [])
    (htodo : emuOp r.frame = 2 ∧ r.todo ≠ [] ∨ emuOp r.frame ≠ 2 ∧ r.todo = []) :
    ReadsOut r h (emuGo (fuel + 2) r.n h) := by
  obtain ⟨-, htodo⟩ | ⟨hop, htodo⟩ := htodo
  · obtain ⟨s, hgo, hsends, hreads⟩ := emuGo_reads (fuel := fuel + 1) hreqs htable hreach hfail hidle htodo
    rw [hgo]
    exact readsOut_of_sends hreqs hstarted hsends hreads
  · rw [emuGo_window hreqs htable hfail hidle htodo hout hop hpos.ne hidx]
    have hreqs1 : (putReq { r with todo := windowReads r t.d } (putReq r h)).emb.reqs = [{ r with todo := windowReads r t.d }] :=
      putReq_one (putReq_one hreqs rfl) rfl
    obtain ⟨s, hgo, hsends, hreads⟩ := emuGo_reads (r := { r with todo := windowReads r t.d }) (fuel := fuel) hreqs1 htable
      hreach hfail hidle (windowReads_nonempty t.d hpos)
    have hsent := readsOut_of_sends hreqs1 hstarted hsends hreads
    rw [← hgo] at hsent
    exact hsent.of_same rfl rfl rfl ⟨rfl, rfl⟩ rfl

/-- R451: a request as it starts. -/
def startedReq (r : EmuReq) : EmuReq :=
  { r with started := true
           todo := if emuOp r.frame = 2 then readsOf .bag (nbits (emuWord r.frame 4) 56 0) 0 (4 * (bagsOf r.frame + 1)) else [] }

/-- R451, R456: the one request, which may start, does. -/
theorem emuPump_starts (hreqs : h.emb.reqs = [r]) (htable : getTable r.table h = some t) (hqueued : r.started = false)
    (hstep : emuOp r.frame = 3 → nbits (emuWord r.frame 6) 63 32 = (t.lastStep + 1) % 2 ^ 32) (happlying : t.applying = none) :
    emuPump h = emuGo emuFuel r.n (putReq (startedReq r) h) := by
  have hfresh : staleReq r t = false := by
    unfold staleReq
    by_cases hop : emuOp r.frame = 3
    · rw [serialCmp_next (by norm_num) (hstep hop)]
      simp
    · simp [hop]
  have hmay : mayStart r t = true := by
    simp only [mayStart, happlying, Option.isNone_none, Bool.true_and, Bool.or_eq_true, bne_iff_ne, beq_iff_eq]
    exact (em (emuOp r.frame = 3)).elim (fun hop => .inr (hstep hop)) .inl
  simp only [emuPump, hreqs, List.foldl_cons, List.foldl_nil, findReq_one hreqs, htable, hqueued, hfresh, hmay, Bool.false_eq_true, if_false,
    if_true]
  rfl

/-- R451: the one request of a unit, ready to start, has its reads out after the pump. -/
theorem emuPump_reads (hreqs : h.emb.reqs = [r]) (htable : getTable r.table h = some t) (hqueued : r.started = false) (hfail : r.fail = 0)
    (hidle : r.reads + r.writes = 0) (hout : r.outq = []) (hpos : r.pos < emuCount r.frame) (hidx : r.idx = [])
    (hstep : emuOp r.frame = 3 → nbits (emuWord r.frame 6) 63 32 = (t.lastStep + 1) % 2 ^ 32) (happlying : t.applying = none)
    (hreach : reachable r.frame.srcModule r.frame.srcUnit h = true) : ReadsOut r h (emuPump h) := by
  have htodo : emuOp r.frame = 2 ∧ (startedReq r).todo ≠ [] ∨ emuOp r.frame ≠ 2 ∧ (startedReq r).todo = [] := by
    by_cases hop : emuOp r.frame = 2
    · exact .inl ⟨hop, by rw [startedReq, if_pos hop]; exact readsOf_nonempty (by omega)⟩
    · exact .inr ⟨hop, if_neg hop⟩
  have hgo := emuGo_starts (r := startedReq r) (h := putReq (startedReq r) h) (fuel := 6) (putReq_one hreqs rfl) htable hreach rfl hfail hidle
    hout hpos hidx htodo
  rw [emuPump_starts hreqs htable hqueued hstep happlying, emuFuel]
  exact hgo.of_same rfl rfl rfl ⟨rfl, rfl⟩ rfl

/-- R445, R451: a request admitted to an idle unit has its reads out. -/
theorem emuAdmitted_reads {f : Frame} {i : Nat} (hroom : h.emb.reqs = []) (htable : getTable i h = some t) (hok : emuBad f t.d = false)
    (hstep : emuOp f = 3 → nbits (emuWord f 6) 63 32 = (t.lastStep + 1) % 2 ^ 32) (happlying : t.applying = none)
    (hreach : reachable f.srcModule f.srcUnit h = true) : ReadsOut (newEmuReq f i h) h (emuPump (emuAdmitted f i h)) := by
  have hways := waysSame_meterAdd f.tenant 6 1 h
  have hreqs : (emuAdmitted f i h).emb.reqs = [newEmuReq f i h] := by
    show h.emb.reqs ++ [newEmuReq f i h] = _
    rw [hroom, List.nil_append]
  have hreach1 : reachable f.srcModule f.srcUnit (emuAdmitted f i h) = true := (hways.reachable f.srcModule f.srcUnit).trans hreach
  have hpos : 0 < emuCount f := Nat.pos_of_ne_zero (emuCount_of_ok hok)
  exact (emuPump_reads hreqs htable rfl rfl rfl rfl hpos rfl hstep happlying hreach1).of_same rfl rfl rfl ⟨hways.mem, hways.poison⟩ rfl

end EmbeddingRequests

section EmbeddingFrames

variable {p : Fin 28} {f : Frame} {s : State}

/-- The low byte of AUX as a row names it. -/
theorem asAux_low {op : Nat} (hop : op < 256) (f : Frame) : nbits (asAux op f).aux 7 0 = op := by
  simp only [asAux, nbits, Nat.shiftRight_zero]
  omega

/-- A frame's payload is as long as its length says, where its form is right. -/
theorem payload_of_meetsWork {g : Frame} {p u : Nat} (hmeets : meetsWork p g u s = true) (hop : g.opcode = 0x11) : g.payload.length = g.len := by
  simp only [meetsWork, unitFormOk, hop, Bool.and_eq_true] at hmeets
  obtain ⟨⟨⟨-, hform⟩, -⟩, -⟩ := hmeets
  cases hposted : g.posted <;> simp_all

/-- GATHER, POOL and SCATTER. -/
theorem embedding_admitted (op : Nat) (t : EmbTable) (c : Instr) :
    (op, c) ∈ [(1, .gather p f), (2, .pool p f), (3, .scatter p f)] →
      let g := toUnit 0x84 (asAux op (asOp 0x11 f))
      let i := nbits (emuWord f 0) 7 0
      meetsWork p g 0x84 s = true → f.len = 64 → enabled embPage s.hub = true → s.hub.emb.reqs = [] → getTable i s.hub = some t →
      t.unloading = false → f.tenant = t.d.tenant → emuBad g t.d = false → t.applying = none →
      (op = 3 → nbits (emuWord f 6) 63 32 = (t.lastStep + 1) % 2 ^ 32) → reachable f.srcModule f.srcUnit s.hub = true →
      HubAnswers c s (fun h => SameMemory s.hub h ∧ h.emb.tables = s.hub.emb.tables ∧
        ∃ r, h.emb.reqs = [r] ∧ r.n = s.hub.emb.nextReq ∧ r.frame = g ∧ r.table = i ∧ r.started = true ∧ 0 < r.reads) := by
  intro hrow g i hmeets hlen henabled hroom htable hloaded htenant hok happlying hstep hreach
  have hexec : exec c s = frameRow p g s ∧ (op = 1 ∨ op = 2 ∨ op = 3) := by
    simp only [List.mem_cons, Prod.mk.injEq, List.not_mem_nil, or_false] at hrow
    obtain ⟨rfl, rfl⟩ | ⟨rfl, rfl⟩ | ⟨rfl, rfl⟩ := hrow
    · exact ⟨rfl, by omega⟩
    · exact ⟨rfl, by omega⟩
    · exact ⟨rfl, by omega⟩
  obtain ⟨hexec, hops⟩ := hexec
  have hopg : emuOp g = op := asAux_low (by omega) (asOp 0x11 f)
  have hways := waysSame_atUnit p g s.hub
  have htable' : getTable i (atUnit p g s.hub) = some t := by rw [getTable, hways.emb]; exact htable
  have hstep' : emuOp g = 3 → nbits (emuWord g 6) 63 32 = (t.lastStep + 1) % 2 ^ 32 := fun h3 => hstep (hopg.symm.trans h3)
  have hroom' : (atUnit p g s.hub).emb.reqs = [] := by rw [hways.emb]; exact hroom
  have henabled' : enabled embPage (atUnit p g s.hub) = true :=
    (enabled_of_reg (hways.reg embPage 0x10 (by unfold plainReg; omega)) hways.boot).trans henabled
  have hpayload : g.payload.length = 64 := (payload_of_meetsWork hmeets rfl).trans hlen
  refine work_answers hexec hmeets (.inr (by omega)) rfl ?_
  have hframe : workFrame p g (atUnit p g s.hub) = emuRequest g (atUnit p g s.hub) := by
    have hemu : workFrame p g (atUnit p g s.hub) = emuFrame g (atUnit p g s.hub) := rfl
    rw [hemu, emuFrame]
    exact if_pos (by rwa [show nbits g.aux 7 0 = op from hopg])
  have hout := emuAdmitted_reads (f := g) hroom' htable' hok hstep' happlying ((hways.reachable _ _).trans hreach)
  rw [hframe, emuRequest_admits (f := g) hlen hpayload hroom' henabled' htable' hloaded htenant hok hstep' happlying]
  obtain ⟨⟨hmem, hpoison⟩, htables, r, hreqs, hn, hg, hi, hstarted, hreads⟩ := hout
  refine ⟨⟨hmem.trans hways.mem, hpoison.trans hways.poison⟩, htables.trans (congrArg Emb.tables hways.emb), r, hreqs, hn.trans ?_, hg, hi,
    hstarted, hreads⟩
  exact congrArg Emb.nextReq hways.emb

end EmbeddingFrames

end Sys2Proof.Proofs

/-!
PROOFS. Accesses of a unit to the store leave the tables of the Embedding Unit and the indexes of the Search Unit as they are.
-/
namespace Sys2Proof.Proofs

open Machine Safety Laws

/-- What the Embedding Unit and the Search Unit hold is as before. -/
structure UnitsKept (a b : Hub) : Prop where
  emb : b.emb = a.emb
  search : b.search = a.search

theorem UnitsKept.refl (h : Hub) : UnitsKept h h := ⟨rfl, rfl⟩

theorem UnitsKept.trans {a b c : Hub} (x : UnitsKept a b) (y : UnitsKept b c) : UnitsKept a c := ⟨y.emb.trans x.emb, y.search.trans x.search⟩

theorem UnitsKept.ite {a b c : Hub} {q : Prop} [Decidable q] (x : UnitsKept a b) (y : UnitsKept a c) : UnitsKept a (if q then b else c) := by
  split <;> assumption

theorem kept_of_switch {a b : Hub} (k : SwitchOnly a b) : UnitsKept a b := ⟨k.emb, k.search⟩

theorem foldl_kept {α : Type} (f : Hub → α → Hub) (hf : ∀ x a, UnitsKept x (f x a)) (l : List α) (h : Hub) : UnitsKept h (l.foldl f h) :=
  List.foldlRecOn l f (motive := UnitsKept h) (.refl h) fun x hx a _ => hx.trans (hf x a)

/-- Where an operation gives a hub at all, the units hold in it what they held. -/
def OptKept (h : Hub) (o : Option Hub) : Prop := ∀ x, o = some x → UnitsKept h x

theorem optKept_none (h : Hub) : OptKept h none := fun _ => nofun

theorem optKept_some {h x : Hub} (hx : UnitsKept h x) : OptKept h (some x) := fun _ hy => Option.some.inj hy ▸ hx

theorem OptKept.map {h : Hub} {o : Option Hub} {f : Hub → Hub} (ho : OptKept h o) (hf : ∀ x, UnitsKept x (f x)) : OptKept h (o.map f) := by
  cases o with
  | none => exact optKept_none h
  | some x => exact optKept_some ((ho x rfl).trans (hf x))

theorem OptKept.bind {h : Hub} {o : Option Hub} {f : Hub → Option Hub} (ho : OptKept h o) (hf : ∀ x, OptKept x (f x)) :
    OptKept h (o.bind f) := by
  cases o with
  | none => exact optKept_none h
  | some x => exact fun y hy => (ho x rfl).trans (hf x y hy)

theorem OptKept.after {a b : Hub} {o : Option Hub} (x : UnitsKept a b) (ho : OptKept b o) : OptKept a o := fun y hy => x.trans (ho y hy)

/-- An operation that is not performed where it finds no room. -/
theorem OptKept.getD {h y : Hub} {o : Option Hub} (ho : OptKept h o) (hy : UnitsKept h y) : UnitsKept h (o.getD y) := by
  cases o with
  | none => exact hy
  | some x => exact ho x rfl

section Kept

variable (h : Hub)

theorem count_kept (page slot n : Nat) : UnitsKept h (count page slot n h) := kept_of_switch (count_switch page slot n h)
theorem raise_kept (page bit : Nat) : UnitsKept h (raise page bit h) := kept_of_switch (raise_switch page bit h)
theorem raiseEvent_kept (page bit : Nat) : UnitsKept h (raiseEvent page bit h) := kept_of_switch (raiseEvent_switch page bit h)

/-! Meters and notes -/

theorem meterAdd_kept (tenant i n : Nat) : UnitsKept h (meterAdd tenant i n h) := by
  unfold meterAdd
  refine .ite (.refl h) (.ite (.trans ?_ (kept_of_switch ((raiseQuiet_switch _ _ _).trans (armoireAppend_switch _ _ _)))) ⟨rfl, rfl⟩)
  exact ⟨rfl, rfl⟩

theorem histAdd_kept (kind loc : Nat) (ue : Bool) : UnitsKept h (histAdd kind loc ue h) := by
  unfold histAdd
  refine .ite (.refl h) (.ite ⟨rfl, rfl⟩ ?_)
  split
  · exact ⟨rfl, rfl⟩
  · exact raise_kept h _ _

theorem raiseMark_kept (p b : Nat) (inj : Bool) : UnitsKept h (raiseMark p b inj h) := by
  unfold raiseMark
  exact .ite (kept_of_switch (raiseInjected_switch p b h)) (raise_kept h p b)

theorem rasNote_kept (ue inj : Bool) (kind loc : Nat) : UnitsKept h (rasNote ue inj kind loc h) := by
  unfold rasNote
  have hinj : UnitsKept h (if inj then count 0x300 3 1 h else h) := .ite (count_kept h _ _ _) (.refl h)
  extract_lets h1
  have hreported (y : Hub) (bit : Nat) : UnitsKept y (raiseEvent 0x300 bit (count 0x300 bit 1 y)) :=
    (count_kept y _ _ _).trans (raiseEvent_kept _ _ _)
  refine .ite (.trans (.trans hinj ?_) (hreported _ 1)) (hinj.trans (hreported h1 0))
  exact ⟨rfl, rfl⟩

theorem eccReport_kept (page kind loc device : Nat) (ue scrub inj : Bool) : UnitsKept h (eccReport page kind loc device ue scrub inj h) := by
  unfold eccReport
  refine .trans (.trans (.trans ?_ (raiseMark_kept _ _ _ _)) (count_kept _ _ _ _)) (rasNote_kept _ _ _ _ _)
  exact ⟨rfl, rfl⟩

theorem freshLoc_kept : UnitsKept h (freshLoc h).2 := ⟨rfl, rfl⟩

theorem selvedgeNote_kept (n : Nat) : UnitsKept h (selvedgeNote n h) := by
  unfold selvedgeNote
  refine .ite (.refl h) ?_
  exact ((freshLoc_kept h).trans (foldl_kept _ (fun x _ => histAdd_kept x _ _ _) _ _)).trans (count_kept _ _ _ _)

theorem selvedgeError_kept (n : Nat) : UnitsKept h (selvedgeError n h) := by
  unfold selvedgeError
  exact .ite (.refl h) (((raise_kept h _ _).trans (count_kept _ _ _ _)).trans (selvedgeNote_kept _ _))

/-! Lines -/

theorem freshBytes_kept (n : Nat) : UnitsKept h (freshBytes n h).2 := by
  induction n generalizing h with
  | zero => exact .refl h
  | succ n ih => exact UnitsKept.trans (b := (fresh h).2) ⟨rfl, rfl⟩ (ih _)

theorem addPoison_kept (a n : Nat) : UnitsKept h (addPoison a n h) := ⟨rfl, rfl⟩
theorem putTile_kept (t : Nat) (v : Tile) : UnitsKept h (putTile t v h) := ⟨rfl, rfl⟩
theorem countSlice_kept (line slot n : Nat) : UnitsKept h (countSlice line slot n h) := ⟨rfl, rfl⟩
theorem setT0_kept (line : Nat) (v : T0State) : UnitsKept h (setT0 line v h) := ⟨rfl, rfl⟩
theorem dropFilter_kept (line : Nat) : UnitsKept h (dropFilter line h) := ⟨rfl, rfl⟩
theorem putFilter_kept (line : Nat) (o : Option Nat) : UnitsKept h (putFilter line o h) := ⟨rfl, rfl⟩
theorem clearInjection_kept : UnitsKept h (clearInjection h) := ⟨rfl, rfl⟩
theorem poisonHalf_kept (a : Nat) : UnitsKept h (poisonHalf a h) := ⟨rfl, rfl⟩

theorem fillT0_kept (line : Nat) : UnitsKept h (fillT0 line h) := by
  unfold fillT0
  split
  · exact .refl h
  · exact setT0_kept h _ _

theorem poisonLine_kept (line : Nat) : UnitsKept h (poisonLine line h) := by
  unfold poisonLine
  refine .trans ?_ (count_kept _ _ _ _)
  exact ⟨rfl, rfl⟩

theorem settleLine_kept (line : Nat) : UnitsKept h (settleLine line h) := by
  have hfresh := freshBytes_kept h 128
  unfold settleLine
  generalize freshBytes 128 h = r at hfresh ⊢
  split
  · refine .ite ?_ ((poisonLine_kept h line).trans (dropFilter_kept _ _))
    exact hfresh.trans ⟨rfl, rfl⟩
  · exact .refl h

theorem settleLines_kept (ls : List Nat) : UnitsKept h (settleLines ls h) := foldl_kept _ (fun x l => settleLine_kept x l) _ _

theorem takeLines_kept (ls : List Nat) : UnitsKept h (takeLines ls h) :=
  foldl_kept _ (fun x l => (settleLine_kept x l).trans (dropFilter_kept _ _)) _ _

theorem memWrite_kept (a : Nat) (bs : List Byte) (poisoned : Bool) : UnitsKept h (memWrite a bs poisoned h) := by
  unfold memWrite
  exact .ite ⟨rfl, rfl⟩ ⟨rfl, rfl⟩

/-! Injected errors -/

theorem injectT0_kept (a : Nat) (ue : Bool) : UnitsKept h (injectT0 a ue h) := by
  have hnoted := ((clearInjection_kept h).trans (freshLoc_kept _)).trans
    (eccReport_kept (freshLoc (clearInjection h)).2 (slicePage (lineOf a)) 2 (freshLoc (clearInjection h)).1 0 ue false true)
  unfold injectT0
  exact .ite hnoted (.ite (hnoted.trans (addPoison_kept _ _ _)) (hnoted.trans ⟨rfl, rfl⟩))

theorem injectT1_kept (a : Nat) (ue : Bool) : UnitsKept h (injectT1 a ue h) := by
  have hdrawn : UnitsKept h (fresh (freshLoc (clearInjection h)).2).2 := ⟨rfl, rfl⟩
  unfold injectT1
  exact .ite ((hdrawn.trans (eccReport_kept _ _ _ _ _ _ _ _)).trans (poisonHalf_kept _ _)) (hdrawn.trans (eccReport_kept _ _ _ _ _ _ _ _))

theorem injectT2_kept (a : Nat) (ue : Bool) : UnitsKept h (injectT2 a ue h) := by
  have hdrawn : UnitsKept h (fresh (freshLoc (clearInjection h)).2).2 := ⟨rfl, rfl⟩
  unfold injectT2
  refine .ite ?_ (hdrawn.trans (eccReport_kept _ _ _ _ _ _ _ _))
  exact (hdrawn.trans (eccReport_kept _ _ _ _ _ _ _ _)).trans ((putTile_kept _ _ _).trans (addPoison_kept _ _ _))

theorem meetInjection_kept (off n : Nat) : UnitsKept h (meetInjection off n h) := by
  unfold meetInjection
  split
  · exact .refl h
  · refine .ite (.ite ?_ (.ite (injectT0_kept h _ _) (.ite (injectT1_kept h _ _) (.ite (injectT2_kept h _ _) (.refl h))))) (.refl h)
    exact ((clearInjection_kept h).trans (poisonHalf_kept _ _)).trans (count_kept _ _ _ _)

theorem meetMove_kept (t target : Nat) : UnitsKept h (meetMove t target h) := by
  unfold meetMove
  split
  · exact .refl h
  · exact .ite (.ite (injectT1_kept h _ _) (injectT2_kept h _ _)) (.refl h)

theorem meetSpInjection_kept (off n : Nat) : UnitsKept h (meetSpInjection off n h) := by
  unfold meetSpInjection
  split
  · exact .refl h
  · have hnoted (p b : Nat) (inj : Bool) (ue : Bool) (loc : Nat) :
        UnitsKept h (rasNote ue true 1 loc (raiseMark p b inj (clearInjection h))) :=
      (clearInjection_kept h).trans ((raiseMark_kept _ _ _ _).trans (rasNote_kept _ _ _ _ _))
    refine .ite (.ite ((hnoted _ _ _ _ _).trans (addPoison_kept _ _ _)) (hnoted _ _ _ _ _)) (.ite ?_ (.refl h))
    exact ((clearInjection_kept h).trans (poisonHalf_kept _ _)).trans (count_kept _ _ _ _)

theorem spStore_kept (a : Nat) (bs : List Byte) (poisoned : Bool) : UnitsKept h (spStore a bs poisoned h) := by
  unfold spStore
  refine .ite (.refl h) (.ite ?_ ?_)
  · exact (meetSpInjection_kept h _ _).trans ⟨rfl, rfl⟩
  · exact (meetSpInjection_kept h _ _).trans ⟨rfl, rfl⟩

/-! Fills and reads -/

theorem touchTile_kept (t : Nat) : UnitsKept h (touchTile t h) := by
  unfold touchTile
  exact .ite ⟨rfl, rfl⟩ (.refl h)

theorem fillBlock_kept (t j : Nat) : UnitsKept h (fillBlock t j h) := by
  have hcount : UnitsKept h (if (getTile t h).codec ∧ nth (getTile t h).lens j 0 ≠ 63 then count 0x98 5 1 h else h) :=
    .ite (count_kept h _ _ _) (.refl h)
  unfold fillBlock
  refine UnitsKept.trans ?_ (foldl_kept _ (fun x l => fillT0_kept x l) _ _)
  refine .ite (hcount.trans (.trans ?_ (selvedgeError_kept _ _))) hcount
  exact (foldl_kept _ (fun x l => addPoison_kept x (128 * l) 128) _ _).trans (putTile_kept _ _ _)

theorem fillLine_kept (l : Nat) : UnitsKept h (fillLine l h) := by
  have htouch (t : Nat) : UnitsKept h (fillT0 l (touchTile t (meetInjection (128 * l) 128 h))) :=
    ((meetInjection_kept h _ _).trans (touchTile_kept _ _)).trans (fillT0_kept _ _)
  have himage : UnitsKept h (if (getTile (l / 512) h).codec || !regBit 0x90 0x40 17 h then
      fillBlock (l / 512) (l % 512 / 32) (meetInjection (65536 * (l / 512) + 4096 * (l % 512 / 32)) 4096 h)
    else fillT0 l (meetInjection (128 * l) 128 h)) :=
    .ite ((meetInjection_kept h _ _).trans (fillBlock_kept _ _ _)) ((meetInjection_kept h _ _).trans (fillT0_kept _ _))
  unfold fillLine
  dsimp only
  split
  · exact htouch _
  · exact htouch _
  · exact htouch _
  · exact himage
  · exact himage
  · exact .refl h
  · exact .refl h
  · exact .refl h

theorem readLine_kept (l : Nat) : UnitsKept h (if inT0 l h then countSlice l 0 1 h else fillLine l (countSlice l 1 1 h)) :=
  .ite (countSlice_kept h _ _ _) ((countSlice_kept h _ _ _).trans (fillLine_kept _ _))

theorem readTilePart_kept (off n : Nat) : UnitsKept h (readTilePart off n h).2 := by
  unfold readTilePart
  dsimp only
  split
  · exact freshBytes_kept h n
  · split
    · exact .refl h
    · exact .refl h
    · exact .refl h
    all_goals
      exact (((settleLines_kept h _).trans (meetInjection_kept _ _ _)).trans (foldl_kept _ readLine_kept _ _)).trans (touchTile_kept _ _)

theorem engRead_kept (fuel off n : Nat) : UnitsKept h (engRead fuel off n h).2 := by
  induction fuel generalizing off n h with
  | zero => exact .refl h
  | succ fuel ih =>
    unfold engRead
    split
    · exact .refl h
    · split
      · exact freshBytes_kept h n
      · split
        · exact meetSpInjection_kept h _ _
        · exact (readTilePart_kept h _ _).trans (ih _ _ _)

theorem tenantRead_kept (t off n : Nat) : UnitsKept h (tenantRead t off n h).2 := (meterAdd_kept h _ _ _).trans (engRead_kept _ _ _ _)

/-! Moves of tiles -/

theorem checkTile_kept (t : Nat) : UnitsKept h (checkTile t h) := by
  have hmarked (n : Nat) (v : Tile) : UnitsKept h (selvedgeError n (putTile t v h)) := (putTile_kept h _ _).trans (selvedgeError_kept _ _)
  unfold checkTile
  exact .ite (hmarked _ _) (.ite (.refl h) (.ite (hmarked _ _) (.ite (hmarked _ _) (.refl h))))

theorem widenPoison_kept (t : Nat) : UnitsKept h (widenPoison t h) := foldl_kept _ (fun x l => addPoison_kept x (128 * l) 128) _ _

theorem openSeal_kept (t : Nat) : UnitsKept h (openSeal t h) := by
  unfold openSeal
  exact .ite (.refl h) (putTile_kept h _ _)

theorem dropImage_kept (t : Nat) : UnitsKept h (dropImage t h) := ⟨rfl, rfl⟩
theorem renewTile_kept (t : Nat) : UnitsKept h (renewTile t h) := ⟨rfl, rfl⟩
theorem sealTile_kept (t : Nat) : UnitsKept h (sealTile t h) := ⟨rfl, rfl⟩
theorem leaveQueue_kept (t : Nat) : UnitsKept h (leaveQueue t h) := ⟨rfl, rfl⟩

theorem abandon_kept (t : Nat) : UnitsKept h (abandon t h) := (putTile_kept h _ _).trans (count_kept _ _ _ _)

theorem freeFinish_kept (t : Nat) : UnitsKept h (freeFinish t h) :=
  UnitsKept.trans (b := leaveQueue t (putTile t {} h)) ⟨rfl, rfl⟩ ⟨rfl, rfl⟩

theorem promoteFinish_kept (t : Nat) : UnitsKept h (promoteFinish t h) := by
  unfold promoteFinish
  extract_lets h1 v h2
  have h1kept : UnitsKept h h1 := ((meterAdd_kept h _ _ _).trans (meterAdd_kept _ _ _ _)).trans
    ((meetMove_kept _ _ _).trans ((checkTile_kept _ _).trans (widenPoison_kept _ _)))
  have h2kept : UnitsKept h h2 := .ite (h1kept.trans (count_kept _ _ _ _)) h1kept
  exact h2kept.trans ((putTile_kept _ _ _).trans (count_kept _ _ _ _))

theorem writeBackTile_kept (t : Nat) : UnitsKept h (writeBackTile t h) := by
  unfold writeBackTile
  refine foldl_kept _ (fun x l => ?_) _ _
  split
  · exact (setT0_kept _ _ _).trans (countSlice_kept _ _ _ _)
  · exact .refl x

theorem demoteFinish_kept (t : Nat) : UnitsKept h (demoteFinish t h) := by
  unfold demoteFinish
  extract_lets moved checked us n
  have hmoved : UnitsKept h moved := ((meterAdd_kept h _ _ _).trans (meterAdd_kept _ _ _ _)).trans
    ((writeBackTile_kept _ _).trans (meetMove_kept _ _ _))
  have hchecked : UnitsKept h checked := .ite (hmoved.trans (sealTile_kept _ _)) (hmoved.trans (checkTile_kept _ _))
  clear_value checked us n
  split
  · exact hchecked.trans ((putTile_kept _ _ _).trans (raiseEvent_kept _ _ _))
  · extract_lets placed counted
    have hcounted : UnitsKept h counted := hchecked.trans ((putTile_kept _ _ _).trans ((count_kept _ _ _ _).trans (count_kept _ _ _ _)))
    clear_value counted
    split
    · refine hcounted.trans (.trans ?_ (kept_of_switch (countKib_moves switch_moves _ _ _ _ (by norm_num))))
      exact (count_kept _ _ _ _).trans ((count_kept _ _ _ _).trans (count_kept _ _ _ _))
    · exact .ite (hcounted.trans (count_kept _ _ _ _)) hcounted

theorem dropToLower_kept (t : Nat) : UnitsKept h (dropToLower t h) := by
  unfold dropToLower
  exact .trans (.trans (.trans (widenPoison_kept h t) (putTile_kept _ _ _)) (leaveQueue_kept _ _)) (count_kept _ _ _ _)

theorem evictNow_kept (t : Nat) : UnitsKept h (evictNow t h) := by
  have hdemoted := (settleLines_kept h (tileLines t)).trans (demoteFinish_kept _ t)
  unfold evictNow
  exact .ite (.ite (hdemoted.trans (dropToLower_kept _ _)) hdemoted) (dropToLower_kept h t)

theorem takeSlot_kept (c : Nat) : OptKept h (takeSlot c h) := by
  unfold takeSlot
  split
  · exact optKept_some (.refl h)
  · cases chooseVictim c h with
    | none => exact optKept_none h
    | some t => exact optKept_some (evictNow_kept h t)

theorem allocTile_kept (t cls owner : Nat) : OptKept h (allocTile t cls owner h) :=
  (takeSlot_kept h cls).map fun x => (putTile_kept x _ _).trans (renewTile_kept _ _)

theorem allocFresh_kept (t cls owner : Nat) : OptKept h (allocFresh t cls owner h) := .after (freeFinish_kept h t) (allocTile_kept _ _ _ _)

theorem promoteNow_kept (t : Nat) : OptKept h (promoteNow t h) :=
  ((takeSlot_kept h _).map fun x => (putTile_kept x _ _).trans (renewTile_kept _ _)).map fun x => promoteFinish_kept x t

theorem ensureUpper_kept (t owner : Nat) : OptKept h (ensureUpper t owner h) := by
  unfold ensureUpper
  split
  · exact optKept_some (.refl h)
  · exact optKept_some (dropImage_kept h t)
  · exact optKept_some (abandon_kept h t)
  · exact optKept_some ((promoteFinish_kept h t).trans (dropImage_kept _ t))
  · exact .after (count_kept h _ _ _) ((promoteNow_kept _ t).map (dropImage_kept · t))
  · exact allocTile_kept h _ _ _
  · exact allocFresh_kept h _ _ _
  · exact allocFresh_kept h _ _ _

/-! Writes -/

theorem pairWrite_kept (off : Nat) (bs : List Byte) (poisoned : Bool) : UnitsKept h (pairWrite off bs poisoned h) :=
  foldl_kept _ (fun x _ => kept_of_switch (sendBridge_moves switch_moves (raise_moves switch_moves) _ x)) _ _

theorem writeTilePart_kept (off : Nat) (bs : List Byte) (poisoned : Bool) (owner : Nat) : OptKept h (writeTilePart off bs poisoned owner h) := by
  unfold writeTilePart
  split
  · exact optKept_some (pairWrite_kept h _ _ _)
  · refine (ensureUpper_kept h _ owner).map fun x => ?_
    have hlines := ((meetInjection_kept x off bs.length).trans (takeLines_kept _ (linesOf off bs.length))).trans
      (foldl_kept _ (fun y l => setT0_kept y l .dirty) (linesOf off bs.length) _)
    exact hlines.trans ((openSeal_kept _ _).trans ((touchTile_kept _ _).trans (memWrite_kept _ _ _ _)))

theorem engWrite_kept (fuel off : Nat) (bs : List Byte) (p : Bool) (owner : Nat) : OptKept h (engWrite fuel off bs p owner h) := by
  induction fuel generalizing off bs h with
  | zero => exact optKept_some (.refl h)
  | succ fuel ih =>
    simp only [engWrite]
    split
    · exact optKept_some (.refl h)
    · split
      · exact optKept_some (.ite (pairWrite_kept h _ _ _) (spStore_kept h _ _ _))
      · exact (writeTilePart_kept h off _ p owner).bind fun x => ih x _ _

theorem poolFull_kept : UnitsKept h (poolFull h) := (raiseEvent_kept h _ _).trans (count_kept _ _ _ _)

theorem ownWrite_kept (off : Nat) (bs : List Byte) : UnitsKept h (ownWrite off bs h) := by
  unfold ownWrite
  split
  · exact engWrite_kept h _ off bs false 0 _ ‹_›
  · exact poolFull_kept h

theorem tenantWrite_kept (t off : Nat) (bs : List Byte) (p : Bool) : OptKept h (tenantWrite t off bs p h) :=
  (engWrite_kept h _ off bs p t).map fun x => meterAdd_kept x _ _ _

end Kept

end Sys2Proof.Proofs

/-!
PROOFS. CUTOVER at the destination of a bucket (R443, R460): a word of a tile that internal units write in place is read and written.
-/
namespace Sys2Proof.Proofs

open Machine Safety Laws

section Plain

variable {t off : Nat} {a b c h : Hub}

/-- A tile of a module that stands alone, whose bytes internal units write in place. -/
structure Plain (t : Nat) (h : Hub) : Prop where
  upper : (getTile t h).st = .upper
  filter : h.coh.filter = []
  quiet : h.ras.injection = none
  alone : pairJoined h = false

/-- The tile stays so, and no byte of memory changes. -/
structure StaysPlain (t : Nat) (a b : Hub) : Prop extends Plain t b where
  mem : b.mem = a.mem

theorem StaysPlain.refl (hplain : Plain t h) : StaysPlain t h h := ⟨hplain, rfl⟩

theorem StaysPlain.trans (x : StaysPlain t a b) (y : StaysPlain t b c) : StaysPlain t a c := ⟨y.toPlain, y.mem.trans x.mem⟩

theorem plain_of_parts (hplain : Plain t a) (hmem : b.mem = a.mem) (htile : getTile t b = getTile t a) (hfilter : b.coh.filter = a.coh.filter)
    (hras : b.ras = a.ras) (htwin : b.twin = a.twin) : StaysPlain t a b :=
  ⟨⟨htile ▸ hplain.upper, hfilter.trans hplain.filter, hras ▸ hplain.quiet, by rw [pairJoined, htwin]; exact hplain.alone⟩, hmem⟩

theorem touchTile_plain (hplain : Plain t h) : StaysPlain t h (touchTile t h) := by
  unfold touchTile
  dsimp only
  split
  · refine ⟨⟨?_, hplain.filter, hplain.quiet, hplain.alone⟩, rfl⟩
    show (getTile t (putTile t { getTile t h with stamp := ageNow h } h)).st = .upper
    rw [getTile_putTile_same]
    exact hplain.upper
  · exact .refl hplain

theorem fillT0_plain (hplain : Plain t h) (l : Nat) : StaysPlain t h (fillT0 l h) := by
  unfold fillT0
  split
  · exact .refl hplain
  · exact plain_of_parts hplain rfl rfl rfl rfl rfl

theorem settleLine_plain (hplain : Plain t h) (l : Nat) : settleLine l h = h := by
  rw [settleLine, getFilter_of_empty hplain.filter]

/-- R176: a line of the tile comes from its slot. -/
theorem readLine_plain {l : Nat} (hplain : Plain t h) (hl : l / 512 = t) :
    StaysPlain t h (if inT0 l h then countSlice l 0 1 h else fillLine l (countSlice l 1 1 h)) := by
  have hcount (slot : Nat) : StaysPlain t h (countSlice l slot 1 h) := plain_of_parts hplain rfl rfl rfl rfl rfl
  split
  · exact hcount 0
  · have hfill : fillLine l (countSlice l 1 1 h) = fillT0 l (touchTile t (countSlice l 1 1 h)) := by
      unfold fillLine
      dsimp only
      rw [hl, (hcount 1).upper, meetInjection_of_quiet (hcount 1).quiet]
    rw [hfill]
    have htouched := touchTile_plain (hcount 1).toPlain
    exact ((hcount 1).trans htouched).trans (fillT0_plain htouched.toPlain l)

/-- An aligned word lies in one line. -/
theorem lines_of_word (haligned : off % 8 = 0) : linesOf off 8 = [lineOf off] := by
  have hspan : (off + 8 - 1) / 128 - off / 128 = 0 := by omega
  rw [linesOf, if_neg (by norm_num), hspan]
  exact congrArg (· :: []) (Nat.zero_add _)

theorem otherTile_plain (hplain : Plain t h) (u : Nat) : otherTile u h = false := by rw [otherTile, hplain.alone, Bool.false_and]

theorem otherHolds_plain (hplain : Plain t h) (off : Nat) : otherHolds off h = false := by
  rw [otherHolds, otherTile_plain hplain, hplain.alone]
  simp

theorem readTilePart_word (haligned : off % 8 = 0) (hplain : Plain (tileOf off) h) :
    StaysPlain (tileOf off) h (readTilePart off 8 h).2 := by
  have hread := readLine_plain (l := lineOf off) hplain (by unfold lineOf tileOf; omega)
  have hpart : (readTilePart off 8 h).2 = touchTile (tileOf off)
      (if inT0 (lineOf off) h then countSlice (lineOf off) 0 1 h else fillLine (lineOf off) (countSlice (lineOf off) 1 1 h)) := by
    unfold readTilePart
    simp only [otherTile_plain hplain, Bool.false_eq_true, if_false, hplain.upper, lines_of_word haligned, settleLines, List.foldl_cons,
      List.foldl_nil, settleLine_plain hplain, meetInjection_of_quiet hplain.quiet]
  rw [hpart]
  exact hread.trans (touchTile_plain hread.toPlain)

/-- R299: a word of such a tile, or of a scratchpad, is read. -/
theorem ownRead64_plain (haligned : off % 8 = 0) (hplain : Plain (tileOf off) h) : StaysPlain (tileOf off) h (ownRead64 off h).2 := by
  have hread : (ownRead64 off h).2 = (engRead 2 off 8 h).2 := rfl
  rw [hread, engRead, if_neg (by norm_num), if_neg (by simp [otherHolds_plain hplain])]
  split
  · rw [meetSpInjection_of_quiet hplain.quiet]
    exact .refl hplain
  · rw [show min 8 (65536 - off % 65536) = 8 by omega]
    exact readTilePart_word haligned hplain

theorem setT0_plain (hplain : Plain t h) (l : Nat) (v : T0State) : StaysPlain t h (setT0 l v h) := plain_of_parts hplain rfl rfl rfl rfl rfl

theorem dropFilter_plain (hplain : Plain t h) (l : Nat) : StaysPlain t h (dropFilter l h) :=
  plain_of_parts hplain rfl rfl (by rw [dropFilter, hplain.filter]; rfl) rfl rfl

theorem touchTile_mem (t : Nat) (h : Hub) : (touchTile t h).mem = h.mem := by
  unfold touchTile
  dsimp only
  split <;> rfl

/-- R305: a word of such a tile is written. -/
theorem writeTilePart_word {bs : List Byte} (haligned : off % 8 = 0) (hlen : bs.length = 8) (hplain : Plain (tileOf off) h) (owner : Nat) :
    ∃ h1, writeTilePart off bs false owner h = some h1 ∧ h1.mem = memPutN h.mem off bs := by
  have hupper : ensureUpper (tileOf off) owner h = some h := by rw [ensureUpper, hplain.upper]
  unfold writeTilePart
  rw [if_neg (by simp [otherTile_plain hplain]), hupper, Option.map_some]
  refine ⟨_, rfl, ?_⟩
  simp only [memWrite_mem, touchTile_mem, openSeal_mem, hlen, lines_of_word haligned, takeLines, List.foldl_cons, List.foldl_nil,
    meetInjection_of_quiet hplain.quiet, settleLine_plain hplain]
  rfl

/-- A unit's own structure in such a tile, or in a scratchpad, is written. -/
theorem ownWrite_plain {bs : List Byte} (haligned : off % 8 = 0) (hlen : bs.length = 8) (hplain : Plain (tileOf off) h) :
    (ownWrite off bs h).mem = memPutN h.mem off bs := by
  have hne : bs ≠ [] := List.ne_nil_of_length_eq_add_one hlen
  obtain ⟨h1, hpart, hmem⟩ := writeTilePart_word haligned hlen hplain 0
  have hwrite : ∃ h2, storeWrite off bs false 0 h = some h2 ∧ h2.mem = memPutN h.mem off bs := by
    rw [storeWrite, hlen, show 8 / 65536 + 2 = 2 from rfl, engWrite, if_neg hne]
    split
    · rw [if_neg (by simp [otherHolds_plain hplain])]
      exact ⟨_, rfl, spStore_mem hplain.quiet off bs hne false⟩
    · dsimp only
      rw [hlen, show min 8 (65536 - off % 65536) = 8 by omega, ← hlen, List.take_length, List.drop_length, hpart, Option.bind_some, engWrite,
        if_pos rfl]
      exact ⟨h1, rfl, hmem⟩
  obtain ⟨h2, hstored, hmem2⟩ := hwrite
  rw [ownWrite, hstored]
  exact hmem2

end Plain

section Cutover

variable {p : Fin 28} {f : Frame} {s : State} {t : EmbTable} {h : Hub}

theorem plain_of_plainTile {u : Nat} (hplain : plainTile u h = true) (halone : pairJoined h = false) : Plain u h := by
  simp only [plainTile, Bool.and_eq_true, beq_iff_eq] at hplain
  obtain ⟨⟨hupper, hfilter⟩, hquiet⟩ := hplain
  exact ⟨hupper, hfilter, hquiet, halone⟩

/-- R460: a cutover that passes its checks, at a table that keeps no log. -/
theorem cutoverRecv_moves {g : Frame} {i k : Nat} (hlen : g.len = 8) (hpayload : g.payload.length = 8)
    (htable : getTable i h = some t) (hi : nbits (leAt g.payload 0 8) 7 0 = i) (hk : nbits (leAt g.payload 0 8) 23 8 = k)
    (hloaded : t.unloading = false) (hbucket : k < t.d.buckets) (hincoming : (dirEntry t.d k h).1.1 = 3)
    (hstep : nbits (leAt g.payload 0 8) 63 32 = t.lastStep) (hopt : t.d.opt = 0) :
    cutoverRecv g h = cloakAnswer g stOk 0 0 0 0 (dirWrite t.d k 1 0 (dirEntry t.d k h).1.2.2 (dirEntry t.d k h).2) := by
  unfold cutoverRecv
  simp only [hlen, hpayload, hi, hk, htable, hloaded, hincoming, hstep, hopt, ne_eq, not_true_eq_false, or_self, if_false, if_true,
    Nat.not_le.mpr hbucket, Bool.false_eq_true]

theorem cloakAnswer_ok (g : Frame) (op0 op1 : Nat) (h : Hub) : cloakAnswer g stOk 0 0 op0 op1 h =
    sendFrame { completionOf g 0 0 0 false [] h with operand0 := op0, operand1 := op1 } h := rfl

theorem dirEntry_hub (d : EmbDesc) (k : Nat) (h : Hub) : (dirEntry d k h).2 = (ownRead64 (d.dir + 8 * k) h).2 := rfl

theorem ownRead64_kept (h : Hub) (off : Nat) : UnitsKept h (ownRead64 off h).2 := engRead_kept h _ off 8

/-- R443: a bucket becomes Local. -/
theorem dirWrite_local (d : EmbDesc) (k base : Nat) (h : Hub) : dirWrite d k 1 0 base h = ownWrite (d.dir + 8 * k) (bytesLE 8 (1 + mkFld 61 16 base)) h :=
  rfl

/-- CUTOVER. -/
theorem cutover_answers (t : EmbTable) :
    let g := toUnit 0x84 (asAux 0x20 (asOp 0x11 f))
    let w := leAt f.payload 0 8
    let k := nbits w 23 8
    let e := (dirEntry t.d k (atUnit p g s.hub)).1
    meetsWork p g 0x84 s = true → f.len = 8 → getTable (nbits w 7 0) s.hub = some t → t.unloading = false → k < t.d.buckets → e.1 = 3 →
    nbits w 63 32 = t.lastStep → t.d.opt = 0 → (t.d.dir + 8 * k) % 8 = 0 → plainTile (tileOf (t.d.dir + 8 * k)) s.hub = true →
    HubAnswers (.cutover p f) s (fun h => storesAt (t.d.dir + 8 * k) (bytesLE 8 (1 + mkFld 61 16 e.2.2)) s.hub h ∧
      answers g 0 0 0 0 h ∧ h.emb = s.hub.emb) := by
  intro g w k e hmeets hlen htable hloaded hbucket hincoming hstep hopt haligned hplain
  have hunit : meetsUnit p g 0x84 s = true := by
    simp only [meetsWork, Bool.and_eq_true] at hmeets
    obtain ⟨⟨⟨hunit, -⟩, -⟩, -⟩ := hmeets
    exact hunit
  have hways := waysSame_atUnit p g s.hub
  have hpassed := (atUnit_passed s.hub p g).1
  have hcut := plain_of_plainTile hplain (alone_of_meetsUnit hunit)
  have hcut1 : Plain (tileOf (t.d.dir + 8 * k)) (atUnit p g s.hub) :=
    ⟨(congrArg Tile.st (getTile_of_tier hpassed.tier _)).trans hcut.upper, by rw [hpassed.coh]; exact hcut.filter, hways.quiet hcut.quiet,
      by rw [pairJoined, hways.twin]; exact hcut.alone⟩
  have hpayload : g.payload.length = 8 := (payload_of_meetsWork hmeets rfl).trans hlen
  have hframe : workFrame p g (atUnit p g s.hub) = cutoverRecv g (atUnit p g s.hub) := by
    have hemu : workFrame p g (atUnit p g s.hub) = emuFrame g (atUnit p g s.hub) := rfl
    have hop : nbits g.aux 7 0 = 0x20 := asAux_low (by norm_num) (asOp 0x11 f)
    rw [hemu, emuFrame, hop]
    rfl
  have htable1 : getTable (nbits w 7 0) (atUnit p g s.hub) = some t := by rw [getTable, hways.emb]; exact htable
  have hexec : exec (.cutover p f) s = frameRow p g s := rfl
  refine work_answers hexec hmeets (.inr (by omega)) rfl ?_
  rw [hframe, cutoverRecv_moves (g := g) hlen hpayload htable1 rfl rfl hloaded hbucket hincoming hstep hopt, dirWrite_local, dirEntry_hub,
    cloakAnswer_ok]
  have hread := ownRead64_plain haligned hcut1
  have hmem := ownWrite_plain (bs := bytesLE 8 (1 + mkFld 61 16 e.2.2)) haligned (bytesLE_length 8 _) hread.toPlain
  rw [hread.mem, hways.mem] at hmem
  have hemb := ((ownRead64_kept (atUnit p g s.hub) (t.d.dir + 8 * k)).trans
    (ownWrite_kept _ (t.d.dir + 8 * k) (bytesLE 8 (1 + mkFld 61 16 e.2.2)))).emb.trans hways.emb
  exact ⟨storesAt_of_put ((sendFrame_mem _ _).trans hmem), ⟨_, rfl⟩, (sendFrame_emb _ _).trans hemb⟩

end Cutover

end Sys2Proof.Proofs

/-!
PROOFS. Requests at the Search Unit (R471, R476 to R482): a query of an empty index, an insert with its vector, a delete of a live node.
-/
namespace Sys2Proof.Proofs

open Machine Safety Laws

section Search

variable {a b h : Hub} {i : Nat} {x : ScuIndex} {r : ScuReq}

theorem getIndex_of_kept (hkept : UnitsKept a b) (i : Nat) : getIndex i b = getIndex i a := by rw [getIndex, hkept.search, getIndex]

theorem UnitsKept.ite_snd {α : Type} {q : Prop} [Decidable q] {u v : α × Hub} (hu : UnitsKept a u.2) (hv : UnitsKept a v.2) :
    UnitsKept a (if q then u else v).2 := by
  split <;> assumption

/-- What is read beside the hub says nothing of it: the hub is named, and the kernel evaluates no read to compare two. -/
theorem UnitsKept.pair {α : Type} {u : α} (hkept : UnitsKept a b) : UnitsKept a (u, b).2 := hkept

/-! Reads of an index -/

theorem readNode_kept (d : ScuDesc) (off : Nat) (h : Hub) : UnitsKept h (readNode d off h).2 := tenantRead_kept h _ _ _

theorem readTomb_kept (d : ScuDesc) (i : Nat) (h : Hub) : UnitsKept h (readTomb d i h).2 := tenantRead_kept h _ _ _

theorem sideEntries_kept (x : ScuIndex) (h : Hub) : UnitsKept h (sideEntries x h).2 := by
  unfold sideEntries
  refine List.foldlRecOn _ _ (motive := fun s : Option (List NodeRec) × Hub => UnitsKept h s.2) (.refl h) fun s hs k _ => ?_
  generalize sideOff x.d ((x.sideHead + k) % 2 ^ 32) = off
  have hread := hs.trans (readNode_kept x.d off s.2)
  extract_lets r
  split
  · exact hread
  · exact hread

theorem sideEntries_empty (hside : sideCount x = 0) (h : Hub) : sideEntries x h = (some [], h) := by
  unfold sideEntries
  generalize sideCount x = n at hside
  subst hside
  rfl

theorem liveNow_kept (x : ScuIndex) (i : Nat) (h : Hub) : UnitsKept h (liveNow x i h).2 := by
  have hheader := tenantRead_kept h x.d.tenant (x.region false) 4096
  unfold liveNow
  exact .pair (.trans (.trans (.ite_snd (hheader.trans (readNode_kept _ _ _)) (.pair hheader)) (sideEntries_kept _ _)) (readTomb_kept _ _ _))

/-! What an index is afterwards -/

theorem saveIndex_search (i : Nat) (x : ScuIndex) (h : Hub) :
    (saveIndex i x h).search = { h.search with indexes := Tab.set h.search.indexes i x } := (ownWrite_kept _ _ _).search

theorem getIndex_saveIndex (i : Nat) (x : ScuIndex) (h : Hub) : getIndex i (saveIndex i x h) = some x := by
  rw [getIndex, saveIndex_search]
  exact (tab_get_set _ _ _ _).trans (if_pos rfl)

/-! Answers -/

theorem cloakAnswer_kept (f : Frame) (status detail aux op0 op1 : Nat) (h : Hub) : UnitsKept h (cloakAnswer f status detail aux op0 op1 h) := by
  have hdenied : UnitsKept h (if status = stDenied then meterAdd f.tenant 7 1 h else h) := .ite (meterAdd_kept _ _ _ _) (.refl h)
  unfold cloakAnswer
  extract_lets h0 h1
  have hcounted : UnitsKept h h1 := .ite (hdenied.trans (count_kept _ _ _ _)) (.ite (hdenied.trans (count_kept _ _ _ _)) hdenied)
  exact hcounted.trans (kept_of_switch (sendFrame_switch _ _))

theorem cloakAnswer_answers (f : Frame) (status detail op0 op1 : Nat) (h : Hub) :
    answers f status detail op0 op1 (cloakAnswer f status detail 0 op0 op1 h) := ⟨_, rfl⟩

/-- An index in service is kept. -/
theorem indexSettle_loaded (hindex : getIndex i h = some x) (hloaded : x.unloading = false) : indexSettle i h = h := by
  rw [indexSettle, hindex]
  simp [hloaded]

/-- No merge, nothing to drain. -/
theorem mergeDrain_none (hmerge : h.search.merge = none) : mergeDrain h = h := by rw [mergeDrain, hmerge]

/-- A request at an index in service, while no merge is under way, is answered, and the index stays. -/
theorem scuAnswer_answers (hindex : getIndex r.index h = some x) (hloaded : x.unloading = false) (hmerge : h.search.merge = none)
    (status detail op0 op1 : Nat) :
    answers r.frame status detail op0 op1 (scuAnswer r status detail op0 op1 h) ∧
      getIndex r.index (scuAnswer r status detail op0 op1 h) = some x := by
  unfold scuAnswer
  extract_lets op search h1 h2
  have hshort : UnitsKept h1 (if status = stUnit ∧ detail = sdShort then count scPage 1 1 h1 else h1) := .ite (count_kept _ _ _ _) (.refl h1)
  have hcounted : UnitsKept h1 h2 :=
    .ite (hshort.trans (count_kept _ _ _ _)) (.ite (count_kept _ _ _ _) (.ite (count_kept _ _ _ _) (.refl h1)))
  have hkept := hcounted.trans (cloakAnswer_kept r.frame status detail 0 op0 op1 h2)
  have hindex2 : getIndex r.index (cloakAnswer r.frame status detail 0 op0 op1 h2) = some x := (getIndex_of_kept hkept _).trans hindex
  have hmerge2 : (cloakAnswer r.frame status detail 0 op0 op1 h2).search.merge = none := (congrArg Search.merge hkept.search).trans hmerge
  rw [indexSettle_loaded hindex2 hloaded, mergeDrain_none hmerge2]
  exact ⟨cloakAnswer_answers _ _ _ _ _ _, hindex2⟩

/-! What a request does -/

/-- R477: an index with no entry node has nothing to walk. -/
theorem graphWalk_empty (d : ScuDesc) (g : Graph) (qv : List Lane) (width k maxVisit : Nat) (h : Hub) :
    graphWalk d g qv width k maxVisit [] h = ({}, h) := rfl

theorem offerSide_nil (d : ScuDesc) (g : Graph) (qv : List Lane) (k lo : Nat) (w : WalkSt) (h : Hub) :
    offerSide d g qv k lo [] w h = (w, h) := rfl

theorem replyPieces_nil (fuel a : Nat) : replyPieces (fuel + 1) a [] = [] := rfl

/-- A query that found no node. -/
theorem nothingFound_word : mkFld 15 0 0 + mkFld 16 16 (bit01 false) + mkFld 63 32 0 = 0 := by decide

/-- R477 to R479: a query of an index that has no entry node and retains no side entry finds nothing. -/
theorem runQuery_empty {q : Nat} (hclean : (tenantRead x.d.tenant (x.region false) 4096 h).1.2 = false)
    (hentries : (parseHdr (tenantRead x.d.tenant (x.region false) 4096 h).1.1).entries = []) (hside : sideCount x = 0)
    (hk : nbits (scuWord r.frame 0) 31 16 ≠ 0) :
    ∃ r1 y, r1.frame = r.frame ∧ r1.index = r.index ∧ UnitsKept h y ∧
      runQuery r x false q h = scuAnswer r1 stUnit sdShort 0 (mkFld 63 48 x.epoch + mkFld 47 0 q) y := by
  have hread := tenantRead_kept h x.d.tenant (x.region false) 4096
  unfold runQuery
  -- No read is left beside the hub before the rest is evaluated: the kernel would count the retained entries one by one.
  simp -zeta only [sideEntries_empty hside]
  simp only [hclean, hentries, graphWalk_empty, offerSide_nil, List.flatMap_nil, List.length_nil, replyPieces_nil, List.foldl_nil, hk.symm,
    nothingFound_word, Bool.false_eq_true, if_false, if_true]
  exact ⟨_, _, rfl, rfl, hread.trans ((count_kept _ _ _ _).trans ((count_kept _ _ _ _).trans (count_kept _ _ _ _))), rfl⟩

/-- A request that has saved its index, while no merge is under way, is answered. -/
theorem saved_answers (hwritten : UnitsKept h a) (hsaved : UnitsKept (saveIndex r.index x a) b) (hloaded : x.unloading = false)
    (hmerge : h.search.merge = none) (op0 op1 : Nat) :
    answers r.frame 0 0 op0 op1 (scuAnswer r stOk 0 op0 op1 b) ∧ getIndex r.index (scuAnswer r stOk 0 op0 op1 b) = some x := by
  have hindex : getIndex r.index b = some x := (getIndex_of_kept hsaved _).trans (getIndex_saveIndex _ _ _)
  have hmerge1 : b.search.merge = none := by
    rw [hsaved.search, saveIndex_search, hwritten.search]
    exact hmerge
  exact scuAnswer_answers hindex hloaded hmerge1 stOk 0 op0 op1

/-- R481: an insert whose vector is in hand, with room. -/
theorem insertNow_answers {vec : List Byte} (hindex : getIndex r.index h = some x) (hloaded : x.unloading = false)
    (hmerge : h.search.merge = none) (hroom : sideCount x < x.d.sideLen) (hnodes : x.nextId ≠ x.d.nodeMax) :
    answers r.frame 0 0 x.nextId x.committed (insertNow r vec h) ∧ getIndex r.index (insertNow r vec h) =
      some { x with nextId := x.nextId + 1, committed := x.committed + 1, sideTail := (x.sideTail + 1) % 2 ^ 32 } := by
  unfold insertNow
  rw [hindex]
  dsimp only
  rw [if_neg (Nat.not_le.mpr hroom), if_neg hnodes]
  refine saved_answers (h := h) ?_ (.ite (raiseEvent_kept _ _ _) (.refl _)) ?_ hmerge x.nextId x.committed
  · exact (tenantWrite_kept h _ _ _ _).getD (poolFull_kept h)
  · exact hloaded

/-- R482: a delete of a live node. -/
theorem deleteNow_answers (hlive : (liveNow x (leAt r.frame.payload 8 4) h).1 = true) (hloaded : x.unloading = false)
    (hmerge : h.search.merge = none) :
    answers r.frame 0 0 0 x.committed (deleteNow r x h) ∧ getIndex r.index (deleteNow r x h) = some { x with committed := x.committed + 1 } := by
  have hread := liveNow_kept x (leAt r.frame.payload 8 4) h
  unfold deleteNow
  simp only [hlive, Bool.not_true, Bool.false_eq_true, if_false]
  refine saved_answers (h := h) (hread.trans ?_) (.refl _) ?_ hmerge 0 x.committed
  · exact (tenantWrite_kept _ _ _ _ _).getD (poolFull_kept _)
  · exact hloaded

/-! Requests that pass their checks -/

/-- A new request at index i. -/
def newScuReq (f : Frame) (i : Nat) (h : Hub) : ScuReq := { n := h.search.nextReq, frame := f, index := i, epoch := none, waits := 0 }

/-- The hub in which a request is admitted and charged. -/
def scuAdmitted (f : Frame) (i : Nat) (h : Hub) : Hub :=
  setScu { h.search with reqs := h.search.reqs ++ [newScuReq f i h], nextReq := h.search.nextReq + 1 } (meterAdd f.tenant 6 1 h)

theorem getIndex_scuAdmitted (f : Frame) (i j : Nat) (h : Hub) : getIndex j (scuAdmitted f i h) = getIndex j h := rfl

/-- R476: a request in form at an index of its tenant in service is admitted. -/
theorem scuRequest_admits {f : Frame} (hi : nbits (scuWord f 0) 7 0 = i) (hlen : scuLenOk f (some x) = true)
    (hroom : h.search.reqs.length < 256) (henabled : enabled scPage h = true) (hindex : getIndex i h = some x) (hloaded : x.unloading = false)
    (htenant : f.tenant = x.d.tenant) (hok : scuReqBad f x = false) :
    (nbits f.aux 7 0 = 1 → (scuWord f 0).testBit 8 = false →
      scuRequest f h = runQuery (newScuReq f i h) x false x.committed (scuAdmitted f i h)) ∧
    (nbits f.aux 7 0 = 2 → (scuWord f 6).testBit 63 = false →
      scuRequest f h = insertNow (newScuReq f i h) (f.payload.drop 64) (scuAdmitted f i h)) ∧
    (nbits f.aux 7 0 = 3 → scuRequest f h = deleteNow (newScuReq f i h) x (scuAdmitted f i h)) := by
  have hbusy : ¬256 ≤ h.search.reqs.length := Nat.not_le.mpr hroom
  refine ⟨fun hop hsnap => ?_, fun hop hpull => ?_, fun hop => ?_⟩
  · simp [scuRequest, hi, hop, hlen, henabled, hindex, hloaded, htenant, hok, hbusy, hsnap, newScuReq, scuAdmitted]
  · simp [scuRequest, hi, hop, hlen, henabled, hindex, hloaded, htenant, hok, hbusy, hpull, newScuReq, scuAdmitted]
  · simp [scuRequest, hi, hop, hlen, henabled, hindex, hloaded, htenant, hok, hbusy, newScuReq, scuAdmitted]

end Search

end Sys2Proof.Proofs

/-!
PROOFS. WORK frames at the units (R345, R443 to R482): the Search Unit's requests from their frames, and the obligation.
-/
namespace Sys2Proof.Proofs

open Machine Safety Laws

section SearchFrames

variable {p : Fin 28} {f : Frame} {s : State}

theorem unitsKept_atUnit (p : Nat) (g : Frame) (h : Hub) : UnitsKept h (atUnit p g h) :=
  (kept_of_switch (frameNoted_switch p g h)).trans ⟨rfl, rfl⟩

/-- R475: k is at least 1 in a query in form. -/
theorem wanted_of_ok {g : Frame} {x : ScuIndex} (hop : nbits g.aux 7 0 = 1) (hok : scuReqBad g x = false) : nbits (scuWord g 0) 31 16 ≠ 0 := by
  intro hzero
  simp [scuReqBad, hop, hzero] at hok

/-- QUERY, INSERT and DELETE. -/
theorem search_answers (op : Nat) (x : ScuIndex) :
    let g := toUnit 0x85 (asAux op (asOp 0x11 f))
    let i := nbits (scuWord f 0) 7 0
    let r : ScuReq := { n := s.hub.search.nextReq, frame := g, index := i, epoch := none, waits := 0 }
    let h0 := atUnit p g s.hub
    let h1 := setScu { h0.search with reqs := h0.search.reqs ++ [r], nextReq := h0.search.nextReq + 1 } (meterAdd f.tenant 6 1 h0)
    meetsWork p g 0x85 s = true → scuLenOk g (some x) = true → s.hub.search.reqs.length < 256 → enabled scPage s.hub = true →
    getIndex i s.hub = some x → x.unloading = false → f.tenant = x.d.tenant → scuReqBad g x = false → s.hub.search.merge = none →
    (op = 1 → (scuWord f 0).testBit 8 = false → sideCount x = 0 →
      (let b := (tenantRead x.d.tenant (x.region false) 4096 h1).1
       b.2 = false ∧ (parseHdr b.1).entries = []) →
      HubAnswers (.query p f) s (fun h => ∃ y : Hub, h = sendFrame { completionOf g stUnit sdShort 0 false [] y with
        operand0 := 0, operand1 := mkFld 63 48 x.epoch + mkFld 47 0 x.committed } y)) ∧
    (op = 2 → (scuWord f 6).testBit 63 = false → sideCount x < x.d.sideLen → x.nextId ≠ x.d.nodeMax →
      HubAnswers (.insert p f) s (fun h => answers g 0 0 x.nextId x.committed h ∧
        getIndex i h = some { x with nextId := x.nextId + 1, committed := x.committed + 1, sideTail := (x.sideTail + 1) % 2 ^ 32 })) ∧
    (op = 3 → (liveNow x (leAt f.payload 8 4) h1).1 = true →
      HubAnswers (.delete p f) s (fun h => answers g 0 0 0 x.committed h ∧ getIndex i h = some { x with committed := x.committed + 1 })) := by
  intro g i r h0 h1 hmeets hlen hroom henabled hindex hloaded htenant hok hmerge
  have hways : WaysSame s.hub h0 := waysSame_atUnit p g s.hub
  have hkept : UnitsKept s.hub h0 := unitsKept_atUnit p g s.hub
  have hroom0 : h0.search.reqs.length < 256 := by rw [hkept.search]; exact hroom
  have henabled0 : enabled scPage h0 = true := (enabled_of_reg (hways.reg scPage 0x10 (by unfold plainReg; omega)) hways.boot).trans henabled
  have hindex0 : getIndex i h0 = some x := (getIndex_of_kept hkept i).trans hindex
  have hmerge0 : (scuAdmitted g i h0).search.merge = none := (congrArg Search.merge hkept.search).trans hmerge
  have hindex1 : getIndex i (scuAdmitted g i h0) = some x := hindex0
  have hr : newScuReq g i h0 = r := by rw [newScuReq, hkept.search]
  have hadmitted : scuAdmitted g i h0 = h1 := by
    rw [scuAdmitted, hr]
    rfl
  have hunit : workFrame p g h0 = scuRequest g h0 := rfl
  obtain ⟨hquery, hinsert, hdelete⟩ := scuRequest_admits (f := g) (i := i) rfl hlen hroom0 henabled0 hindex0 hloaded htenant hok
  refine ⟨?_, ?_, ?_⟩
  · rintro rfl hsnap hside ⟨hclean, hentries⟩
    have hop : nbits g.aux 7 0 = 1 := asAux_low (by norm_num) _
    refine work_answers rfl hmeets (.inr (by omega)) rfl ?_
    rw [← hadmitted] at hclean hentries
    obtain ⟨r1, y, hframe, hat, hquiet, hrun⟩ := runQuery_empty (r := newScuReq g i h0) (q := x.committed) hclean hentries hside
      (wanted_of_ok hop hok)
    have hindex2 : getIndex r1.index y = some x := by
      rw [hat, getIndex_of_kept hquiet]
      exact hindex1
    have hmerge2 : y.search.merge = none := (congrArg Search.merge hquiet.search).trans hmerge0
    obtain ⟨hanswer, -⟩ := scuAnswer_answers hindex2 hloaded hmerge2 stUnit sdShort 0 (mkFld 63 48 x.epoch + mkFld 47 0 x.committed)
    rw [hframe] at hanswer
    rw [hunit, hquery hop hsnap, hrun]
    exact hanswer
  · rintro rfl hpull hspace hnodes
    have hop : nbits g.aux 7 0 = 2 := asAux_low (by norm_num) _
    refine work_answers rfl hmeets (.inr (by omega)) rfl ?_
    rw [hunit, hinsert hop hpull]
    exact insertNow_answers hindex1 hloaded hmerge0 hspace hnodes
  · rintro rfl hlive
    have hop : nbits g.aux 7 0 = 3 := asAux_low (by norm_num) _
    refine work_answers rfl hmeets (.inr (by omega)) rfl ?_
    rw [hunit, hdelete hop]
    rw [← hadmitted] at hlive
    exact deleteNow_answers hlive hloaded hmerge0

end SearchFrames

/-- Settles O30: WORK at a core by `work_starts`; GATHER, POOL and SCATTER by `embedding_admitted`, through the pump that starts the one request
of an idle unit; CUTOVER by `cutover_answers`; QUERY, INSERT and DELETE by `search_answers`. -/
theorem unitFramesAct : Obligations.UnitFramesAct := by
  unfold Obligations.UnitFramesAct
  intro p f s
  exact ⟨fun _ c => work_starts c, embedding_admitted, cutover_answers, search_answers⟩

end Sys2Proof.Proofs
